-- ==== Sys2Proof/Word.lean ====
section
/-! DEFINITION. The 16-bit memory word of 00_scope.md ("Memory words are 16 bits wide") and its plainest readings. -/

namespace Sys2Proof

/-- A memory word (00: "Memory words are 16 bits wide"). -/
abbrev Word := BitVec 16

/-- The word that holds a number, low 16 bits. -/
def wordOf (n : Nat) : Word := BitVec.ofNat 16 n

/-- The word that holds a signed number in two's complement (01 §1.9: "Signed fields hold two's-complement values"). -/
def wordOfInt (i : Int) : Word := BitVec.ofInt 16 i

/-- A word with the given high and low byte (09 §9.2: "the two fields share one word"). -/
def bytesWord (hi lo : Nat) : Word := BitVec.ofNat 16 (hi % 256 * 256 + lo % 256)

/-- The high word of a 32-bit quantity (00: "the high word first"). -/
def hiWord (n : Nat) : Word := BitVec.ofNat 16 (n / 65536)

/-- The low word of a 32-bit quantity. -/
def loWord (n : Nat) : Word := BitVec.ofNat 16 n

/-- The 32-bit quantity of two consecutive words. -/
def pairNat (hi lo : Word) : Nat := hi.toNat * 65536 + lo.toNat

/-- A truth value as a word, 1 or 0. -/
def wordOfBool (b : Bool) : Word := if b then 1 else 0

end Sys2Proof
end

