-- ==== Sys2Proof/Syntax.lean ====
section
/-! DEFINITION. The commands: one constructor per row of spec/opcode_table.json, in the table's order. The table gives no
row an operand; each operand below is what the row's rule takes from outside the part (assumption log 21). -/

namespace Sys2Proof

/-- One command of the block. `slot` and `tag` are those of a post in the command window (R170): the opcode is the row's own,
the arguments are the slot's copies of words 1 to 6. -/
inductive Instr where
  /-- Power-on detection: the strap code and the levels that the plant lines and PIN3 have then (R183, R155). -/
  | powerOn (msz : BitVec 2) (din : BitVec 16) (pin3 : Bool)
  /-- RST# asserted: the strap code as sampled (R183). -/
  | pinReset (msz : BitVec 2)
  | softReset (slot : Fin 16) (tag : BitVec 8)
  | loadAnchorEnd
  | loadSettingsEnd
  | loadCountersEnd
  | logScanEnd
  /-- `sinceLossMs`: the time in ms from the loss of a dip still running to RUN (R93). -/
  | settleEnd (sinceLossMs : Nat)
  /-- The sixteen raw 12-bit codes of the scan (R144). -/
  | scanCompletion (raw : Vector (BitVec 12) 16)
  | stringSupervisorEvaluation
  | settleSpanComplete (k : Fin 4)
  | boostMaximumReached (k : Fin 4)
  | baselineMinute (k : Fin 4)
  | temperatureMinute (k : Fin 4)
  | runawaySpanExpiry (k : Fin 4)
  | runawayReturnSpanExpiry (k : Fin 4)
  | overtempSpanExpiry (k : Fin 4)
  | startVoltageSpanExpiry
  | reconnectTimeout
  | inrushTimerExpiry
  | busRegulatorEvaluation
  | equalizeScheduleCheck
  | equalizeDurationReached
  | testDurationReached
  | rosterEvaluation
  | moduleStartExpiry (m : Fin 8)
  | stopUnconfirmed (m : Fin 8)
  | watchSpanExpiry (m : Fin 8)
  | retryHoldEnd (m : Fin 8)
  | shedSpanExpiry
  | sourceControllerEvaluation
  | outageDelayReached
  | retransferSpanReached
  | mainsSenseLoss
  /-- `ms`: the time from the falling edge (or from the restart) to the rising edge (R154). -/
  | mainsSenseReturn (ms : Nat)
  | pm3LongResult
  | dipToleranceExpiry
  /-- The edges of the second just ended and the span in µs from the first to the last (R152). -/
  | pm2FrequencyResult (edges spanUs : Nat)
  | mainsQualified
  | qualitySpanReached
  | confirmTimerExpiry
  | mismatchWatchExpiry
  | deadTimeExpiry
  | mainsReleaseExpiry
  | generatorEvaluation
  | requestEndTime
  | runLimit
  | exerciseSlotReached
  | prestartExpiry
  | pm0FrequencyResult (edges spanUs : Nat)
  | crankTimerExpiry
  | crankRestExpiry
  | barEnd
  | warmupExpiry
  | oilArmingExpiry
  | loadCheckStart
  | derate
  | underspeedSpanReached
  | shutdownRundownExpiry
  | cooldownExpiry
  | stopTimerExpiry
  | tallyQuantum
  | alarmEvaluation
  | raiseTimerExpiry (p : Fin 32)
  | clearTimerExpiry (p : Fin 32)
  | dinLineChange (n : Fin 16) (high : Bool)
  | debounceExpiry (n : Fin 16)
  | inputConditionerEvaluation
  | edgeAlarmClear (n : Fin 16)
  | commandInterpreterEvaluation
  | checkpointInterval
  | freezeControlWrite (data : Word)
  | freezeExpiry
  | hostWrite (addr : BitVec 19) (data : Word)
  /-- `offset`: the PR offset of the settings word. -/
  | guardedWrite (offset : BitVec 13) (data : Word)
  /-- `word`: the anchor word, 0 to 15. -/
  | descriptorWrite (word : Fin 16) (data : Word)
  | ownCycleBegin
  /-- What the word reads back as, and what the spare reads back as if one is then written (R165, R166). -/
  | ownWordComplete (readBack spareReadBack : Word)
  | ownRequestComplete
  | silenceMonitorEvaluation
  | silenceLimitReached
  | graceExpiry
  | unknownCommand (slot : Fin 16) (opcode tag : BitVec 8)
  | setClock (slot : Fin 16) (tag : BitVec 8)
  | ackPoint (slot : Fin 16) (tag : BitVec 8)
  | ackAll (slot : Fin 16) (tag : BitVec 8)
  | genRun (slot : Fin 16) (tag : BitVec 8)
  | genStop (slot : Fin 16) (tag : BitVec 8)
  | genReset (slot : Fin 16) (tag : BitVec 8)
  | genService (slot : Fin 16) (tag : BitVec 8)
  | transferRetry (slot : Fin 16) (tag : BitVec 8)
  | moduleService (slot : Fin 16) (tag : BitVec 8)
  | moduleReturn (slot : Fin 16) (tag : BitVec 8)
  | rotateNow (slot : Fin 16) (tag : BitVec 8)
  | stringIsolate (slot : Fin 16) (tag : BitVec 8)
  | stringReconnect (slot : Fin 16) (tag : BitVec 8)
  | equalizeStart (slot : Fin 16) (tag : BitVec 8)
  | equalizeCancel (slot : Fin 16) (tag : BitVec 8)
  | testStart (slot : Fin 16) (tag : BitVec 8)
  | testAbort (slot : Fin 16) (tag : BitVec 8)
  | loadPreset (slot : Fin 16) (tag : BitVec 8)
  | settingsLock (slot : Fin 16) (tag : BitVec 8)
  | resume (slot : Fin 16) (tag : BitVec 8)
  | logNote (slot : Fin 16) (tag : BitVec 8)
  | siteClockSecond
  | pin1RisingEdge
  deriving DecidableEq, Repr

end Sys2Proof
end

