-- ==== Sys2Proof/Decode.lean ====
section
/-! DEFINITION. Words that spell commands: none. No row of spec/opcode_table.json gives bits; a command reaches the block as a host
write, a line or an event (assumption log 21). -/

namespace Sys2Proof

/-- The command that a word of the table's bits spells: the table gives no row bits, so no word spells one. -/
def decodeTableWord (_nbits _w : Nat) : Option Instr := none

end Sys2Proof
end

