-- ==== Sys2Proof/Config.lean ====
section
/-! DEFINITION. What the manual leaves to the device: the free values, constants with no body. -/

namespace Sys2Proof.Config

/-- What a faulty memory word makes of a write that is not read back (R159: "keeps what the memory made of the write"): a free
value of the write's number, the address and the data. DESIGN CHOICE (log 12): the spec states no result. Safe. -/
opaque memoryMakes : Nat → Nat → Word → Word

/-- The frequency result, before its clamp, of two or more edges whose span is 0 µs (R152 divides by that span): a free value of
the number of edges. DESIGN CHOICE (log 13): the spec states no result. Safe. -/
opaque frequencyOfZeroSpan : Nat → Nat

/-- The defaults of the per-string settings, which R1 does not state (it gives their ranges alone): a free value of the word's number
0 to 11 in the group, brought into the word's range where it is used. DESIGN CHOICE (log 14): the spec states no default. Safe. -/
opaque stringDefault : Nat → Nat

end Sys2Proof.Config
end

