-- ==== Sys2Proof/Machine/Operands.lean ====
section
/-! DEFINITION. The operands that the host writes: the area map, the settings words with their ranges, defaults and orderings, and the
named settings read from a copy of the settings areas (08 §8.1 and R161, with the settings tables of chapters 1 to 7 and 10). -/

namespace Sys2Proof.Machine

/-! ## Area map (08 §8.1) -/

/-- The memory size of an MSZ code: code 3 is taken as 131,072 words. -/
def memSize (msz : BitVec 2) : Nat :=
  if msz = 1 then 262144 else if msz = 2 then 524288 else 131072

/-- The areas of the Plant Region, by offset. -/
inductive PrArea
  | live | command (slot word : Nat) | guarded | counter | ordinary | logRing
  deriving DecidableEq, Repr

/-- The area of a PR offset (area map). -/
def prArea (o : Nat) : PrArea :=
  if o < 0x100 then .live
  else if o < 0x180 then .command ((o - 0x100) / 8) ((o - 0x100) % 8)
  else if o < 0x400 then .guarded
  else if o < 0x600 then .counter
  else if o < 0x1000 then .ordinary
  else .logRing

/-- The areas of the address space, by word address. -/
inductive Area
  | pr (offset : Nat) | descriptor (word : Nat) | remapTable | anchorRest | spare | other
  deriving DecidableEq, Repr

/-- The area of a word address, given the memory size and the PR base address (R157: an address at or above the memory size lies
outside every area). -/
def areaOf (size base a : Nat) : Area :=
  if base ≤ a ∧ a < base + 8192 then .pr (a - base)
  else if size ≤ a then .other
  else if size - 16 ≤ a then .anchorRest
  else if size - 48 ≤ a then .remapTable
  else if size - 64 ≤ a then .descriptor (a - (size - 64))
  else if size - 80 ≤ a then .spare
  else .other

/-! ## Settings words -/

/-- The range and default of a settings word; `signed` words are read in two's complement (R161). -/
structure WordSpec where
  signed : Bool
  lo : Int
  hi : Int
  dflt : Int
  deriving DecidableEq, Repr

/-- A word stored as written. -/
def WordSpec.free : WordSpec := ⟨false, 0, 65535, 0⟩

/-- The three presets of a profile (01 §1.9). -/
inductive Chemistry | vrla | flooded | nicad
  deriving DecidableEq, Repr

/-- Words 0 to 16 of a preset (01 §1.9, the columns VRLA, FLOODED and NICAD). -/
def Chemistry.words : Chemistry → List Int
  | .vrla => [54000, 56400, 56400, 0, -72, 10, 1, 900, 43200, 105, 350, 500, 960, 50, 30000, 0, 0]
  | .flooded => [53520, 55920, 57600, 1, -72, 15, 1, 900, 43200, 108, 350, 550, 960, 50, 30000, 90, 28800]
  | .nicad => [53960, 57000, 57000, 1, -76, 20, 2, 1800, 28800, 120, 400, 550, 760, 50, 30000, 60, 21600]

/-- Ranges of profile words 0 to 16 (01 §1.9). -/
def profileRanges : List (Bool × Int × Int) :=
  [(false, 40000, 60000), (false, 40000, 60000), (false, 40000, 60000), (false, 0, 1), (true, -200, 0), (false, 1, 50),
   (false, 1, 10), (false, 60, 7200), (false, 0, 65535), (false, 100, 130), (false, 0, 850), (false, 0, 850),
   (false, 0, 5000), (false, 10, 200), (false, 0, 50000), (false, 0, 365), (false, 0, 57600)]

/-- Profile word w of a profile: words 17 to 31 are stored as written. -/
def profileSpec (w : Nat) : WordSpec :=
  match profileRanges[w]? with
  | some (sg, lo, hi) => ⟨sg, lo, hi, (Chemistry.words .vrla).getD w 0⟩
  | none => .free

/-- The word of a per-string setting, 0 profile index, 1 capacity, 2 temperature source (R1). R1 gives no defaults: a free value
within the range (log 14). -/
def stringWordSpec (i : Nat) : WordSpec :=
  if i % 3 = 0 then ⟨false, 0, 3, (Config.stringDefault i % 4 : Nat)⟩
  else if i % 3 = 1 then ⟨false, 200, 50000, (200 + Config.stringDefault i % 49801 : Nat)⟩
  else ⟨false, 0, 2, (Config.stringDefault i % 3 : Nat)⟩

/-- Plant-wide string settings, from PR 0x020C (01 §1.1). -/
def stringPlantSpecs : List WordSpec :=
  [⟨false, 40000, 60000, 54000⟩, ⟨false, 100, 5000, 500⟩, ⟨false, 0, 100, 40⟩, ⟨false, 0, 100, 50⟩, ⟨false, 0, 100, 20⟩,
   ⟨false, 0, 100, 95⟩, ⟨false, 40000, 56000, 46500⟩]

/-- Bus Regulator settings, from PR 0x0214 (02 §2.1). -/
def busSpecs : List WordSpec :=
  [⟨false, 40000, 60000, 43000⟩, ⟨false, 40000, 60000, 57600⟩, ⟨false, 1, 1000, 50⟩, ⟨false, 42000, 56000, 46000⟩]

/-- Rectifier Roster settings after the eight ratings, from PR 0x0220 (03 §3.1). The two words of the rotation period are judged
together (`periodOk`), so each alone takes any value here; their defaults are the words of 604,800. -/
def rosterSpecs : List WordSpec :=
  [⟨false, 0, 2, 1⟩, ⟨false, 50, 100, 80⟩, ⟨false, 0, 1439, 600⟩, ⟨false, 0, 1439, 960⟩, ⟨false, 0, 65535, 9⟩,
   ⟨false, 0, 65535, 14976⟩, ⟨false, 0, 10000, 240⟩]

/-- Source Controller settings, from PR 0x0228 (04 §4.1). -/
def sourceSpecs : List WordSpec :=
  [⟨false, 100, 10000, 2000⟩, ⟨false, 10, 600, 60⟩, ⟨false, 1, 60, 5⟩, ⟨false, 4000, 6000, 4700⟩, ⟨false, 4000, 6000, 5300⟩,
   ⟨false, 5000, 7000, 5700⟩, ⟨false, 5000, 7000, 6300⟩, ⟨false, 0, 65535, 1800⟩, ⟨false, 0, 3600, 300⟩]

/-- Generator Controller settings, from PR 0x0232 (05 §5.1). -/
def genSpecs : List WordSpec :=
  [⟨false, 100, 16000, 1500⟩, ⟨false, 1, 5, 3⟩, ⟨false, 500, 3000, 1500⟩, ⟨false, 4000, 8000, 5700⟩, ⟨false, 3000, 7000, 4500⟩,
   ⟨false, 3000, 7000, 4800⟩, ⟨false, 0, 7, 3⟩, ⟨false, 0, 1439, 660⟩, ⟨false, 300, 7200, 900⟩, ⟨false, 0, 1, 0⟩]

/-- Default gain and offset of a channel (07 §7.1). -/
def channelDefaults (c : Nat) : Int × Int :=
  if c = 0 then (65535, 0) else if c = 1 then (10000, 0) else if c < 6 then (65535, 0)
  else if c < 10 then (20000, -10000) else if c < 15 then (1250, -400) else (1000, 0)

/-- Plant settings word i, counted from PR 0x0200 (08 §8.1, plant settings map). -/
def plantSpec (i : Nat) : WordSpec :=
  if i < 0x0C then stringWordSpec i
  else if i < 0x13 then stringPlantSpecs.getD (i - 0x0C) .free
  else if i < 0x14 then .free
  else if i < 0x18 then busSpecs.getD (i - 0x14) .free
  else if i < 0x20 then ⟨false, 100, 2000, 500⟩
  else if i < 0x27 then rosterSpecs.getD (i - 0x20) .free
  else if i < 0x28 then .free
  else if i < 0x31 then sourceSpecs.getD (i - 0x28) .free
  else if i < 0x32 then .free
  else if i < 0x3C then genSpecs.getD (i - 0x32) .free
  else if i = 0x40 then ⟨false, 0, 8640, 60⟩
  else if i = 0x41 then ⟨false, 1, 10000, 100⟩
  else if i < 0x50 then .free
  else if i < 0x70 then
    if i % 2 = 0 then ⟨false, 1, 65535, (channelDefaults ((i - 0x50) / 2)).1⟩
    else ⟨true, -32768, 32767, (channelDefaults ((i - 0x50) / 2)).2⟩
  else if i < 0x80 then ⟨false, 0, 2000, 50⟩
  else if i < 0x90 then ⟨false, 0, 2, if i < 0x8D then 2 else 1⟩
  else .free

/-- Point IDs of the catalogue (06 §6.2). -/
abbrev Pt.mainsAbsent : Nat := 0
abbrev Pt.mainsQuality : Nat := 1
abbrev Pt.transferFault : Nat := 2
abbrev Pt.genFailStart : Nat := 3
abbrev Pt.genShutdown : Nat := 4
abbrev Pt.genFailStop : Nat := 5
abbrev Pt.genOverload : Nat := 6
abbrev Pt.fuelLow : Nat := 7
abbrev Pt.fuelCritical : Nat := 8
abbrev Pt.fuelFlowIdle : Nat := 9
abbrev Pt.moduleFail : Nat := 10
abbrev Pt.moduleBarred : Nat := 11
abbrev Pt.capacityShort : Nat := 12
abbrev Pt.busHigh : Nat := 13
abbrev Pt.busLow : Nat := 14
abbrev Pt.reconnectFailed : Nat := 15
abbrev Pt.stringFault : Nat := 16
abbrev Pt.runawaySuspect : Nat := 17
abbrev Pt.battOvertemp : Nat := 18
abbrev Pt.chargeIncomplete : Nat := 19
abbrev Pt.testFailed : Nat := 20
abbrev Pt.stringIsolated : Nat := 21
abbrev Pt.sensorFail : Nat := 22
abbrev Pt.hostSilent : Nat := 23
abbrev Pt.memoryWorn : Nat := 24
abbrev Pt.settingsDefaulted : Nat := 25
abbrev Pt.doorOpen : Nat := 26
abbrev Pt.surgeArrester : Nat := 27
abbrev Pt.userInput : Nat := 28
abbrev Pt.roomTemp : Nat := 29
abbrev Pt.lowSoc : Nat := 30
abbrev Pt.countersLost : Nat := 31

/-- Defaults of words 0 to 3 of each point: class, latching, raise delay, clear delay (06 §6.1). -/
def pointDefaults : List (List Int) :=
  [[2, 0, 60, 0], [1, 0, 10, 60], [3, 1, 0, 0], [3, 1, 0, 0], [3, 1, 0, 0], [3, 1, 0, 0], [2, 0, 0, 0], [2, 0, 60, 300]] ++
  [[3, 0, 60, 300], [2, 1, 0, 0], [2, 0, 0, 0], [2, 1, 0, 0], [1, 0, 300, 60], [3, 0, 10, 10], [3, 0, 30, 10], [2, 1, 0, 0]] ++
  [[3, 1, 0, 0], [2, 0, 0, 0], [2, 0, 60, 300], [2, 0, 0, 0], [2, 1, 0, 0], [2, 0, 0, 0], [2, 1, 0, 0], [2, 0, 0, 0]] ++
  [[2, 1, 0, 0], [2, 1, 0, 0], [1, 0, 0, 0], [2, 1, 0, 0], [2, 0, 0, 0], [2, 0, 300, 300], [2, 0, 0, 60], [2, 1, 0, 0]]

/-- A threshold point: signed limits, limit range, hysteresis range, default sense, low, high and hysteresis (06 §6.3). -/
structure ThresholdSpec where
  signed : Bool
  lo : Int
  hi : Int
  hyst : Int
  sense : Int
  dLow : Int
  dHigh : Int
  dHyst : Int
  deriving DecidableEq, Repr

/-- The seven threshold points (06 §6.3). -/
def thresholdSpec (p : Nat) : Option ThresholdSpec :=
  if p = Pt.fuelLow then some ⟨false, 0, 1000, 1000, 1, 250, 1000, 50⟩
  else if p = Pt.fuelCritical then some ⟨false, 0, 1000, 1000, 1, 100, 1000, 50⟩
  else if p = Pt.busHigh then some ⟨false, 0, 65535, 10000, 0, 0, 58000, 200⟩
  else if p = Pt.busLow then some ⟨false, 0, 65535, 10000, 1, 44000, 65535, 500⟩
  else if p = Pt.battOvertemp then some ⟨true, -400, 850, 1250, 0, -400, 350, 20⟩
  else if p = Pt.roomTemp then some ⟨true, -400, 850, 1250, 2, 0, 400, 20⟩
  else if p = Pt.lowSoc then some ⟨false, 0, 100, 100, 1, 30, 100, 5⟩
  else none

/-- Word w of point p (06 §6.1, §6.3). -/
def alarmSpec (p w : Nat) : WordSpec :=
  let d := (pointDefaults.getD p []).getD w 0
  if w = 0 then ⟨false, 0, 3, d⟩
  else if w = 1 then ⟨false, 0, 1, d⟩
  else if w < 4 then ⟨false, 0, 3600, d⟩
  else match thresholdSpec p with
    | none => .free
    | some t =>
      if w = 4 then ⟨t.signed, t.lo, t.hi, t.dLow⟩
      else if w = 5 then ⟨t.signed, t.lo, t.hi, t.dHigh⟩
      else if w = 6 then ⟨false, 0, 3, t.sense⟩
      else ⟨false, 0, t.hyst, t.dHyst⟩

/-- The settings word at PR offset o, 0x0180 to 0x03FF. -/
def wordSpec (o : Nat) : WordSpec :=
  if o < 0x200 then profileSpec ((o - 0x180) % 32)
  else if o < 0x300 then plantSpec (o - 0x200)
  else alarmSpec ((o - 0x300) / 8) ((o - 0x300) % 8)

/-- The default of a settings word. -/
def defaultWord (o : Nat) : Word := wordOfInt (wordSpec o).dflt

/-- The defaults of the 640 settings words. -/
def defaultSettings : List Word := (List.range 640).map fun i => defaultWord (i + 0x180)

/-- The copies before LOAD_SETTINGS has loaded them: the defaults, and for the words without one (R1) the lowest of their range. DESIGN
CHOICE (log 3): the spec gives no value for a copy before the load. -/
def resetSettings : List Word :=
  (List.range 640).map fun i => if 0x80 ≤ i ∧ i < 0x8C then wordOfInt (wordSpec (i + 0x180)).lo else defaultWord (i + 0x180)

/-! ## Reading a copy -/

/-- The word of PR offset o in a copy of the settings areas. -/
def wordIn (ss : List Word) (o : Nat) : Word := ss.getD (o - 0x180) 0

/-- A settings word as a number. -/
def natIn (ss : List Word) (o : Nat) : Nat := (wordIn ss o).toNat

/-- A settings word in two's complement. -/
def intIn (ss : List Word) (o : Nat) : Int := (wordIn ss o).toInt

/-- Copy with the word at offset o replaced. -/
def setWord (ss : List Word) (o : Nat) (v : Word) : List Word := ss.set (o - 0x180) v

/-- The value of a word under its spec's signedness. -/
def WordSpec.value (w : WordSpec) (v : Word) : Int := if w.signed then v.toInt else v.toNat

/-- The rotation period, PR 0x0224 and 0x0225, lies in 86,400 to 2,592,000 (03 §3.1). -/
def periodOk (hi lo : Word) : Bool := decide (86400 ≤ pairNat hi lo ∧ pairNat hi lo ≤ 2592000)

/-- R161, RANGE: the word v at offset o lies in its range, the copy ss holding the other words in force. The silence limit takes 0 or
6 to 8,640 (10 §10.4); a word of the rotation period is judged with the other word in force (log 15). -/
def inRange (ss : List Word) (o : Nat) (v : Word) : Bool :=
  let w := wordSpec o
  if o = 0x240 then decide (v.toNat = 0 ∨ (6 ≤ v.toNat ∧ v.toNat ≤ 8640))
  else if o = 0x224 then periodOk v (wordIn ss 0x225)
  else if o = 0x225 then periodOk (wordIn ss 0x224) v
  else decide (w.lo ≤ w.value v ∧ w.value v ≤ w.hi)

/-- The orderings of R161. -/
inductive Order | profile (p : Nat) | busWindow | window50 | window60 | point (p : Nat)
  deriving DecidableEq, Repr

/-- Every ordering of R161. -/
def allOrders : List Order :=
  (List.range 4).map .profile ++ [.busWindow, .window50, .window60] ++
    (List.range 32).filterMap fun p => (thresholdSpec p).map fun _ => .point p

/-- The words of an ordering. -/
def Order.words : Order → List Nat
  | .profile p => [0x180 + 32 * p, 0x181 + 32 * p, 0x182 + 32 * p]
  | .busWindow => [0x214, 0x215]
  | .window50 => [0x22B, 0x22C]
  | .window60 => [0x22D, 0x22E]
  | .point p => [0x304 + 8 * p, 0x305 + 8 * p]

/-- Whether a copy keeps an ordering (R161): float < boost ≤ equalize; low < high, signed for temperature points. -/
def Order.holds (ss : List Word) : Order → Bool
  | .profile p =>
    decide (natIn ss (0x180 + 32 * p) < natIn ss (0x181 + 32 * p) ∧ natIn ss (0x181 + 32 * p) ≤ natIn ss (0x182 + 32 * p))
  | .busWindow => decide (natIn ss 0x214 < natIn ss 0x215)
  | .window50 => decide (natIn ss 0x22B < natIn ss 0x22C)
  | .window60 => decide (natIn ss 0x22D < natIn ss 0x22E)
  | .point p =>
    let v := fun o => (wordSpec o).value (wordIn ss o)
    decide (v (0x304 + 8 * p) < v (0x305 + 8 * p))

/-- R161, ORDER: the copy with v at offset o keeps every ordering the word takes part in. -/
def keepsOrder (ss : List Word) (o : Nat) (v : Word) : Bool :=
  (allOrders.filter fun r => r.words.contains o).all fun r => r.holds (setWord ss o v)

/-! ## Named settings -/

section Named
variable (ss : List Word)

/-- Profile word w of profile p (01 §1.9). -/
def profWord (p w : Nat) : Nat := natIn ss (0x180 + 32 * p + w)
/-- Temperature compensation in mV/°C, signed (01 §1.9, word 4). -/
def profComp (p : Nat) : Int := intIn ss (0x184 + 32 * p)
def strProfile (k : Nat) : Nat := natIn ss (0x200 + 3 * k)
def strCapacity (k : Nat) : Nat := natIn ss (0x201 + 3 * k)
def strTempSource (k : Nat) : Nat := natIn ss (0x202 + 3 * k)
def noBattery : Nat := natIn ss 0x20C
def matchWindow : Nat := natIn ss 0x20D
def startSoc : Nat := natIn ss 0x20E
def autoStartSoc : Nat := natIn ss 0x20F
def criticalSoc : Nat := natIn ss 0x210
def stopSoc : Nat := natIn ss 0x211
def startVoltage : Nat := natIn ss 0x212
def busMin : Nat := natIn ss 0x214
def busMax : Nat := natIn ss 0x215
def rampRate : Nat := natIn ss 0x216
def testLevel : Nat := natIn ss 0x217
def rating (m : Nat) : Nat := natIn ss (0x218 + m)
def reserve : Nat := natIn ss 0x220
def utilisation : Nat := natIn ss 0x221
def windowStart : Nat := natIn ss 0x222
def windowEnd : Nat := natIn ss 0x223
def rotationPeriod : Nat := pairNat (wordIn ss 0x224) (wordIn ss 0x225)
def rotationMargin : Nat := natIn ss 0x226
def dipTolerance : Nat := natIn ss 0x228
def qualifyTime : Nat := natIn ss 0x229
def qualityTime : Nat := natIn ss 0x22A
/-- The window's limits for the nominal frequency in force (04 §4.1). -/
def freqLow (n60 : Bool) : Nat := natIn ss (if n60 then 0x22D else 0x22B)
def freqHigh (n60 : Bool) : Nat := natIn ss (if n60 then 0x22E else 0x22C)
def outageDelay : Nat := natIn ss 0x22F
def retransferDelay : Nat := natIn ss 0x230
def genCapacity : Nat := natIn ss 0x232
def startAttempts : Nat := natIn ss 0x233
def crankCut : Nat := natIn ss 0x234
def overspeed : Nat := natIn ss 0x235
def underspeed : Nat := natIn ss 0x236
def droopLimit : Nat := natIn ss 0x237
def exerciseDay : Nat := natIn ss 0x238
def exerciseTime : Nat := natIn ss 0x239
def exerciseDuration : Nat := natIn ss 0x23A
def exerciseLoaded : Bool := natIn ss 0x23B == 1
def silenceLimit : Nat := natIn ss 0x240
def tallyQuantumOf : Nat := natIn ss 0x241
def gainOf (c : Nat) : Nat := natIn ss (0x250 + 2 * c)
def offsetOf (c : Nat) : Int := intIn ss (0x251 + 2 * c)
def debounceOf (n : Nat) : Nat := natIn ss (0x270 + n)
def edgeModeOf (n : Nat) : Nat := natIn ss (0x280 + n)
def pointWord (p w : Nat) : Nat := natIn ss (0x300 + 8 * p + w)
/-- A limit or the hysteresis of a threshold point, signed where its table says so (06 §6.3). -/
def pointLimit (p w : Nat) : Int := (wordSpec (0x300 + 8 * p + w)).value (wordIn ss (0x300 + 8 * p + w))

end Named

end Sys2Proof.Machine
end

