-- ==== Sys2Proof/Machine/State.lean ====
section
/-! DEFINITION. The state: every piece of state the spec gives the block, as plain data, block by block (INVENTORY.md ## State lists
it with its rules), the outcomes' reasons, and the machine right after reset. -/

namespace Sys2Proof.Machine

/-! ## Lines -/

/-- A drive line (00, output table): unpowered is the fail-safe state. -/
inductive Drive | unpowered | released | asserted
  deriving DecidableEq, Repr

/-- A relay output: energized means "no alarm" (00, output table; R137). -/
inductive Relay | unpowered | energized | deenergized
  deriving DecidableEq, Repr

/-! ## Site clock (R174) -/

inductive ClockState | unset | estimated | set
  deriving DecidableEq, Repr

/-- The site clock, and the part's own seconds, which SET_CLOCK does not move (R174). -/
structure Clock where
  value : Nat
  state : ClockState
  uptime : Nat
  deriving DecidableEq, Repr

/-! ## Event log (09 §9.4) -/

/-- The kinds of log event, in the order of their kind codes 1 to 33. -/
inductive LogKind
  | reset | startupDone | settingsDefaulted | silenceState | writeRefused | remap | command | logNote | clockSet | countersRestored
  | phaseChange | stringFault | reconnectResult | equalizeEnd | testEnd | moduleState | strike | stopUnconfirmed | rotation
  | mainsDip | mainsOutage | mainsReturn | transfer | genState | startAttempt | runRequest | runLimit | derate | fuelQuantumIdle
  | exerciseSkipped | pointChange | channelState | inputEdge
  deriving DecidableEq, Repr

/-- One event of the pending log queue (R177). -/
structure LogEvent where
  kind : LogKind
  subject : Word
  a : Word
  b : Word
  time : Nat
  gap : Bool
  deriving DecidableEq, Repr

/-- The pending log queue, the gap flag, and the ring's head and count once the log scan has set them (R177, R178). -/
structure Log where
  queue : List LogEvent
  gap : Bool
  head : Nat
  count : Nat
  ready : Bool
  deriving DecidableEq, Repr

/-! ## Memory Path (08) -/

/-- An entry of the remap table (08 §8.1). -/
structure RemapEntry where
  addr : Nat
  spare : Nat
  deriving DecidableEq, Repr

/-- A request of the own-cycle queue (R164). -/
inductive OwnRequest
  /-- Reads of `count` words from address `base`. -/
  | startupLoad (base count : Nat)
  /-- The entry write of one event under its sequence number. -/
  | logEntry (seq : Nat) (event : LogEvent)
  /-- The sixteen words of Counter Store record `record` as they stood at the request. -/
  | checkpoint (record : Nat) (words : List Word)
  | profileWrite (profile : Nat)
  /-- The two anchor words of remap entry `entry`. -/
  | remapWrite (entry : Nat) (w0 w1 : Word)
  deriving DecidableEq, Repr

/-- The request the engine has begun: `next` is the number of its own words done, `word` whether an own word is in progress. -/
structure OwnBusy where
  request : OwnRequest
  next : Nat
  word : Bool
  deriving DecidableEq, Repr

/-- A host write as it waits on HWAIT: by its word address, by its PR offset, or by its anchor word. -/
inductive HostAccess
  | addr (a : BitVec 19) (data : Word)
  | pr (offset : Nat) (data : Word)
  | anchor (word : Nat) (data : Word)
  deriving DecidableEq, Repr

/-- The refusal record (R162). -/
structure RefusalRecord where
  addr : Nat
  data : Word
  reason : Nat
  time : Nat
  count : Nat
  deriving DecidableEq, Repr

/-- The Memory Path. `cells` is the FRAM in canonical form; `faulty` lists the addresses whose own write did not read back
(the memory device's state); `writes` counts writes, for the free value of a faulty word. -/
structure Path where
  msz : BitVec 2
  cells : List (Nat × Word)
  faulty : List Nat
  writes : Nat
  remap : List (Option RemapEntry)
  spareFailed : List Nat
  queue : List OwnRequest
  busy : Option OwnBusy
  held : List HostAccess
  refusal : RefusalRecord
  deriving DecidableEq, Repr

/-! ## Command Interpreter (09) -/

inductive ResultCode | none | done | started | refusedState | refusedBusy | refusedRange | refusedLocked | refusedUnknown | refusedAutonomy
  deriving DecidableEq, Repr

/-- A slot's copies of words 0 to 6 and its result record (R170). -/
structure CommandSlot where
  words : List Word
  code : ResultCode
  detail : Nat
  deriving DecidableEq, Repr

inductive FreezeState | released | frozen | expired
  deriving DecidableEq, Repr

/-- Page numbers of the paged live groups (R172). -/
structure Pages where
  summary : Nat
  generator : Nat
  mains : Nat
  alarm : Nat
  deriving DecidableEq, Repr

structure Commands where
  slots : List CommandSlot
  freeze : FreezeState
  snapshot : List Word
  pages : Pages
  interval : Nat
  deriving DecidableEq, Repr

/-! ## Start-up Controller (10) -/

inductive StartState | loadAnchor | loadSettings | loadCounters | logScan | settle | run | commissioning
  deriving DecidableEq, Repr

inductive ResetKind | powerOn | pin | soft
  deriving DecidableEq, Repr

/-- The descriptor in force (08 §8.1). -/
structure Descriptor where
  baseUnit : Nat
  strings : Nat
  mask : BitVec 8
  generator : Bool
  nominal60 : Bool
  deriving DecidableEq, Repr

/-- The reset record (`kind`, the keep options given, reset time, outcome, defaulted words) and start-up's own state; `keepTrain` and
`keepStrings` say which blocks the reset did keep (R183: in COMMISSIONING the options keep nothing). -/
structure Startup where
  state : StartState
  kind : ResetKind
  optTrain : Bool
  optStrings : Bool
  keepTrain : Bool
  keepStrings : Bool
  resetTime : Nat
  outcome : Nat
  defaulted : Nat
  firstDefaulted : Nat
  forCommissioning : Bool
  desc : Option Descriptor
  loads : List OwnRequest
  settleScans : Nat
  late : List LogEvent
  lock : Bool
  deriving DecidableEq, Repr

/-! ## Silence Monitor (10 §10.4) -/

inductive SilenceState | supervised | grace | autonomous
  deriving DecidableEq, Repr

structure Silence where
  state : SilenceState
  count : Nat
  deriving DecidableEq, Repr

/-! ## Measurement (07) -/

/-- One analog channel of the scanner (R144 to R146). -/
structure Channel where
  samples : List Int
  sample : Option Int
  mean : Int
  invalid : Nat
  valid : Nat
  failed : Bool
  deriving DecidableEq, Repr

structure Scanner where
  chans : List Channel
  lastFailed : Option Nat
  on : Bool
  deriving DecidableEq, Repr

/-- The Input Conditioner (R148 to R151). Moments are the part's seconds. -/
structure Inputs where
  lines : List Bool
  levels : List Bool
  timers : List (Option Nat)
  lastEdge : List (Option Nat)
  lastNamed : List (Option Nat)
  shown : List Bool
  deriving DecidableEq, Repr

/-- The pulse meters (R152 to R156). `width` is in ms, or in s once `long`. -/
structure Meters where
  tally : Nat
  counting : Bool
  sense : Bool
  long : Bool
  width : Nat
  pm0Seen : Bool
  pm2Last : Option Nat
  deriving DecidableEq, Repr

/-! ## String Supervisor (01) -/

/-- A string's phase; `absent` is "no phase" of a record not yet connected at RUN (R31). -/
inductive Phase | absent | isolated | reconnecting | discharging | charging | topping | full | fault
  deriving DecidableEq, Repr

inductive ReconnectStage | none | matching | checking
  deriving DecidableEq, Repr

inductive ReconnectOutcome | none | closed | noString | timeout | inrush | abandonedCmd | abandonedAutonomy | abandonedReset
  deriving DecidableEq, Repr

/-- The record of a configured string (01 §1.2); `profile` is the profile index in force, taken from the settings at an evaluation (R1). -/
structure StringRec where
  profile : Nat
  phase : Phase
  stage : ReconnectStage
  priorFault : Bool
  reconnectStart : Nat
  inrushTimer : Bool
  deficit : Nat
  dischargeResidue : Nat
  chargeResidue : Nat
  throughputResidue : Nat
  temp : Int
  tempValid : Bool
  tempFromRoom : Bool
  tempChan : Option Nat
  settleSpan : Nat
  boostTimer : Nat
  incomplete : Bool
  chargeRequest : Nat
  baseline : Int
  baselineList : List Int
  baselineMinute : Nat
  baselineSum : Int
  baselineSeen : Nat
  tempHistory : List Int
  tempMinute : Nat
  runaway : Nat
  stage1Level : Int
  runawaySpan : Nat
  returnSpan : Nat
  overtempSpan : Nat
  strikes : Nat
  outcome : ReconnectOutcome
  lastFull : Nat
  lastEqualize : Nat
  throughputIn : Nat
  throughputOut : Nat
  unknownCharge : Bool
  deriving DecidableEq, Repr

/-- A connected string as handed on under R12. -/
structure HandedString where
  index : Nat
  phase : Phase
  profile : Nat
  deriving DecidableEq, Repr

/-- The values handed on under R12; `none` is invalid. -/
structure Handed where
  equalizeLevel : Option Int
  boostLevel : Option Int
  lowSoc : Option Nat
  warmest : Option Int
  connected : List HandedString
  deriving DecidableEq, Repr

structure Strings where
  recs : List (Option StringRec)
  iso : List Drive
  boost : Bool
  handed : Handed
  depthHeld : Bool
  depthSpent : Bool
  busSpan : Nat
  deriving DecidableEq, Repr

/-! ## Bus Regulator (02) -/

/-- The six slots of the claim table, in its order (02 §2.2). -/
inductive Slot | strings | equalize | generator | matching | thermal | test
  deriving DecidableEq, Repr

structure Claim where
  level : Int
  time : Nat
  deriving DecidableEq, Repr

/-- The claim table; a slot is empty or holds one claim (R32). -/
structure Claims where
  strings : Option Claim
  equalize : Option Claim
  generator : Option Claim
  matching : Option Claim
  thermal : Option Claim
  test : Option Claim
  deriving DecidableEq, Repr

inductive Governing | slot (s : Slot) | window
  deriving DecidableEq, Repr

inductive EqualizeOutcome | none | complete | cancelledCmd | cancelledMains | cancelledTemp | cancelledAutonomy | cancelledReset
  deriving DecidableEq, Repr

inductive ScheduleState | notDue | dueWaiting | dueStarted
  deriving DecidableEq, Repr

structure EqualizeRec where
  running : Bool
  scheduled : Bool
  startTime : Nat
  duration : Nat
  elapsed : Nat
  level : Int
  schedule : ScheduleState
  firstFailed : Nat
  nextCheck : Nat
  outcome : EqualizeOutcome
  endTime : Nat
  deriving DecidableEq, Repr

inductive TestOutcome | passed | failedEarly | abortedMains | abortedDepth | abortedAlarm | abortedCmd | abortedAutonomy | abortedReset
  deriving DecidableEq, Repr

inductive TestState | none | running | ended (o : TestOutcome)
  deriving DecidableEq, Repr

structure TestRec where
  state : TestState
  startTime : Nat
  endTime : Nat
  duration : Nat
  endVoltage : Int
  level : Int
  elapsed : Nat
  discharged : List Nat
  startThroughput : List (Option Nat)
  minBus : Int
  deriving DecidableEq, Repr

structure Bus where
  claims : Claims
  target : Option Int
  governing : Option Governing
  setpoint : Option Int
  vref : Option Nat
  ilim : Option Nat
  eq : EqualizeRec
  test : TestRec
  recheck : Bool
  deriving DecidableEq, Repr

/-! ## Rectifier Roster (03) -/

/-- A module's state; `absent` is "no state" of a record rebuilt before RUN (R77). -/
inductive ModState | absent | resting | starting | online | stopping | failed | barred | service
  deriving DecidableEq, Repr

structure ModuleRec where
  state : ModState
  destService : Bool
  hours : Nat
  residue : Nat
  starts : Nat
  strikes : List Nat
  entered : Nat
  watch : Nat
  deriving DecidableEq, Repr

inductive SwapOutcome | none | complete | failedStart | abandonedSource | abandonedService | abandonedReset
  deriving DecidableEq, Repr

structure Swap where
  inProgress : Bool
  incoming : Nat
  outgoing : Nat
  lastSwap : Nat
  retry : Option Nat
  outcome : SwapOutcome
  deriving DecidableEq, Repr

/-- The source capacity in force (R91). -/
inductive Cap | unlimited | limited (dA : Nat)
  deriving DecidableEq, Repr

structure Roster where
  mods : List (Option ModuleRec)
  inh : List Drive
  queue : List Nat
  swap : Swap
  cap : Cap
  load : Nat
  requestTotal : Nat
  shortfall : Bool
  shedSpan : Nat
  loadSeen : Bool
  deriving DecidableEq, Repr

/-! ## Source Controller (04) -/

/-- The mains state; `cleared` is a record that a reset has cleared and RUN has not yet derived (R92, R94). -/
inductive MainsState | cleared | absent | qualifying | present | dip
  deriving DecidableEq, Repr

structure Mains where
  state : MainsState
  entered : Nat
  sense : Bool
  lastFreq : Nat
  qualifySpan : Nat
  qualitySpan : Nat
  retransferSpan : Nat
  outageStart : Nat
  qualifyFailures : Nat
  lastDipWidth : Nat
  absenceWidth : Nat
  absenceSeconds : Bool
  dips : Nat
  outages : Nat
  failHeld : Bool
  dipTimer : Option Nat
  deriving DecidableEq, Repr

inductive XferState | cleared | onMains | opening | open | closingGen | onGen | closingMains | fault
  deriving DecidableEq, Repr

inductive XferCause | none | openUnconfirmed | genUnconfirmed | mainsUnconfirmed | mismatch | resetMismatch
  deriving DecidableEq, Repr

/-- The transfer record and the two transfer drives (04 §4.3). `gcloseReleased`: the part's second at which XFR_GCLOSE was last
released, for the 3 s of R84. -/
structure Xfer where
  state : XferState
  entered : Nat
  headingGen : Bool
  leftGen : Bool
  deadRun : Bool
  deadTimer : Bool
  confirmTimer : Bool
  mismatchWatch : Bool
  cause : XferCause
  faultMains : Bool
  faultGen : Bool
  releasePending : Bool
  transfers : Nat
  gcloseReleased : Option Nat
  mopen : Drive
  gclose : Drive
  deriving DecidableEq, Repr

structure Source where
  mains : Mains
  xfer : Xfer
  deriving DecidableEq, Repr

/-! ## Generator Controller (05) -/

inductive GenState
  | cleared | disabled | standby | prestart | cranking | crankRest | warmup | ready | loaded | cooldown | stopping | shutdown | barred
  deriving DecidableEq, Repr

inductive ShutdownCause | none | oil | coolant | overspeed | underspeed | warmupFreq
  deriving DecidableEq, Repr

inductive RequestKind | mainsFail | depth | exercise | manual
  deriving DecidableEq, Repr

structure RunRequest where
  posted : Nat
  wantsLoad : Bool
  endTime : Nat
  deriving DecidableEq, Repr

/-- The Run Request Set: each kind at most once (05 §5.3). -/
structure RequestSet where
  mainsFail : Option RunRequest
  depth : Option RunRequest
  exercise : Option RunRequest
  manual : Option RunRequest
  deriving DecidableEq, Repr

inductive AttemptOutcome | started | noFire | aborted
  deriving DecidableEq, Repr

structure Attempt where
  time : Nat
  series : Nat
  attempt : Nat
  outcome : AttemptOutcome
  peak : Nat
  deriving DecidableEq, Repr

/-- The generator record (05 §5.2), its timers and marks, the Run Request Set, the Start Attempt List and the three outputs. `timer`
is the timer of the state the generator is in. -/
structure Gen where
  state : GenState
  entered : Nat
  service : Bool
  destDisabled : Bool
  series : Nat
  attempt : Nat
  peak : Nat
  lastFreq : Nat
  firstFailure : Option Nat
  barStart : Nat
  barHold : Bool
  ackTaken : Bool
  cause : ShutdownCause
  runStart : Option Nat
  limitActed : Bool
  capacity : Nat
  derates : Nat
  loadCheckFrom : Nat
  loadCheckBegun : Bool
  droopSpan : Nat
  underspeedSpan : Nat
  hours : Nat
  residue : Nat
  starts : Nat
  fuelLevel : Nat
  fuelUsed : Nat
  fuelAtStart : Nat
  fuelThisRun : Nat
  lastRunEnd : Nat
  nextSlot : Option Nat
  slotStale : Bool
  timer : Bool
  oilTimer : Bool
  oilArmed : Bool
  warmupDue : Bool
  rundownWatch : Bool
  rundownDue : Bool
  idleQuanta : Bool
  requests : RequestSet
  attempts : List Attempt
  pre : Drive
  run : Drive
  crank : Drive
  deriving DecidableEq, Repr

/-! ## Alarm Unit (06) -/

inductive PointState | normal | raising | activeUnack | activeAck | clearing | clearedUnack
  deriving DecidableEq, Repr

structure PointRec where
  state : PointState
  timer : Option Nat
  acked : Bool
  raises : Nat
  changed : Nat
  deriving DecidableEq, Repr

structure Alarm where
  points : List PointRec
  copies : List Bool
  urg : Relay
  def_ : Relay
  attn : Drive
  deriving DecidableEq, Repr

/-! ## The whole -/

structure State where
  pending : List Instr
  clk : Clock
  path : Path
  cmd : Commands
  log : Log
  st : Startup
  settings : List Word
  sil : Silence
  scan : Scanner
  inp : Inputs
  pm : Meters
  str : Strings
  bus : Bus
  ros : Roster
  src : Source
  gen : Gen
  alm : Alarm
  conds : List Bool
  deriving DecidableEq, Repr

/-- The reasons a step can stop with a fault: none. The manual names no event that stops the block (INVENTORY.md ## Faults), so the
type has no constructor. Safe: no meaning stops. -/
inductive Fault
  deriving DecidableEq, Repr

/-- The reasons a step can be refused. -/
inductive Refusal
  /-- Raised by an arm of exec whose command has no meaning yet; no arm is left so. Safe. -/
  | notModelled (mnemonic : String)
  deriving DecidableEq, Repr

/-! ## The machine right after reset -/

/-- The clock of a power-on (R174). -/
def Clock.reset : Clock := ⟨0, .unset, 0⟩

/-- Refusal record as every reset leaves it (R162). -/
def RefusalRecord.cleared : RefusalRecord := ⟨0, 0, 0, 0, 0⟩

/-- A command slot as every reset leaves it (R170). -/
def CommandSlot.cleared : CommandSlot := ⟨List.replicate 7 0, .none, 0⟩

/-- The Command Interpreter as every reset leaves it (R182). -/
def Commands.reset : Commands := ⟨List.replicate 16 .cleared, .released, [], ⟨0, 0, 0, 0⟩, 0⟩

/-- A scanner channel as every reset leaves it (R155). -/
def Channel.reset : Channel := ⟨[], none, 0, 0, 0, false⟩

/-- A channel after a pin or soft reset: its list empty and its counts 0, and the value of its mean, invalid from here on, as it stood
(R145, R155). -/
def Channel.atReset (c : Channel) : Channel := { Channel.reset with mean := c.mean }

/-- The scanner as a power-on leaves it (R155; every mean 0: log 3). -/
def Scanner.reset : Scanner := ⟨List.replicate 16 .reset, none, false⟩

/-- The scanner after a pin or soft reset (R145, R155). -/
def Scanner.atReset (c : Scanner) : Scanner := ⟨c.chans.map .atReset, none, false⟩

/-- The Input Conditioner restarted on the given line levels (R155); the set shown has every input OFF until the first evaluation (R151;
log 89). -/
def Inputs.reset (lines : List Bool) : Inputs :=
  ⟨lines, lines, List.replicate 16 none, List.replicate 16 none, List.replicate 16 none, List.replicate 16 false⟩

/-- The pulse meters restarted on the given PIN3 level (R155). -/
def Meters.reset (pin3 : Bool) : Meters := ⟨0, false, pin3, false, 0, false, none⟩

/-- Nothing handed on (R12). -/
def Handed.none : Handed := ⟨.none, .none, .none, .none, []⟩

/-- The String Supervisor with no record, its drives unpowered (R29). -/
def Strings.reset : Strings := ⟨List.replicate 4 none, List.replicate 4 .unpowered, false, .none, false, false, 0⟩

def Claims.empty : Claims := ⟨none, none, none, none, none, none⟩

/-- An empty equalize record (R50). -/
def EqualizeRec.empty : EqualizeRec := ⟨false, false, 0, 0, 0, 0, .notDue, 0, 0, .none, 0⟩

/-- An empty test record (R50). -/
def TestRec.empty : TestRec := ⟨.none, 0, 0, 0, 0, 0, 0, [0, 0, 0, 0], [none, none, none, none], 0⟩

/-- The Bus Regulator after a power-on (R48, R50). -/
def Bus.reset : Bus := ⟨.empty, none, none, none, none, none, .empty, .empty, false⟩

/-- An empty swap record (R75; its module indices and last swap time 0: log 75). -/
def Swap.empty : Swap := ⟨false, 0, 0, 0, none, .none⟩

/-- The roster with no record, its drives unpowered (R75). -/
def Roster.reset : Roster := ⟨List.replicate 8 none, List.replicate 8 .unpowered, [], .empty, .limited 0, 0, 0, false, 0, false⟩

/-- The mains record as R92 clears it. -/
def Mains.cleared : Mains := ⟨.cleared, 0, false, 0, 0, 0, 0, 0, 0, 0, 0, false, 0, 0, false, none⟩

/-- The transfer record as R92 clears it, both drives unpowered. -/
def Xfer.cleared : Xfer := ⟨.cleared, 0, false, false, false, false, false, false, .none, false, false, false, 0, none, .unpowered, .unpowered⟩

def RequestSet.empty : RequestSet := ⟨none, none, none, none⟩

/-- The generator record as R123 clears it, with the capacity setting's default, its outputs unpowered. -/
def Gen.reset : Gen :=
  { state := .cleared, entered := 0, service := false, destDisabled := false, series := 0, attempt := 0, peak := 0, lastFreq := 0,
    firstFailure := none, barStart := 0, barHold := false, ackTaken := false, cause := .none, runStart := none, limitActed := false,
    capacity := 1500, derates := 0, loadCheckFrom := 0, loadCheckBegun := false, droopSpan := 0, underspeedSpan := 0, hours := 0,
    residue := 0, starts := 0, fuelLevel := 0, fuelUsed := 0, fuelAtStart := 0, fuelThisRun := 0, lastRunEnd := 0, nextSlot := none,
    slotStale := false, timer := false, oilTimer := false, oilArmed := false, warmupDue := false, rundownWatch := false,
    rundownDue := false,
    idleQuanta := false, requests := .empty, attempts := [], pre := .unpowered, run := .unpowered, crank := .unpowered }

def PointRec.normal : PointRec := ⟨.normal, none, false, 0, 0⟩

/-- The Alarm Unit as every reset leaves it (R141). -/
def Alarm.reset : Alarm := ⟨List.replicate 32 .normal, List.replicate 32 false, .unpowered, .unpowered, .unpowered⟩

/-- The two start-up loads of LOAD_ANCHOR, the descriptor words and the remap table (R184). -/
def anchorLoads (msz : BitVec 2) : List OwnRequest :=
  [.startupLoad (memSize msz - 64) 16, .startupLoad (memSize msz - 48) 32]

/-- The Memory Path as every reset leaves it, on the memory and the straps given (R162, R168, R169); host accesses held stay held. -/
def Path.reset (msz : BitVec 2) (cells : List (Nat × Word)) (faulty : List Nat) (writes : Nat) (held : List HostAccess) : Path :=
  { msz := msz, cells := cells, faulty := faulty, writes := writes, remap := List.replicate 16 none, spareFailed := [],
    queue := (anchorLoads msz).take 1, busy := none, held := held, refusal := .cleared }

/-- The start-up record as a reset of the given kind rewrites it (R183). -/
def Startup.reset (msz : BitVec 2) (kind : ResetKind) (optTrain optStrings keepTrain keepStrings : Bool) (time : Nat)
    (late : List LogEvent) (lock : Bool) : Startup :=
  { state := .loadAnchor, kind := kind, optTrain := optTrain, optStrings := optStrings, keepTrain := keepTrain,
    keepStrings := keepStrings, resetTime := time, outcome := 0, defaulted := 0, firstDefaulted := 65535, forCommissioning := false, desc := none, loads := (anchorLoads msz).drop 1, settleScans := 0, late := late,
    lock := lock }

/-- The RESET entry of R183 for a power-on at clock 0: subject 1, keep options 0. -/
def powerOnEntry : LogEvent := ⟨.reset, 1, 0, 0, 0, false⟩

/-- The machine right after a power-on, with the straps, line levels and memory given. -/
def State.afterPowerOn (msz : BitVec 2) (lines : List Bool) (pin3 : Bool) (cells : List (Nat × Word)) (faulty : List Nat)
    (writes : Nat) (held : List HostAccess) : State :=
  { pending := [], clk := .reset, path := .reset msz cells faulty writes held, cmd := .reset, log := ⟨[powerOnEntry], false, 0, 0, false⟩,
    st := .reset msz .powerOn false false false false 0 [] false, settings := resetSettings, sil := ⟨.supervised, 0⟩, scan := .reset,
    inp := .reset lines, pm := .reset pin3, str := .reset, bus := .reset, ros := .reset, src := ⟨.cleared, .cleared⟩,
    gen := .reset, alm := .reset, conds := List.replicate 32 false }

/-- The machine right after reset: a power-on with strap code 0, every line low and nothing written in memory (log 3 for the straps, the
lines and the copies of the settings, log 1 for the memory; every other value is the spec's for a power-on: R29, R48, R50, R75, R92, R123,
R141, R155, R162, R168, R170, R173, R174, R177, R183, R188, R190). -/
def State.reset : State := .afterPowerOn 0 (List.replicate 16 false) false [] [] 0 []

end Sys2Proof.Machine
end

