-- ==== Sys2Proof/Machine/Ops.lean ====
section
/-! DEFINITION. The named operations over clock, lists, event log, memory, own-cycle queue and Counter Store that every block uses. -/

namespace Sys2Proof.Machine

/-! ## Lists of fixed length -/

/-- Element i of a list with its i-th element replaced by f of it. -/
def updAt {α : Type} (i : Nat) (f : α → α) (l : List α) : List α :=
  match l, i with
  | [], _ => []
  | a :: r, 0 => f a :: r
  | a :: r, i + 1 => a :: updAt i f r

/-- A list kept to its last n entries after one more is appended ("the oldest is removed first"). -/
def pushLast {α : Type} (n : Nat) (l : List α) (a : α) : List α := (l ++ [a]).drop (l.length + 1 - n)

/-! ## Clock and start-up state -/

/-- The site clock. -/
def now (s : State) : Nat := s.clk.value

/-- The clock minus a stored time, 0 when the stored time is later (R174). -/
def since (s : State) (t : Nat) : Nat := now s - t

/-- The clock some seconds on, counting on from 4,294,967,295 to 0 (R174). -/
def clockPlus (t n : Nat) : Nat := (t + n) % 4294967296

def inRun (s : State) : Bool := s.st.state == .run
def inCommissioning (s : State) : Bool := s.st.state == .commissioning
/-- Start-up is in progress. -/
def starting (s : State) : Bool := !inRun s && !inCommissioning s
/-- The power train runs: in RUN, or through a start-up that kept it (R49, R76, R93, R124). -/
def trainRuns (s : State) : Bool := inRun s || (starting s && s.st.keepTrain)
/-- Start-up with the power train kept. -/
def trainKept (s : State) : Bool := starting s && s.st.keepTrain

/-- The number of strings the descriptor in force configures, 0 with none (R1). -/
def stringCount (s : State) : Nat := (s.st.desc.map (·.strings)).getD 0
/-- Whether the descriptor in force names module m (R53). -/
def modulePresent (s : State) (m : Nat) : Bool := (s.st.desc.map fun d => d.mask.getLsbD m).getD false
/-- Whether the descriptor in force says a generator is fitted. -/
def genFitted (s : State) : Bool := (s.st.desc.map (·.generator)).getD false
/-- Nominal frequency 60 Hz in force. -/
def nominal60 (s : State) : Bool := (s.st.desc.map (·.nominal60)).getD false

/-! ## Event log (R177) -/

/-- A log event joins the pending log queue with the given time; one that finds the queue full is lost and sets the gap flag, and the
first that joins after a loss carries the gap mark (R177). -/
def logAt (time : Nat) (k : LogKind) (subject a b : Word) (s : State) : State :=
  if s.log.queue.length < 32 then
    { s with log := { s.log with queue := s.log.queue ++ [⟨k, subject, a, b, time, s.log.gap⟩], gap := false } }
  else { s with log := { s.log with gap := true } }

/-- A log event stamped with the site clock. -/
def logEv (k : LogKind) (subject a b : Word) (s : State) : State := logAt (now s) k subject a b s

/-- Kind codes (09 §9.4). -/
def LogKind.code : LogKind → Nat
  | .reset => 1 | .startupDone => 2 | .settingsDefaulted => 3 | .silenceState => 4 | .writeRefused => 5 | .remap => 6 | .command => 7
  | .logNote => 8 | .clockSet => 9 | .countersRestored => 10 | .phaseChange => 11 | .stringFault => 12 | .reconnectResult => 13
  | .equalizeEnd => 14 | .testEnd => 15 | .moduleState => 16 | .strike => 17 | .stopUnconfirmed => 18 | .rotation => 19
  | .mainsDip => 20 | .mainsOutage => 21 | .mainsReturn => 22 | .transfer => 23 | .genState => 24 | .startAttempt => 25
  | .runRequest => 26 | .runLimit => 27 | .derate => 28 | .fuelQuantumIdle => 29 | .exerciseSkipped => 30 | .pointChange => 31
  | .channelState => 32 | .inputEdge => 33

/-! ## Memory (08) -/

/-- What a word reads as that nothing has written (DESIGN CHOICE, unsafe, log 1: the spec gives no contents). -/
abbrev unlistedWord : Word := 0

/-- What an address reads as. -/
def readCells : List (Nat × Word) → Nat → Word
  | [], _ => unlistedWord
  | (b, v) :: r, a => if a = b then v else if a < b then unlistedWord else readCells r a

/-- Memory with one word written; writing what an unlisted word reads as removes the entry, so equal memories are equal lists. -/
def writeCells : List (Nat × Word) → Nat → Word → List (Nat × Word)
  | [], a, v => if v = unlistedWord then [] else [(a, v)]
  | (b, w) :: r, a, v =>
    if a < b then (if v = unlistedWord then (b, w) :: r else (a, v) :: (b, w) :: r)
    else if a = b then (if v = unlistedWord then r else (a, v) :: r)
    else (b, w) :: writeCells r a v

/-- The canonical form above a bound: addresses at or above it, strictly rising, and no entry that equals what an unlisted address
reads as. -/
def Memory.wfFrom : Nat → List (Nat × Word) → Bool
  | _, [] => true
  | lo, (a, v) :: r => decide (lo ≤ a) && decide (v ≠ unlistedWord) && Memory.wfFrom (a + 1) r

/-- The canonical form of the memory. -/
def Memory.wf (m : List (Nat × Word)) : Bool := Memory.wfFrom 0 m

/-- The memory size of the straps sampled. -/
def Path.size (p : Path) : Nat := memSize p.msz

/-- The address of spare word i (08 §8.1). -/
def Path.spareAddr (p : Path) (i : Nat) : Nat := p.size - 80 + i

/-- The remap entry that names an address. -/
def Path.entryFor (p : Path) (a : Nat) : Option RemapEntry :=
  p.remap.findSome? fun e => e.bind fun r => if r.addr = a then some r else none

/-- The address an access goes to: the spare when the remap table names the address (R158, R159, R165). -/
def Path.redirect (p : Path) (a : Nat) : Nat :=
  match p.entryFor a with
  | some r => p.spareAddr r.spare
  | none => a

/-- The memory takes a write that is not read back; a word known faulty makes of it what it makes (a free value, log 12). -/
def Path.store (p : Path) (a : Nat) (v : Word) : Path :=
  if p.faulty.contains a then
    { p with cells := writeCells p.cells a (Config.memoryMakes p.writes a v), writes := p.writes + 1 }
  else { p with cells := writeCells p.cells a v }

/-- A host write passed to the memory, redirected (R159). -/
def hostStore (a : Nat) (v : Word) (s : State) : State := { s with path := s.path.store (s.path.redirect a) v }

/-- A read of the memory, redirected. -/
def memRead (s : State) (a : Nat) : Word := readCells s.path.cells (s.path.redirect a)

/-- The PR base address: the descriptor's base unit × 8,192, or the default base, memory size − 16,384, with none in force (08 §8.1,
R157, R184). -/
def prBase (s : State) : Nat :=
  match s.st.desc with
  | some d => d.baseUnit * 8192
  | none => s.path.size - 16384

/-! ## CRC-16 (08 §8.1, descriptor word 15) -/

/-- One bit of the CRC: polynomial 0x1021, most significant bit first. -/
def crcBit (c : Word) : Word := if c.msb then (c <<< 1) ^^^ 0x1021#16 else c <<< 1

/-- One byte of the CRC. -/
def crcByte (c : Word) (b : BitVec 8) : Word :=
  let c := c ^^^ (b.zeroExtend 16 <<< 8)
  crcBit (crcBit (crcBit (crcBit (crcBit (crcBit (crcBit (crcBit c)))))))

/-- CRC-16 over bytes: initial value 0xFFFF, no final inversion (log 16 for the check value the spec prints beside it). -/
def crcBytes (l : List (BitVec 8)) : Word := l.foldl crcByte 0xFFFF#16

/-- CRC-16 over words, each high byte first. -/
def crcWords (l : List Word) : Word :=
  crcBytes (l.flatMap fun w => [w.extractLsb' 8 8, w.extractLsb' 0 8])

/-! ## Own-cycle queue (R164) -/

/-- A request joins the tail of the own-cycle queue. -/
def enqueueOwn (r : OwnRequest) (s : State) : State := { s with path := { s.path with queue := s.path.queue ++ [r] } }

/-- A checkpoint request takes the place of one for the same record that is waiting, or joins the tail (R164). -/
def placeCheckpoint (n : Nat) (words : List Word) (q : List OwnRequest) : List OwnRequest :=
  let same : OwnRequest → Bool := fun r => match r with | .checkpoint m _ => m == n | _ => false
  if q.any same then q.map fun r => if same r then .checkpoint n words else r
  else q ++ [.checkpoint n words]

/-! ## Counter Store (09 §9.5) -/

/-- A counter record's sixteen words: its number, its fields, zeros up to word 14, and the CRC over words 0 to 14. -/
def recordWords (n : Nat) (fields : List Word) : List Word :=
  let body := (wordOf n :: fields ++ List.replicate 15 0).take 15
  body ++ [crcWords body]

/-- The record of a string (09 §9.5). -/
def stringRecordFields (r : StringRec) : List Word :=
  [wordOf r.deficit, wordOfBool r.unknownCharge, wordOf r.throughputIn, wordOf r.throughputOut, hiWord r.lastFull, loWord r.lastFull,
   hiWord r.lastEqualize, loWord r.lastEqualize, wordOfInt r.baseline]

/-- The record of a module. -/
def moduleRecordFields (r : ModuleRec) : List Word := [hiWord r.hours, loWord r.hours, wordOf r.starts]

/-- The record of the generator. -/
def genRecordFields (g : Gen) : List Word :=
  [hiWord g.hours, loWord g.hours, wordOf g.starts, hiWord g.fuelUsed, loWord g.fuelUsed, hiWord g.lastRunEnd, loWord g.lastRunEnd]

/-- The string record of string k, if it has one. -/
def strRec (s : State) (k : Nat) : Option StringRec := (s.str.recs[k]?).bind id

/-- The module record of module m, if it has one. -/
def modRec (s : State) (m : Nat) : Option ModuleRec := (s.ros.mods[m]?).bind id

/-- The fields of record n as its owner's state stands, when the owner has one: a fitted generator, present modules, configured strings,
and the clock always (R180). -/
def recordFields (s : State) (n : Nat) : Option (List Word) :=
  if n = 0 then (if genFitted s then some (genRecordFields s.gen) else none)
  else if n < 9 then (modRec s (n - 1)).map moduleRecordFields
  else if n < 13 then (strRec s (n - 9)).map stringRecordFields
  else if n = 13 then some [hiWord (now s), loWord (now s)]
  else none

/-- A checkpoint request for record n (R180): none in COMMISSIONING, none for an owner with no record. -/
def checkpoint (n : Nat) (s : State) : State :=
  if inCommissioning s then s
  else match recordFields s n with
    | none => s
    | some f => { s with path := { s.path with queue := placeCheckpoint n (recordWords n f) s.path.queue } }

/-! ## Measured values -/

/-- Channel c of the scanner. -/
def chan (s : State) (c : Nat) : Channel := s.scan.chans.getD c .reset

/-- A mean is valid while its list holds a sample and the channel is not failed (R145). -/
def Channel.meanValid (c : Channel) : Bool := !c.samples.isEmpty && !c.failed

/-- The mean of a channel as it stands. -/
def meanOf (s : State) (c : Nat) : Int := (chan s c).mean

/-- The mean of a channel while it is valid. -/
def validMean (s : State) (c : Nat) : Option Int := if (chan s c).meanValid then some (meanOf s c) else none

/-- Whether a channel's mean cannot be used: the channel is failed, or has had no valid sample since the reset. -/
def chanBad (s : State) (c : Nat) : Bool := !(chan s c).meanValid

/-- The debounced level of an input (R148). -/
def dinLevel (s : State) (n : Nat) : Bool := s.inp.levels.getD n false

/-- The site-attended key (DIN12). -/
def attended (s : State) : Bool := dinLevel s 12

/-! ## Points (06 §6.4) -/

/-- The record of a point. -/
def point (s : State) (p : Nat) : PointRec := s.alm.points.getD p .normal

/-- Active: ACTIVE_UNACK, ACTIVE_ACK and CLEARING. -/
def PointState.active : PointState → Bool
  | .activeUnack | .activeAck | .clearing => true
  | .normal | .raising | .clearedUnack => false

/-- A point is active. -/
def pointActive (s : State) (p : Nat) : Bool := (point s p).state.active

/-- A point's class: DISABLED 0, LOG_ONLY 1, DEFERRED 2, URGENT 3. -/
def pointClass (s : State) (p : Nat) : Nat := pointWord s.settings p 0

/-- A reserve test is running. -/
def testRunning (s : State) : Bool := s.bus.test.state == .running

/-- A string is connected while DISCHARGING, CHARGING, TOPPING or FULL (01). -/
def Phase.connected : Phase → Bool
  | .discharging | .charging | .topping | .full => true
  | .absent | .isolated | .reconnecting | .fault => false

/-- The connected strings' indices and records, in index order. -/
def connectedStrings (s : State) : List (Nat × StringRec) :=
  (List.range 4).filterMap fun k => match strRec s k with
    | some r => if r.phase.connected then some (k, r) else none
    | none => none

end Sys2Proof.Machine
end

