-- ==== Sys2Proof/Machine/Claims.lean ====
section
/-! DEFINITION. The claim table with its target and governing slot, VREF, and the ends of an equalize and of a reserve test that the
Bus Regulator's neighbours bring about (02 §2.2 to §2.5). -/

namespace Sys2Proof.Machine

/-! ## Claim table (R32, R33) -/

/-- The claim of a slot. -/
def Claims.get (c : Claims) : Slot → Option Claim
  | .strings => c.strings
  | .equalize => c.equalize
  | .generator => c.generator
  | .matching => c.matching
  | .thermal => c.thermal
  | .test => c.test

/-- The table with a slot's content replaced. -/
def Claims.put (c : Claims) (k : Slot) (v : Option Claim) : Claims :=
  match k with
  | .strings => { c with strings := v }
  | .equalize => { c with equalize := v }
  | .generator => { c with generator := v }
  | .matching => { c with matching := v }
  | .thermal => { c with thermal := v }
  | .test => { c with test := v }

def raisingSlots : List Slot := [.strings, .equalize, .generator]
def ceilingSlots : List Slot := [.matching, .thermal, .test]

/-- The claims held in the given slots, in the table's order. -/
def Claims.held (c : Claims) (ks : List Slot) : List (Slot × Claim) :=
  ks.filterMap fun k => (c.get k).map fun v => (k, v)

/-- The better of two claims of a class: the one that decides the level (`first` is strict), then the one posted earlier; the one standing
earlier in the table stays when both are equal (R33; claims of two classes are not compared so, log 51). -/
def betterClaim (first : Int → Int → Bool) (x y : Slot × Claim) : Slot × Claim :=
  if first y.2.level x.2.level then y
  else if first x.2.level y.2.level then x
  else if y.2.time < x.2.time then y else x

/-- The deciding claim of a list of claims. -/
def deciding (first : Int → Int → Bool) : List (Slot × Claim) → Option (Slot × Claim)
  | [] => none
  | c :: r => some (r.foldl (betterClaim first) c)

/-- The deciding level and its slot before the clamp (R33, steps 1 and 2); no slot when no raising claim is held and the no-battery level
of the settings stands (log 18). A ceiling decides only below the highest raising claim: at the same level the raising claim does (log 51). -/
def decidingLevel (ss : List Word) (c : Claims) : Int × Option Slot :=
  let high : Int × Option Slot := match deciding (fun a b => decide (b < a)) (c.held raisingSlots) with
    | some (k, v) => (v.level, some k)
    | none => (noBattery ss, none)
  match deciding (fun a b => decide (a < b)) (c.held ceilingSlots) with
  | some (k, v) => if v.level < high.1 then (v.level, some k) else high
  | none => high

/-- A level brought into the load window: below bus min becomes bus min, above bus max becomes bus max (R33, step 3). -/
def clampWindow (ss : List Word) (v : Int) : Int :=
  if v < busMin ss then busMin ss else if (busMax ss : Int) < v then busMax ss else v

/-- Target and governing slot of a table (R33). -/
def targetOf (ss : List Word) (c : Claims) : Int × Option Governing :=
  let d := decidingLevel ss c
  let t := clampWindow ss d.1
  (t, if t = d.1 then d.2.map .slot else some .window)

/-- The target and the governing slot are worked out anew. -/
def retarget (s : State) : State :=
  let t := targetOf s.settings s.bus.claims
  { s with bus := { s.bus with target := some t.1, governing := t.2 } }

/-- A post to a slot: the new level and the present clock replace what it held, and the target is worked out anew (R32). -/
def postClaim (k : Slot) (level : Int) (s : State) : State :=
  retarget { s with bus := { s.bus with claims := s.bus.claims.put k (some ⟨level, now s⟩) } }

/-- A withdrawal empties a slot and the target is worked out anew; from an empty slot it leaves everything as it is (R32). -/
def withdrawClaim (k : Slot) (s : State) : State :=
  if (s.bus.claims.get k).isSome then
    retarget { s with bus := { s.bus with claims := s.bus.claims.put k none } }
  else s

/-- Whether a slot holds a claim of this level. -/
def claimIs (k : Slot) (level : Int) (s : State) : Bool := (s.bus.claims.get k).map (·.level) == some level

/-- A post made whenever the level differs from the level the slot holds. -/
def postIfNew (k : Slot) (level : Int) (s : State) : State := if claimIs k level s then s else postClaim k level s

/-- The slot holds a claim of this level, or none: a poster's wish for its slot. -/
def wishClaim (k : Slot) (level : Option Int) (s : State) : State :=
  match level with
  | some l => postIfNew k l s
  | none => withdrawClaim k s

/-! ## VREF (R35) -/

/-- The VREF code of a setpoint. -/
def vrefCode (setpoint : Int) : Nat :=
  if setpoint < 40000 then 0 else min 4095 ((setpoint.toNat - 40000) * 4095 / 20000)

/-- The setpoint takes a value and VREF is written from it. -/
def setSetpoint (v : Int) (s : State) : State := { s with bus := { s.bus with setpoint := some v, vref := some (vrefCode v) } }

/-! ## Ends of the two operations (R43, R47) -/

/-- Outcome codes of an equalize (02 §2.4). -/
def EqualizeOutcome.code : EqualizeOutcome → Nat
  | .none => 0 | .complete => 1 | .cancelledCmd => 2 | .cancelledMains => 3 | .cancelledTemp => 4 | .cancelledAutonomy => 5
  | .cancelledReset => 6

/-- Outcome codes of a reserve test (02 §2.5). -/
def TestOutcome.code : TestOutcome → Nat
  | .passed => 1 | .failedEarly => 2 | .abortedMains => 3 | .abortedDepth => 4 | .abortedAlarm => 5 | .abortedCmd => 6
  | .abortedAutonomy => 7 | .abortedReset => 8

/-- The EQUALIZE_END event of an equalize that ends with an outcome (R43). -/
def equalizeEndEvent (o : EqualizeOutcome) (s : State) : LogEvent :=
  ⟨.equalizeEnd, wordOfBool s.bus.eq.scheduled, wordOf o.code, wordOf s.bus.eq.elapsed, now s, false⟩

/-- The equalize record with an ending entered. -/
def closeEqualize (o : EqualizeOutcome) (s : State) : State :=
  { s with bus := { s.bus with eq := { s.bus.eq with running := false, outcome := o, endTime := now s } } }

/-- The end actions of an equalize (R43). -/
def endEqualize (o : EqualizeOutcome) (s : State) : State :=
  let e := equalizeEndEvent o s
  s |> withdrawClaim .equalize |> closeEqualize o |> logEv e.kind e.subject e.a e.b

/-- A cancelling event: it ends a running equalize and finds an idle one idle (R42). -/
def cancelEqualize (o : EqualizeOutcome) (s : State) : State := if s.bus.eq.running then endEqualize o s else s

/-- The TEST_END event of a test that ends with an outcome (R47). -/
def testEndEvent (o : TestOutcome) (s : State) : LogEvent := ⟨.testEnd, 0, wordOf o.code, wordOf s.bus.test.elapsed, now s, false⟩

/-- The test record with an ending entered. -/
def closeTest (o : TestOutcome) (s : State) : State :=
  { s with bus := { s.bus with test := { s.bus.test with state := .ended o, endTime := now s } } }

/-- The end actions of a reserve test, but for the condition TEST_FAILED, which the outcomes of R45 alone touch (R47). -/
def endTest (o : TestOutcome) (s : State) : State :=
  let e := testEndEvent o s
  s |> withdrawClaim .test |> closeTest o |> logEv e.kind e.subject e.a e.b

/-- An aborting event: it ends a running test and has no effect on none (R46). -/
def abortTest (o : TestOutcome) (s : State) : State := if testRunning s then endTest o s else s

end Sys2Proof.Machine
end

