-- ==== Sys2Proof/Machine/GenCore.lean ====
section
/-! DEFINITION. The generator's state change, its Run Request Set, its series and the GENERATOR claim: what the blocks around the Generator
Controller can bring about in it (05 §5.2 to §5.4, R114, R119). -/

namespace Sys2Proof.Machine

/-! ## Codes -/

/-- State codes (05 §5.2); a cleared record is 0. -/
def GenState.code : GenState → Nat
  | .cleared => 0 | .disabled => 1 | .standby => 2 | .prestart => 3 | .cranking => 4 | .crankRest => 5 | .warmup => 6 | .ready => 7
  | .loaded => 8 | .cooldown => 9 | .stopping => 10 | .shutdown => 11 | .barred => 12

/-- Cause codes of a shutdown (R117). -/
def ShutdownCause.code : ShutdownCause → Nat
  | .none => 0 | .oil => 1 | .coolant => 2 | .overspeed => 3 | .underspeed => 4 | .warmupFreq => 5

/-- Kind codes of run requests (05 §5.3). -/
def RequestKind.code : RequestKind → Nat
  | .mainsFail => 1 | .depth => 2 | .exercise => 3 | .manual => 4

/-- Outcome codes of an attempt (R108). -/
def AttemptOutcome.code : AttemptOutcome → Nat
  | .started => 1 | .noFire => 2 | .aborted => 3

/-- GEN_PRE, GEN_RUN and GEN_CRANK of a state (05 §5.2). -/
def GenState.outputs : GenState → Drive × Drive × Drive
  | .prestart => (.asserted, .released, .released)
  | .cranking => (.released, .asserted, .asserted)
  | .warmup | .ready | .loaded | .cooldown => (.released, .asserted, .released)
  | .cleared | .disabled | .standby | .crankRest | .stopping | .shutdown | .barred => (.released, .released, .released)

/-- The engine is running in WARMUP, READY, LOADED and COOLDOWN (05 §5.2). -/
def GenState.running : GenState → Bool
  | .warmup | .ready | .loaded | .cooldown => true
  | .cleared | .disabled | .standby | .prestart | .cranking | .crankRest | .stopping | .shutdown | .barred => false

/-- The states of a series. -/
def GenState.inSeries : GenState → Bool
  | .prestart | .cranking | .crankRest => true
  | .cleared | .disabled | .standby | .warmup | .ready | .loaded | .cooldown | .stopping | .shutdown | .barred => false

/-- The states that have a timer of their own, started on entry. -/
def GenState.timed : GenState → Bool
  | .prestart | .cranking | .crankRest | .warmup | .cooldown | .stopping => true
  | .cleared | .disabled | .standby | .ready | .loaded | .shutdown | .barred => false

/-- Generator ready (R104). -/
def genReady (s : State) : Bool := s.gen.state == .ready || s.gen.state == .loaded

/-! ## Run Request Set -/

def RequestSet.get (q : RequestSet) : RequestKind → Option RunRequest
  | .mainsFail => q.mainsFail
  | .depth => q.depth
  | .exercise => q.exercise
  | .manual => q.manual

def RequestSet.put (q : RequestSet) (k : RequestKind) (v : Option RunRequest) : RequestSet :=
  match k with
  | .mainsFail => { q with mainsFail := v }
  | .depth => { q with depth := v }
  | .exercise => { q with exercise := v }
  | .manual => { q with manual := v }

def RequestSet.isEmpty (q : RequestSet) : Bool :=
  q.mainsFail.isNone && q.depth.isNone && q.exercise.isNone && q.manual.isNone

/-- A kind is in the set. -/
def requested (s : State) (k : RequestKind) : Bool := (s.gen.requests.get k).isSome

/-- A request of the kind stands and wants load. -/
def wantsLoad (s : State) (k : RequestKind) : Bool := ((s.gen.requests.get k).map (·.wantsLoad)).getD false

/-- Load wanted (R104). -/
def loadWanted (s : State) : Bool :=
  wantsLoad s .mainsFail || wantsLoad s .depth || wantsLoad s .exercise || wantsLoad s .manual

/-- Load forced (R104). -/
def loadForced (s : State) : Bool := wantsLoad s .exercise || wantsLoad s .manual

/-- The run is at least some seconds old, counted from the entry to READY. -/
def ranFor (s : State) (n : Nat) : Bool :=
  match s.gen.runStart with
  | some t => decide (n ≤ since s t)
  | none => false

/-- Release (R104). -/
def release (s : State) : Bool := genReady s && s.gen.requests.isEmpty && ranFor s 1800

/-! ## Change of state (R96) -/

/-- The record in a new state: outputs, time entered, the state's timer, and the timers and spans that end with the state left. -/
def Gen.enter (g : Gen) (st : GenState) (time : Nat) : Gen :=
  { g with
    state := st, entered := time, pre := st.outputs.1, run := st.outputs.2.1, crank := st.outputs.2.2, timer := st.timed,
    oilTimer := g.oilTimer && st.running, oilArmed := g.oilArmed && st.running, warmupDue := false, rundownWatch := st == .shutdown,
    rundownDue := false, loadCheckBegun := false, droopSpan := 0 }

/-- A change of state with its GEN_STATE entry; leaving LOADED withdraws the GENERATOR claim (R96, R119). -/
def genEnter (st : GenState) (subject : Word) (s : State) : State :=
  let old := s.gen.state
  { s with gen := s.gen.enter st (now s) }
    |> logEv .genState subject (wordOf old.code) (wordOf st.code)
    |> fun t => if old == .loaded then withdrawClaim .generator t else t

/-! ## Series (R105, R108, R109) -/

/-- An attempt that ends joins the Start Attempt List and the log (R108). -/
def addAttempt (o : AttemptOutcome) (peak : Nat) (s : State) : State :=
  { s with gen := { s.gen with attempts := pushLast 8 s.gen.attempts ⟨now s, s.gen.series, s.gen.attempt, o, peak⟩ } }
    |> logEv .startAttempt (wordOf s.gen.attempt) (wordOf o.code) (wordOf peak)

/-- A series begins in PRESTART when a request stands, the generator is STANDBY and no reserve test runs (R104, R105). -/
def seriesStart (s : State) : State :=
  if s.gen.state == .standby && !s.gen.requests.isEmpty && !testRunning s then
    { s with gen := { s.gen with series := (s.gen.series + 1) % 65536, attempt := 1 } } |> genEnter .prestart 0
  else s

/-- A series is abandoned into STOPPING; an attempt in progress is entered as ABORTED, with a peak of 0 in PRESTART (R108, R109). -/
def abandonSeries (toDisabled : Bool) (s : State) : State :=
  let s := match s.gen.state with
    | .prestart => addAttempt .aborted 0 s
    | .cranking => addAttempt .aborted s.gen.peak s
    | _ => s
  { s with gen := { s.gen with destDisabled := toDisabled } } |> genEnter .stopping 0

/-! ## Posts and removals (R98, R99) -/

/-- A request joins the set: the post is logged, a STANDBY generator starts a series and one in COOLDOWN returns to READY (R98, R104,
R115). -/
def addRequest (k : RequestKind) (load : Bool) (endTime : Nat) (s : State) : State :=
  { s with gen := { s.gen with requests := s.gen.requests.put k (some ⟨now s, load, endTime⟩) } }
    |> logEv .runRequest (wordOf k.code) 1 (wordOfBool load)
    |> fun t => if t.gen.state == .cooldown then genEnter .ready 0 t else seriesStart t

/-- The Source Controller no longer holds MAINS_FAIL as posted (R83). -/
def dropMainsFail (s : State) : State := { s with src := { s.src with mains := { s.src.mains with failHeld := false } } }

/-- A refused post is logged, and a refused MAINS_FAIL is reported to the Source Controller (R98). -/
def refuseRequest (k : RequestKind) (reason : Word) (s : State) : State :=
  s |> logEv .runRequest (wordOf k.code) 3 reason |> fun t => if k == .mainsFail then dropMainsFail t else t

/-- A post to the Run Request Set (R98). -/
def postRequest (k : RequestKind) (load : Bool) (endTime : Nat) (s : State) : State :=
  if requested s k then s
  else if pointActive s Pt.fuelCritical && k != .depth then refuseRequest k 1 s
  else if testRunning s && (k == .exercise || k == .manual) then refuseRequest k 2 s
  else addRequest k load endTime s

/-- Removal reasons (R99). -/
abbrev Reason.withdrawn : Word := 1
abbrev Reason.ended : Word := 2
abbrev Reason.genStop : Word := 3
abbrev Reason.runLimit : Word := 4
abbrev Reason.fuel : Word := 5
abbrev Reason.autonomy : Word := 6

/-- A request of the kind leaves the set, if it is there: the removal is logged, a removal of MAINS_FAIL for FUEL is reported to the Source
Controller, and a set left empty during a series abandons it (R99). -/
def removeRequest (k : RequestKind) (reason : Word) (s : State) : State :=
  if requested s k then
    { s with gen := { s.gen with requests := s.gen.requests.put k none } }
      |> logEv .runRequest (wordOf k.code) 2 reason
      |> (fun t => if k == .mainsFail && reason == Reason.fuel then dropMainsFail t else t)
      |> fun t => if t.gen.requests.isEmpty && t.gen.state.inSeries then abandonSeries false t else t
  else s

/-- FUEL_CRITICAL becoming active removes MAINS_FAIL, EXERCISE and MANUAL (R99). -/
def fuelCriticalNotice (s : State) : State :=
  s |> removeRequest .mainsFail Reason.fuel |> removeRequest .exercise Reason.fuel |> removeRequest .manual Reason.fuel

/-! ## GENERATOR claim (R119) -/

/-- The claim is checked while LOADED: with a connected string in deficit it stands at the boost level handed on, else it is withdrawn. -/
def genClaimCheck (s : State) : State :=
  if s.gen.state == .loaded then
    let level := if (connectedStrings s).any (fun p => decide (0 < p.2.deficit)) then s.str.handed.boostLevel else none
    wishClaim .generator level s
  else s

/-! ## Transfer notices (R114) -/

/-- The notice that the transfer entered ON_GEN. -/
def noticeOnGen (s : State) : State :=
  if s.gen.state == .ready then
    s |> genEnter .loaded 0
      |> (fun t => { t with gen := { t.gen with loadCheckFrom := now t + 20, underspeedSpan := 0 } })
      |> genClaimCheck
  else s

/-- The notice that the transfer left ON_GEN for OPENING. A claim that still stands is withdrawn whatever the state. -/
def noticeLeftForOpening (s : State) : State :=
  (if s.gen.state == .loaded then genEnter .cooldown 0 s else s) |> withdrawClaim .generator

/-- The notice that the transfer left ON_GEN for FAULT. -/
def noticeLeftForFault (s : State) : State :=
  (if s.gen.state == .loaded then genEnter .ready 0 s else s) |> withdrawClaim .generator

end Sys2Proof.Machine
end

