-- ==== Sys2Proof/Machine/Flags.lean ====
section
/-! DEFINITION. The block's flags: conditions and their points, thresholds, suppression, the notices of a point becoming active,
acknowledgement, and the relay and ATTN outputs (06). -/

namespace Sys2Proof.Machine

/-! ## Codes, suppression, outputs -/

/-- State codes (06 §6.4). -/
def PointState.code : PointState → Nat
  | .normal => 0 | .raising => 1 | .activeUnack => 2 | .activeAck => 3 | .clearing => 4 | .clearedUnack => 5

/-- Unacknowledged: ACTIVE_UNACK and CLEARED_UNACK. -/
def PointState.unack : PointState → Bool
  | .activeUnack | .clearedUnack => true
  | .normal | .raising | .activeAck | .clearing => false

/-- The children whose raising a parent holds back (06 §6.5), in the order of their IDs, in which they are
cancelled and judged (log 88). -/
def children (p : Nat) : List Nat :=
  if p = Pt.mainsAbsent then [Pt.mainsQuality, Pt.moduleFail, Pt.capacityShort]
  else if p = Pt.genShutdown then [Pt.genFailStop]
  else if p = Pt.fuelCritical then [Pt.fuelLow]
  else if p = Pt.stringFault then [Pt.stringIsolated]
  else []

/-- The parent of a child point. -/
def parentOf (p : Nat) : Option Nat :=
  [Pt.mainsAbsent, Pt.genShutdown, Pt.fuelCritical, Pt.stringFault].find? fun q => (children q).contains p

/-- The parent of a point is active. -/
def heldBack (s : State) (p : Nat) : Bool := ((parentOf p).map (pointActive s)).getD false

/-- The Alarm Unit's copy of a condition, or a threshold point's truth value (R128). -/
def copyOf (s : State) (p : Nat) : Bool := s.alm.copies.getD p false

/-- A child point is suppressed (R136). -/
def suppressed (s : State) (p : Nat) : Bool :=
  heldBack s p && copyOf s p && ((point s p).state == .normal || (point s p).state == .clearedUnack)

/-- A point of the given class is active. -/
def anyActive (s : State) (cls : Nat) : Bool := (List.range 32).any fun p => pointClass s p == cls && pointActive s p

/-- A DEFERRED or URGENT point is unacknowledged. -/
def anyUnack (s : State) : Bool := (List.range 32).any fun p => decide (2 ≤ pointClass s p) && (point s p).state.unack

/-- The three outputs, worked out anew while the part is in RUN (R137). -/
def refreshOutputs (s : State) : State :=
  if inRun s then
    { s with alm := { s.alm with
        urg := if anyActive s 3 then .deenergized else .energized,
        def_ := if anyActive s 2 then .deenergized else .energized,
        attn := if anyUnack s then .asserted else .released } }
  else s

/-! ## Changes of a point (R131 to R133, R135) -/

/-- A point record replaced. -/
def setPoint (p : Nat) (f : PointRec → PointRec) (s : State) : State :=
  { s with alm := { s.alm with points := updAt p f s.alm.points } }

/-- A change of a point's state: the record takes it with the clock as its last change, and the outputs follow. -/
def movePoint (p : Nat) (st : PointState) (timer : Option Nat) (s : State) : State :=
  s |> setPoint p (fun r => { r with state := st, timer := timer, changed := now s }) |> refreshOutputs

/-- POINT_CHANGE (R135). -/
def logPoint (p : Nat) (old new : PointState) (s : State) : State :=
  logEv .pointChange (wordOf p) (wordOf old.code) (wordOf new.code) s

/-- A point that is RAISING returns to NORMAL with its timer cancelled. -/
def cancelRaise (p : Nat) (s : State) : State :=
  if (point s p).state == .raising then s |> movePoint p .normal none |> logPoint p .raising .normal else s

/-- A parent that becomes active cancels the raises of its children (R136). -/
def cancelChildren (p : Nat) (s : State) : State := (children p).foldl (fun t c => cancelRaise c t) s

/-- The reports of a point becoming active (R138): BATT_OVERTEMP and any URGENT point to the Bus Regulator, FUEL_CRITICAL to the Generator
Controller. -/
def reportActive (p : Nat) (s : State) : State :=
  s |> (fun t => if p = Pt.battOvertemp then cancelEqualize .cancelledTemp t else t)
    |> (fun t => if p = Pt.fuelCritical then fuelCriticalNotice t else t)
    |> fun t => if pointClass t p == 3 then abortTest .abortedAlarm t else t

/-- The expiry of a raise: the point enters ACTIVE_UNACK, logged from the state held before (R131, R133). -/
def fireRaise (p : Nat) (old : PointState) (s : State) : State :=
  s |> setPoint p (fun r => { r with raises := min 65535 (r.raises + 1), acked := false })
    |> movePoint p .activeUnack none |> logPoint p old .activeUnack |> cancelChildren p |> reportActive p

/-- A point's condition becoming true, or judged anew while true (R131). -/
def becomeTrue (p : Nat) (s : State) : State :=
  let r := point s p
  if pointClass s p = 0 then s
  else match r.state with
    | .normal | .clearedUnack =>
      if heldBack s p then s
      else
        let d := pointWord s.settings p 2
        if d = 0 then fireRaise p r.state s else movePoint p .raising (some d) s
    | .clearing =>
      if r.acked then movePoint p .activeAck none s
      else s |> movePoint p .activeUnack none |> logPoint p .clearing .activeUnack
    | .raising | .activeUnack | .activeAck => s

/-- A parent that stops being active: each child whose condition is true is judged (R136). -/
def judgeChildren (p : Nat) (s : State) : State :=
  (children p).foldl (fun t c => if copyOf t c then becomeTrue c t else t) s

/-- The expiry of a clear: NORMAL for an acknowledged or not latching point, else CLEARED_UNACK, logged from the state held before (R132,
R133). -/
def fireClear (p : Nat) (old : PointState) (acked : Bool) (s : State) : State :=
  let new : PointState := if acked || pointWord s.settings p 1 == 0 then .normal else .clearedUnack
  s |> movePoint p new none |> logPoint p old new |> judgeChildren p

/-- A point's condition becoming false (R132; in RAISING, R131). -/
def becomeFalse (p : Nat) (s : State) : State :=
  let r := point s p
  let clear (acked : Bool) : State :=
    let d := pointWord s.settings p 3
    if d = 0 then fireClear p r.state acked s
    else s |> setPoint p (fun r => { r with acked := acked }) |> movePoint p .clearing (some d)
  match r.state with
  | .raising => cancelRaise p s
  | .activeUnack => clear false
  | .activeAck => clear true
  | .normal | .clearing | .clearedUnack => s

/-! ## Conditions (R128) -/

/-- The copy takes a value; in RUN a change moves the point. -/
def setCopy (p : Nat) (b : Bool) (s : State) : State :=
  if copyOf s p = b then s
  else
    let s := { s with alm := { s.alm with copies := s.alm.copies.set p b } }
    if inRun s then (if b then becomeTrue p s else becomeFalse p s) else s

/-- An owner sets or withdraws a condition. -/
def setCond (p : Nat) (b : Bool) (s : State) : State :=
  { s with conds := s.conds.set p b } |> setCopy p b

/-- The condition as its owner has it. -/
def condOf (s : State) (p : Nat) : Bool := s.conds.getD p false

/-- An owner judges a condition: in RUN it is set or withdrawn as it stands, before RUN a change alone is, and a kept condition waits for
its owner's step at RUN (R128, R142). -/
def judgeCond (p : Nat) (b : Bool) (s : State) : State := if inRun s || condOf s p != b then setCond p b s else s

/-- An owner presents its conditions to the Alarm Unit as they stand, in the order of their IDs (R31, R50, R128, R142). -/
def presentConds (ids : List Nat) (s : State) : State := ids.foldl (fun t p => setCopy p (condOf t p) t) s

/-! ## Threshold points (R129, R130) -/

/-- The input of a threshold point; none is invalid. -/
def thresholdInput (s : State) (p : Nat) : Option Int :=
  if p = Pt.fuelLow ∨ p = Pt.fuelCritical then validMean s 15
  else if p = Pt.busHigh ∨ p = Pt.busLow then validMean s 0
  else if p = Pt.battOvertemp then s.str.handed.warmest
  else if p = Pt.roomTemp then validMean s 14
  else if p = Pt.lowSoc then s.str.handed.lowSoc.map Int.ofNat
  else none

/-- A truth value judged by sense, limits and hysteresis (R129). -/
def thresholdTruth (sense : Nat) (low high hyst x : Int) (truth : Bool) : Bool :=
  match sense, truth with
  | 0, false => decide (high < x)
  | 0, true => !decide (x ≤ high - hyst)
  | 1, false => decide (x < low)
  | 1, true => !decide (low + hyst ≤ x)
  | 2, false => decide (x < low ∨ high < x)
  | 2, true => !decide (low + hyst ≤ x ∧ x ≤ high - hyst)
  | _, false => decide (low ≤ x ∧ x ≤ high)
  | _, true => !decide (x < low - hyst ∨ high + hyst < x)

/-- The truth value of threshold point p at an evaluation: kept while the input is invalid (R129, R130). -/
def thresholdJudged (s : State) (p : Nat) : Bool :=
  match thresholdInput s p with
  | some x => thresholdTruth (pointWord s.settings p 6) (pointLimit s.settings p 4) (pointLimit s.settings p 5) (pointLimit s.settings p 7) x
      (copyOf s p)
  | none => copyOf s p

/-- The threshold points, in the order of their IDs. -/
def thresholdPoints : List Nat := [Pt.fuelLow, Pt.fuelCritical, Pt.busHigh, Pt.busLow, Pt.battOvertemp, Pt.roomTemp, Pt.lowSoc]

/-- The Alarm Unit's one-second evaluation (R129). -/
def alarmEvaluation (s : State) : State :=
  thresholdPoints.foldl (fun t p => setCopy p (thresholdJudged t p) t) s

/-! ## Acknowledgement (R134, R138) -/

/-- An acknowledgement of a point: ACTIVE_UNACK to ACTIVE_ACK, CLEARED_UNACK to NORMAL. -/
def ackPoint (p : Nat) (s : State) : State :=
  match (point s p).state with
  | .activeUnack => movePoint p .activeAck none s
  | .clearedUnack => s |> movePoint p .normal none |> logPoint p .clearedUnack .normal
  | .normal | .raising | .activeAck | .clearing => s

/-- Whether an acknowledgement would change a point's state. -/
def ackable (s : State) (p : Nat) : Bool := (point s p).state.unack

/-- The report of an acknowledgement of GEN_FAIL_START to the Generator Controller (R111, R138). -/
def reportAck (s : State) : State :=
  if pointClass s Pt.genFailStart ≠ 0 ∧ s.gen.barHold then { s with gen := { s.gen with ackTaken := true } } else s

/-! ## Settings of a point (R126, R127) -/

/-- A class stored for a point that had another class before. -/
def classChanged (p : Nat) (old : Nat) (s : State) : State :=
  let new := pointClass s p
  let r := point s p
  if new = old then s
  else if new = 0 then
    (if r.state == .normal then s
     else s |> movePoint p .normal none |> logPoint p r.state .normal)
      |> fun t => if r.state.active then judgeChildren p t else t
  else if old = 0 then (if copyOf s p then becomeTrue p s else s) |> refreshOutputs
  else s |> refreshOutputs |> fun t => if new = 3 ∧ r.state.active then abortTest .abortedAlarm t else t

/-- A latching setting stored: written to 0 in CLEARED_UNACK it moves the point to NORMAL (R126). -/
def latchingStored (p : Nat) (s : State) : State :=
  if pointWord s.settings p 1 = 0 ∧ (point s p).state = .clearedUnack then
    s |> movePoint p .normal none |> logPoint p .clearedUnack .normal
  else s

/-! ## Restart (R142) -/

/-- The Alarm Unit's start at RUN: outputs from the points, then every copy that is set taken as becoming true, in ID order. -/
def alarmStart (s : State) : State :=
  (List.range 32).foldl (fun t p => if copyOf t p then becomeTrue p t else t) (refreshOutputs s)

end Sys2Proof.Machine
end

