-- ==== Sys2Proof/Machine/Roster.lean ====
section
/-! DEFINITION. The Rectifier Roster: module states, strikes, resting queue, Capacity Account, adding, shedding and rotation (03). -/

namespace Sys2Proof.Machine

/-- A command's answer: result code and detail (R170). -/
abbrev Reply := ResultCode × Nat

/-! ## Codes and levels -/

/-- State codes (R55). -/
def ModState.code : ModState → Nat
  | .absent => 0 | .resting => 1 | .starting => 2 | .online => 3 | .stopping => 4 | .failed => 5 | .barred => 6 | .service => 7

/-- MOD_INH of a state (03 §3.2). -/
def ModState.inhibit : ModState → Drive
  | .absent => .unpowered
  | .starting | .online => .released
  | .resting | .stopping | .failed | .barred | .service => .asserted

/-- Outcome codes of a swap (03 §3.6). -/
def SwapOutcome.code : SwapOutcome → Nat
  | .none => 0 | .complete => 1 | .failedStart => 2 | .abandonedSource => 3 | .abandonedService => 4 | .abandonedReset => 5

/-! ## Reading the roster -/

/-- The state of module m, ABSENT with no record. -/
def modState (s : State) (m : Nat) : ModState := ((modRec s m).map (·.state)).getD .absent

/-- The modules in a state, in index order. -/
def modulesIn (s : State) (st : ModState) : List Nat := (List.range 8).filter fun m => (modRec s m).isSome && modState s m == st

/-- STARTING and ONLINE modules. -/
def runningModules (s : State) : List Nat :=
  (List.range 8).filter fun m => modState s m == .starting || modState s m == .online

/-- Ratings of the given modules. -/
def ratingsOf (s : State) (ms : List Nat) : List Nat := ms.map (rating s.settings)

/-- The online capacity (03 §3.4). -/
def onlineCapacity (s : State) : Nat := (ratingsOf s (runningModules s)).sum

/-- The ONLINE count. -/
def onlineCount (s : State) : Nat := (modulesIn s .online).length

/-- A rating put into its place of a descending list. -/
def insertDesc (r : Nat) : List Nat → List Nat
  | [] => [r]
  | a :: l => if a ≤ r then r :: a :: l else a :: insertDesc r l

/-- Effective capacity of some ratings: without the reserve largest, × utilisation / 100 (03 §3.4). -/
def effectiveOf (ss : List Word) (ratings : List Nat) : Nat :=
  ((ratings.foldr insertDesc []).drop (reserve ss)).sum * utilisation ss / 100

/-- The effective capacity. -/
def effectiveCapacity (s : State) : Nat := effectiveOf s.settings (ratingsOf s (runningModules s))

/-- The demand. -/
def demand (s : State) : Nat := s.ros.load + s.ros.requestTotal

/-- The charge allowance: the larger of 0 and the smaller of the request total and effective capacity − load. -/
def chargeAllowance (s : State) : Nat := min s.ros.requestTotal (effectiveCapacity s - s.ros.load)

/-- A sum of ratings lies within the source capacity in force. -/
def Cap.holds (c : Cap) (n : Nat) : Bool :=
  match c with
  | .unlimited => true
  | .limited v => decide (n ≤ v)

/-- The source is dead: a capacity in force of 0. -/
def Cap.dead (c : Cap) : Bool := c == .limited 0

/-- The shelf rating: the sum of the ratings of the modules of the descriptor mask (R36). -/
def shelfRating (s : State) : Nat := (ratingsOf s ((List.range 8).filter (modulePresent s))).sum

/-- The rating of the largest ONLINE module, 0 with none (R64). -/
def largestOnline (s : State) : Nat := (ratingsOf s (modulesIn s .online)).foldl max 0

/-- The smallest rating of the present modules, 0 with none (R64). -/
def smallestPresent (s : State) : Nat :=
  match ratingsOf s ((List.range 8).filter (modulePresent s)) with
  | [] => 0
  | r :: l => l.foldl min r

/-- Run hours of module m. -/
def hoursOf (s : State) (m : Nat) : Nat := ((modRec s m).map (·.hours)).getD 0

/-- The ONLINE module with the most run hours, the higher index of two equal (R65, R69, R70). -/
def mostWorn (s : State) : Option Nat :=
  match modulesIn s .online with
  | [] => none
  | m :: l => some (l.foldl (fun b m => if hoursOf s b ≤ hoursOf s m then m else b) m)

/-- The head of the resting queue (R63). -/
def queueHead (s : State) : Option Nat := s.ros.queue.head?

/-- A module is STARTING. -/
def anyStarting (s : State) : Bool := !(modulesIn s .starting).isEmpty

/-- MOD_OK of module m (DIN0 to DIN7). -/
def modOk (s : State) (m : Nat) : Bool := dinLevel s m

/-! ## Change of state (R55, R63) -/

/-- The record of module m replaced. -/
def setMod (m : Nat) (f : ModuleRec → ModuleRec) (s : State) : State :=
  { s with ros := { s.ros with mods := updAt m (Option.map f) s.ros.mods } }

/-- A module's place in the resting queue, by run hours and then by index (R63). -/
def insertQueue (s : State) (m : Nat) : List Nat → List Nat
  | [] => [m]
  | a :: l =>
    if hoursOf s m < hoursOf s a ∨ (hoursOf s m = hoursOf s a ∧ m < a) then m :: a :: l else a :: insertQueue s m l

/-- A present module changes state: record, queue, MOD_INH, log; leaving ONLINE asks for a checkpoint (R54, R55, R63). -/
def modEnter (m : Nat) (st : ModState) (s : State) : State :=
  let old := modState s m
  let rest := s.ros.queue.filter (· != m)
  s |> setMod m (fun r => { r with state := st, entered := now s })
    |> (fun t => { t with ros := { t.ros with
          queue := if st == .resting then insertQueue t m rest else rest, inh := t.ros.inh.set m st.inhibit } })
    |> logEv .moduleState (wordOf m) (wordOf old.code) (wordOf st.code)
    |> fun t => if old == .online then checkpoint (m + 1) t else t

/-- A module enters STOPPING with a stop destination (R57). -/
def stopModule (m : Nat) (toService : Bool) (s : State) : State :=
  s |> setMod m (fun r => { r with destService := toService }) |> modEnter m .stopping

/-- A module enters STARTING: its starts rise by 1 (R56). -/
def startModule (m : Nat) (s : State) : State :=
  s |> setMod m (fun r => { r with starts := (r.starts + 1) % 65536 }) |> modEnter m .starting

/-- The conditions MODULE_FAIL and MODULE_BARRED follow the states (R55), judged once for all module changes of a step (log 99). -/
def refreshModuleConds (s : State) : State :=
  s |> judgeCond Pt.moduleFail (!(modulesIn s .failed).isEmpty) |> judgeCond Pt.moduleBarred (!(modulesIn s .barred).isEmpty)

/-! ## Rotation swap (R71 to R73) -/

def setSwap (f : Swap → Swap) (s : State) : State := { s with ros := { s.ros with swap := f s.ros.swap } }

/-- Module m is the incoming module of a swap in progress. -/
def incoming (s : State) (m : Nat) : Bool := s.ros.swap.inProgress && s.ros.swap.incoming == m

/-- A swap ends without completion (R73). -/
def abandonSwap (o : SwapOutcome) (s : State) : State :=
  s |> setSwap (fun w => { w with inProgress := false, retry := some (now s + 3600), outcome := o })
    |> logEv .rotation (wordOf s.ros.swap.incoming) (wordOf s.ros.swap.outgoing) (wordOf o.code)

/-- The incoming start is confirmed: the swap completes (R72). -/
def completeSwap (s : State) : State :=
  let out := s.ros.swap.outgoing
  let still := modState s out == .online
  (if still then stopModule out false s else s)
    |> setSwap (fun w => { w with inProgress := false, lastSwap := now s, outcome := .complete })
    |> logEv .rotation (wordOf s.ros.swap.incoming) (wordOf (if still then out else 8)) 1

/-- A swap starts (R71). -/
def startSwap (inn out : Nat) (s : State) : State :=
  s |> setSwap (fun w => { w with inProgress := true, incoming := inn, outgoing := out, retry := none }) |> startModule inn

/-! ## Strikes (R59) -/

/-- The entries still within the strike window. -/
def freshStrikes (s : State) (l : List Nat) : List Nat := l.filter fun t => decide (since s t < 86400)

/-- A strike is counted against a module; the swap that waits on it is abandoned FAILED_START (R59, R73). Cause 1 is START, 2 OUTPUT. -/
def strike (m cause : Nat) (s : State) : State :=
  let l := freshStrikes s (((modRec s m).map (·.strikes)).getD []) ++ [now s]
  s |> setMod m (fun r => { r with strikes := l })
    |> modEnter m (if 3 ≤ l.length then .barred else .failed)
    |> logEv .strike (wordOf m) (wordOf l.length) (wordOf cause)
    |> fun t => if incoming t m then abandonSwap .failedStart t else t

/-! ## Judgements (R56 to R58, R60) -/

/-- A start is confirmed (R56, R72). -/
def confirmStart (m : Nat) (s : State) : State :=
  s |> setMod m (fun r => { r with watch := 0 }) |> modEnter m .online |> fun t => if incoming t m then completeSwap t else t

/-- Seconds since module m entered its state. -/
def inStateFor (s : State) (m : Nat) : Nat := ((modRec s m).map fun r => since s r.entered).getD 0

/-- A STARTING module is judged: confirmed, expired after 30 s, or left waiting (R56). -/
def judgeStart (m : Nat) (s : State) : State :=
  if modState s m = .starting then
    if modOk s m then confirmStart m s else if 30 ≤ inStateFor s m then strike m 1 s else s
  else s

/-- The stop destination of module m. -/
def stopDestination (s : State) (m : Nat) : ModState :=
  if ((modRec s m).map (·.destService)).getD false then .service else .resting

/-- A STOPPING module is judged: confirmed, taken as stopped after 10 s, or left waiting (R57). -/
def judgeStop (m : Nat) (s : State) : State :=
  if modState s m = .stopping then
    let d := stopDestination s m
    if !modOk s m then modEnter m d s
    else if 10 ≤ inStateFor s m then s |> modEnter m d |> logEv .stopUnconfirmed (wordOf m) (wordOf d.code) 0
    else s
  else s

/-- A FAILED module whose 300 s hold has run enters RESTING (R60). -/
def endHold (m : Nat) (s : State) : State :=
  if modState s m = .failed ∧ 300 ≤ inStateFor s m then modEnter m .resting s else s

/-- An ONLINE module's MOD_OK is watched (R58). -/
def watchModule (m : Nat) (s : State) : State :=
  if modState s m = .online then
    let w := ((modRec s m).map (·.watch)).getD 0
    if s.ros.cap.dead ∨ modOk s m then setMod m (fun r => { r with watch := 0 }) s
    else if 5 ≤ w + 1 then s |> setMod m (fun r => { r with watch := w + 1 }) |> strike m 2
    else setMod m (fun r => { r with watch := w + 1 }) s
  else s

/-- An ONLINE module's run seconds (R54). -/
def ModuleRec.runSecond (r : ModuleRec) : ModuleRec :=
  if r.state = .online then
    if 360 ≤ r.residue + 1 then { r with residue := 0, hours := min 4294967295 (r.hours + 1) } else { r with residue := r.residue + 1 }
  else r

def addRunSeconds (s : State) : State := { s with ros := { s.ros with mods := s.ros.mods.map (Option.map ModuleRec.runSecond) } }

/-! ## Source capacity in force and immediate shed (R65, R58, R73) -/

/-- The STARTING module is abandoned to RESTING. -/
def abandonStart (s : State) : State :=
  match (modulesIn s .starting).head? with
  | some m => modEnter m .resting s
  | none => s

/-- ONLINE modules are stopped, most worn first, until the online capacity lies within the capacity in force. -/
def stopExcess : Nat → State → State
  | 0, s => s
  | n + 1, s =>
    if s.ros.cap.holds (onlineCapacity s) then s
    else match mostWorn s with
      | some m => s |> stopModule m false |> stopExcess n
      | none => s

/-- The immediate shed (R65). -/
def immediateShed (s : State) : State :=
  if s.ros.cap.holds (onlineCapacity s) then s
  else s |> abandonStart |> stopExcess 8 |> fun t => { t with ros := { t.ros with shedSpan := 0 } }

/-- A new source capacity in force: the watch spans restart when it leaves 0, the immediate shed follows, and a swap in progress is
abandoned when it ceases to be UNLIMITED, its incoming module back to RESTING (R58, R65, R73). -/
def takeCapacity (c : Cap) (s : State) : State :=
  if s.ros.cap = c then s
  else
    let revived := s.ros.cap.dead
    let s := { s with ros := { s.ros with cap := c } }
    let s := if revived then { s with ros := { s.ros with mods := s.ros.mods.map (Option.map fun r => { r with watch := 0 }) } } else s
    let s := immediateShed s
    if s.ros.swap.inProgress ∧ c ≠ .unlimited then s |> abandonStart |> abandonSwap .abandonedSource else s

/-! ## Adding, shedding, rotation check, shortfall (R66, R68 to R70) -/

/-- The head could be added to the running modules within the capacity in force. -/
def headFits (s : State) : Bool :=
  match queueHead s with
  | some h => s.ros.cap.holds (rating s.settings h + onlineCapacity s)
  | none => false

/-- The add rule (R68). -/
def addRule (s : State) : State :=
  if (effectiveCapacity s < demand s ∨ onlineCount s < 1 + reserve s.settings) ∧ !anyStarting s ∧ !s.ros.cap.dead ∧ headFits s then
    match queueHead s with
    | some h => startModule h s
    | none => s
  else s

/-- The conditions under which the shed span rises, and the candidate (R69). -/
def shedCandidate (s : State) : Option Nat :=
  match mostWorn s with
  | some c =>
    if !anyStarting s ∧ !s.ros.swap.inProgress ∧ 1 + reserve s.settings ≤ onlineCount s - 1 ∧
        demand s * 120 / 100 ≤ effectiveOf s.settings (ratingsOf s ((runningModules s).filter (· != c))) then some c
    else none
  | none => none

/-- The shed rule at an evaluation (R69). -/
def shedRule (s : State) : State :=
  match shedCandidate s with
  | some c =>
    if 600 ≤ s.ros.shedSpan + 1 then { s with ros := { s.ros with shedSpan := 0 } } |> stopModule c false
    else { s with ros := { s.ros with shedSpan := s.ros.shedSpan + 1 } }
  | none => { s with ros := { s.ros with shedSpan := 0 } }

/-- Time of day (00, Arithmetic). -/
def timeOfDay (t : Nat) : Nat := t % 86400
/-- Day of week (00, Arithmetic). -/
def dayOfWeek (t : Nat) : Nat := t / 86400 % 7

/-- The time of day lies in the rotation window (R70). -/
def inWindow (ss : List Word) (tod : Nat) : Bool :=
  let a := windowStart ss * 60
  let b := windowEnd ss * 60
  if a = b then true else if a < b then decide (a ≤ tod ∧ tod < b) else decide (a ≤ tod ∨ tod < b)

/-- The incoming and outgoing modules of a swap that could start now. -/
def swapPair (s : State) : Option (Nat × Nat) :=
  match queueHead s, mostWorn s with
  | some h, some m => some (h, m)
  | _, _ => none

/-- The outgoing module is worn enough beyond the incoming (R70, R74). -/
def marginMet (s : State) (p : Nat × Nat) : Bool := decide (hoursOf s p.1 + rotationMargin s.settings ≤ hoursOf s p.2)

/-- The period, the window and the retry time of a scheduled swap (R70). -/
def swapTimely (s : State) : Bool :=
  decide (rotationPeriod s.settings ≤ since s s.ros.swap.lastSwap) &&
    (s.clk.state == .unset || inWindow s.settings (timeOfDay (now s))) &&
    (match s.ros.swap.retry with | some t => decide (t ≤ now s) | none => true)

/-- The rotation check of an evaluation (R70). -/
def rotationCheck (s : State) : State :=
  if !s.ros.swap.inProgress ∧ swapTimely s ∧ !attended s ∧ s.ros.cap = .unlimited ∧ !anyStarting s then
    match swapPair s with
    | some p => if marginMet s p then startSwap p.1 p.2 s else s
    | none => s
  else s

/-- The shortfall flag is decided (R66). -/
def decideShortfall (s : State) : State :=
  { s with ros := { s.ros with shortfall := decide (effectiveCapacity s < demand s) && (s.ros.cap.dead || !headFits s) } }

/-! ## Evaluation (R67, R76, R77) -/

/-- A scan that leaves the load current mean valid has shown the roster a valid value (R64; log 84). -/
def noteLoadSeen (s : State) : State :=
  { s with ros := { s.ros with loadSeen := s.ros.loadSeen || (validMean s 1).isSome } }

/-- The load current mean is taken as the load; while it is invalid that is its last valid value, and 0 until one has been seen since a reset
that did not keep the power train (R64, R145). -/
def takeLoad (s : State) : State :=
  { s with ros := { s.ros with load := if s.ros.loadSeen || (validMean s 1).isSome then (meanOf s 1).toNat else 0 } }

/-- Aged strike entries are removed (R59). -/
def pruneStrikes (s : State) : State :=
  { s with ros := { s.ros with mods := s.ros.mods.map (Option.map fun r => { r with strikes := freshStrikes s r.strikes }) } }

/-- An operation on several modules, in rising index (log 54). -/
def eachModule (f : Nat → State → State) (ms : List Nat) (s : State) : State := ms.foldl (fun t m => f m t) s

/-- Step 1 of R67: only modules already STARTING or STOPPING are judged, a STOPPING one at an evaluation later than its entry alone (R57). -/
def rosterJudge (stopping : List Nat) (s : State) : State :=
  let s := s |> pruneStrikes |> eachModule endHold (List.range 8)
  s |> eachModule judgeStart (modulesIn s .starting) |> eachModule judgeStop stopping

/-- Steps 1 to 7 of R67, given the modules that entered STOPPING before the evaluation. -/
def rosterSteps (stopping : List Nat) (s : State) : State :=
  s |> rosterJudge stopping |> eachModule watchModule (List.range 8) |> addRunSeconds |> takeLoad |> addRule |> shedRule |> rotationCheck
    |> decideShortfall

/-- The roster's conditions presented (R55, R66), once, at the end of the evaluation (log 99). -/
def refreshRosterConds (s : State) : State := s |> refreshModuleConds |> setCond Pt.capacityShort s.ros.shortfall

/-- The roster's evaluation through a start-up that kept the power train (R76). -/
def rosterKept (s : State) : State := s |> eachModule endHold (List.range 8) |> addRunSeconds |> refreshModuleConds

/-- The roster's one-second evaluation (R67; R76 in start-up). -/
def rosterEvaluation (s : State) : State :=
  if inRun s then s |> rosterSteps (modulesIn s .stopping) |> refreshRosterConds else if trainKept s then rosterKept s else s

/-- A module with no state yet takes it from its MOD_OK (R77). -/
def firstModuleState (m : Nat) (s : State) : State :=
  if (modRec s m).isSome ∧ modState s m = .absent then modEnter m (if modOk s m then .online else .resting) s else s

/-! ## Settings and commands (R53, R61, R62, R74) -/

/-- MODULE_SERVICE (R61). -/
def moduleService (m : Nat) (s : State) : State × Reply :=
  match modRec s m with
  | none => (s, .refusedRange, 1)
  | some r =>
    match r.state with
    | .service => (s, .refusedState, 1)
    | .stopping =>
      if r.destService then (s, .refusedState, 1) else (s |> setMod m (fun r => { r with destService := true }), .done, 0)
    | .starting =>
      (s |> stopModule m true |> (fun t => if incoming t m then abandonSwap .abandonedService t else t) |> refreshModuleConds, .done, 0)
    | .online => (s |> stopModule m true |> refreshModuleConds, .done, 0)
    | .resting | .failed | .barred | .absent => (s |> modEnter m .service |> refreshModuleConds, .done, 0)

/-- MODULE_RETURN (R62). -/
def moduleReturn (m : Nat) (s : State) : State × Reply :=
  match modRec s m with
  | none => (s, .refusedRange, 1)
  | some r =>
    let s := setMod m (fun r => { r with strikes := [] }) s
    match r.state with
    | .service | .barred | .failed => (s |> modEnter m .resting |> refreshModuleConds, .done, 0)
    | .stopping => (s |> setMod m (fun r => { r with destService := false }), .done, 0)
    | .resting | .starting | .online | .absent => (s, .done, 0)

/-- ROTATE_NOW (R74). -/
def rotateNow (s : State) : State × Reply :=
  if s.ros.swap.inProgress then (s, .refusedBusy, 1)
  else if anyStarting s then (s, .refusedBusy, 2)
  else if s.ros.cap ≠ .unlimited then (s, .refusedState, 1)
  else if attended s then (s, .refusedState, 2)
  else match swapPair s with
    | none => (s, .refusedState, 3)
    | some p => if marginMet s p then (startSwap p.1 p.2 s, .started, 0) else (s, .refusedState, 4)

end Sys2Proof.Machine
end

