-- ==== Sys2Proof/Machine/Source.lean ====
section
/-! DEFINITION. The Source Controller: mains states, MAINS_FAIL, the transfer with its two drives, and the source capacity in force (04). -/

namespace Sys2Proof.Machine

/-! ## Codes and levels -/

/-- State codes (04 §4.2). -/
def MainsState.code : MainsState → Nat
  | .cleared => 0 | .absent => 1 | .qualifying => 2 | .present => 3 | .dip => 4

/-- State codes (04 §4.3). -/
def XferState.code : XferState → Nat
  | .cleared => 0 | .onMains => 1 | .opening => 2 | .open => 3 | .closingGen => 4 | .onGen => 5 | .closingMains => 6 | .fault => 7

/-- Cause codes (04 §4.3). -/
def XferCause.code : XferCause → Nat
  | .none => 0 | .openUnconfirmed => 1 | .genUnconfirmed => 2 | .mainsUnconfirmed => 3 | .mismatch => 4 | .resetMismatch => 5

/-- XFR_MOPEN is asserted in these states (04 §4.3). -/
def XferState.mopens : XferState → Bool
  | .opening | .open | .closingGen | .onGen => true
  | .cleared | .onMains | .closingMains | .fault => false

/-- XFR_GCLOSE is asserted in these states. -/
def XferState.gcloses : XferState → Bool
  | .closingGen | .onGen => true
  | .cleared | .onMains | .opening | .open | .closingMains | .fault => false

/-- A drive asserted or released. -/
def driveOf (b : Bool) : Drive := if b then .asserted else .released

/-- The feedbacks expected, K_MAINS closed and K_GEN closed. -/
def XferState.expected : XferState → Option (Bool × Bool)
  | .onMains | .closingMains => some (true, false)
  | .opening | .open => some (false, false)
  | .closingGen | .onGen => some (false, true)
  | .cleared | .fault => none

/-- The state that a confirmation enters (R85). -/
def XferState.confirms : XferState → Option XferState
  | .opening => some .open
  | .closingGen => some .onGen
  | .closingMains => some .onMains
  | .cleared | .onMains | .open | .onGen | .fault => none

/-- The cause of an unconfirmed state (R85). -/
def XferState.unconfirmed : XferState → XferCause
  | .opening => .openUnconfirmed
  | .closingGen => .genUnconfirmed
  | .closingMains => .mainsUnconfirmed
  | .cleared | .onMains | .open | .onGen | .fault => .mismatch

/-- The debounced feedbacks K_MAINS (DIN8) and K_GEN (DIN9). -/
def feedbacks (s : State) : Bool × Bool := (dinLevel s 8, dinLevel s 9)

/-- The feedbacks show what the present state expects. -/
def feedbacksAgree (s : State) : Bool := s.src.xfer.state.expected == some (feedbacks s)

/-- A frequency lies in the window of the nominal frequency in force (04 §4.1). -/
def inFreqWindow (s : State) (f : Nat) : Bool :=
  decide (freqLow s.settings (nominal60 s) ≤ f ∧ f ≤ freqHigh s.settings (nominal60 s))

def setMains (f : Mains → Mains) (s : State) : State := { s with src := { s.src with mains := f s.src.mains } }
def setXfer (f : Xfer → Xfer) (s : State) : State := { s with src := { s.src with xfer := f s.src.xfer } }

/-- A count that saturates at 65,535. -/
def satInc (n : Nat) : Nat := min 65535 (n + 1)

/-! ## Source capacity in force (R91) -/

/-- PRESENT or DIP. -/
def MainsState.carries : MainsState → Bool
  | .present | .dip => true
  | .cleared | .absent | .qualifying => false

/-- The source capacity in force (R91). -/
def sourceCapacity (s : State) : Cap :=
  match s.src.xfer.state with
  | .onMains => if s.src.mains.state.carries then .unlimited else .limited 0
  | .onGen => .limited s.gen.capacity
  | .fault => if s.src.mains.state.carries && feedbacks s == (true, false) then .unlimited else .limited 0
  | .cleared | .opening | .open | .closingGen | .closingMains => .limited 0

/-- The capacity is handed to the roster, which takes a change at once (R91; R93 in a start-up that kept the power train). -/
def handCapacity (s : State) : State := if trainRuns s then takeCapacity (sourceCapacity s) s else s

/-! ## Transfer changes (R84, R85, R89, R90) -/

/-- The transfer record in a new state: drives, confirm timer or dead time; the second at which XFR_GCLOSE falls is noted. In FAULT the
drives are those of `faultDrives`. -/
def Xfer.enter (x : Xfer) (st : XferState) (time uptime : Nat) : Xfer :=
  { x with
    state := st, entered := time, confirmTimer := st.confirms.isSome, mismatchWatch := false, deadTimer := st == .open, deadRun := false,
    transfers := if st = .onGen then satInc x.transfers else x.transfers,
    gcloseReleased := if x.gclose = .asserted ∧ st.gcloses = false then some uptime else x.gcloseReleased,
    mopen := driveOf st.mopens, gclose := driveOf st.gcloses }

/-- XFR_GCLOSE was asserted at some time in the last 3 s (R84; log 11 for the part's seconds). -/
def Xfer.recentGclose (x : Xfer) (uptime : Nat) : Bool :=
  x.gclose == .asserted || (match x.gcloseReleased with | some t => decide (uptime - t ≤ 3) | none => false)

/-- The transfer record on entry to FAULT: XFR_GCLOSE released, XFR_MOPEN released or its release left pending (R84). -/
def Xfer.enterFault (x : Xfer) (c : XferCause) (fb : Bool × Bool) (time uptime : Nat) : Xfer :=
  let pending := x.mopen == .asserted && x.recentGclose uptime
  { x.enter .fault time uptime with
    cause := c, faultMains := fb.1, faultGen := fb.2, releasePending := pending, mopen := driveOf pending }

/-- The notices of a change of the transfer state (R90). -/
def transferNotices (old new : XferState) (s : State) : State :=
  s |> (fun t => if old = .onMains then t |> cancelEqualize .cancelledMains |> abortTest .abortedMains else t)
    |> (fun t => if old = .onGen then (if new = .fault then noticeLeftForFault t else noticeLeftForOpening t) else t)
    |> (fun t => if new = .onGen then noticeOnGen t else t)
    |> handCapacity

/-- A change of the transfer state other than to FAULT. -/
def enterXfer (st : XferState) (s : State) : State :=
  let old := s.src.xfer.state
  s |> setXfer (fun x => x.enter st (now s) s.clk.uptime) |> logEv .transfer 0 (wordOf old.code) (wordOf st.code)
    |> transferNotices old st

/-- The transfer enters FAULT (R89); the notices of R90 go before TRANSFER_FAULT is set (log 63). -/
def enterFault (c : XferCause) (s : State) : State :=
  let old := s.src.xfer.state
  s |> setXfer (fun x => x.enterFault c (feedbacks s) (now s) s.clk.uptime)
    |> logEv .transfer (wordOf c.code) (wordOf old.code) (wordOf XferState.fault.code)
    |> transferNotices old .fault |> setCond Pt.transferFault true

/-- The mismatch watch of the steady states follows the feedbacks: a disagreement starts it, an agreement ends it (R85). -/
def watchFeedbacks (s : State) : State :=
  match s.src.xfer.state with
  | .onMains | .open | .onGen => setXfer (fun x => { x with mismatchWatch := !feedbacksAgree s }) s
  | .cleared | .opening | .closingGen | .closingMains | .fault => s

/-- Feedbacks as they stand, in RUN: they confirm a state that waits on them, and the watch of a steady state follows them (R85). A state
whose confirm timer ran out in start-up waits for the first evaluation (R93; log 92). -/
def judgeFeedbacks (s : State) : State :=
  if inRun s then
    (match s.src.xfer.state.confirms with
      | some st => if s.src.xfer.confirmTimer && feedbacksAgree s then enterXfer st s else s
      | none => s)
      |> watchFeedbacks
  else s

/-- A change of state with the feedbacks judged at its first moment. -/
def moveXfer (st : XferState) (s : State) : State := s |> enterXfer st |> judgeFeedbacks

/-- The transfer enters OPENING toward a side (R86, R88). -/
def startOpening (toGen fromGen : Bool) (s : State) : State :=
  s |> setXfer (fun x => { x with headingGen := toGen, leftGen := fromGen }) |> moveXfer .opening

/-- A debounced feedback has changed (R85, R91). -/
def feedbackChanged (s : State) : State := s |> judgeFeedbacks |> handCapacity

/-! ## Decisions (R86 to R88) -/

/-- The call for the generator (04 §4.3). -/
def callForGen (s : State) : Bool := genReady s && (loadForced s || (loadWanted s && s.src.mains.state != .present))

/-- The decision in OPEN once the dead time has run (R87). -/
def decideOpen (s : State) : State :=
  if inRun s && s.src.xfer.state == .open && s.src.xfer.deadRun then
    if !s.src.xfer.headingGen then moveXfer .closingMains s
    else if !callForGen s then s |> setXfer (fun x => { x with headingGen := false }) |> moveXfer .closingMains
    else if onlineCapacity s ≤ s.gen.capacity then moveXfer .closingGen s
    else s
  else s

/-- The Generator Controller's report that generator ready has become false (R87, R88). -/
def readyFalse (s : State) : State :=
  match s.src.xfer.state with
  | .open => decideOpen s
  | .onGen | .closingGen => startOpening false true s
  | .cleared | .onMains | .opening | .closingMains | .fault => s

/-- The retransfer span of an evaluation: it rises while the transfer is ON_GEN and the mains PRESENT (R88),
and saturates (log 33). -/
def countRetransfer (s : State) : State :=
  if s.src.xfer.state = .onGen ∧ s.src.mains.state = .present then
    setMains (fun m => { m with retransferSpan := satInc m.retransferSpan }) s
  else s

/-- The retransfer delay has been reached with load not forced, whatever the mains state (R88, first event). -/
def retransferDue (s : State) : Bool := decide (retransferDelay s.settings ≤ s.src.mains.retransferSpan) && !loadForced s

/-- The evaluation's check of ON_GEN (R88). -/
def checkOnGen (s : State) : State :=
  let s := countRetransfer s
  if retransferDue s || release s then startOpening false true s else s

/-! ## MAINS_FAIL (R83) -/

/-- The posting condition. -/
def mainsFailDue (s : State) : Bool :=
  let d := outageDelay s.settings
  decide (0 < d) && (s.src.mains.state == .absent || s.src.mains.state == .qualifying) &&
    decide (d ≤ since s s.src.mains.outageStart) && !pointActive s Pt.fuelCritical

/-- The withdrawal condition. -/
def mainsFailOver (s : State) : Bool :=
  (s.src.xfer.state == .onMains && s.src.mains.state == .present) || outageDelay s.settings == 0

/-- A MAINS_FAIL held as posted is withdrawn when the withdrawal condition holds. -/
def withdrawMainsFail (s : State) : State :=
  if s.src.mains.failHeld && mainsFailOver s then
    s |> setMains (fun m => { m with failHeld := false }) |> removeRequest .mainsFail Reason.withdrawn
  else s

/-- The check of MAINS_FAIL (R83). -/
def checkMainsFail (s : State) : State :=
  (if mainsFailDue s && !s.src.mains.failHeld then
    s |> setMains (fun m => { m with failHeld := true }) |> postRequest .mainsFail true 0
   else s)
    |> withdrawMainsFail

/-- A state whose confirm time is over is judged on the feedbacks: confirmed, or FAULT with its cause (R85, R93). -/
def judgeConfirm (s : State) : State :=
  match s.src.xfer.state.confirms with
  | some st => if feedbacksAgree s then moveXfer st s else enterFault s.src.xfer.state.unconfirmed s
  | none => s

/-- The Source Controller's one-second evaluation (R83, R86 to R88): MAINS_FAIL is checked before the transfer is decided (log 102). The first
one in RUN judges a kept state whose confirm timer ran out in start-up (R93; log 92). -/
def sourceEvaluation (s : State) : State :=
  if inRun s then
    let s := checkMainsFail s
    match s.src.xfer.state with
    | .onMains => if callForGen s then startOpening true false s else s
    | .open => decideOpen s
    | .onGen => checkOnGen s
    | .opening | .closingGen | .closingMains => if s.src.xfer.confirmTimer then s else judgeConfirm s
    | .cleared | .fault => s
  else s

/-! ## Timers of the transfer (R84, R85, R87, R93) -/

/-- The confirm timer expires: in RUN the state is judged on the feedbacks, in start-up the judgement waits for RUN (R85, R93). -/
def confirmExpiry (s : State) : State :=
  if s.src.xfer.state.confirms.isSome && s.src.xfer.confirmTimer then
    if inRun s then judgeConfirm s else setXfer (fun x => { x with confirmTimer := false }) s
  else s

/-- A disagreement has lasted 1 s without a break (R85). -/
def mismatchExpiry (s : State) : State :=
  if inRun s && s.src.xfer.mismatchWatch && !feedbacksAgree s then enterFault .mismatch s else s

/-- The dead time has run (R87; R93 in start-up). -/
def deadTimeExpiry (s : State) : State :=
  if s.src.xfer.state == .open && s.src.xfer.deadTimer then
    s |> setXfer (fun x => { x with deadTimer := false, deadRun := true }) |> decideOpen
  else s

/-- A pending mains release is made (R84). -/
def mainsRelease (s : State) : State :=
  if s.src.xfer.state == .fault && s.src.xfer.releasePending then
    setXfer (fun x => { x with releasePending := false, mopen := .released, gclose := .released }) s
  else s

/-- TRANSFER_RETRY (R89). -/
def transferRetry (s : State) : State × Reply :=
  if s.src.xfer.state ≠ .fault then (s, .refusedState, 1)
  else if s.src.xfer.releasePending then (s, .refusedBusy, 1)
  else if feedbacks s = (true, false) then
    (s |> setXfer (fun x => { x with cause := .none }) |> moveXfer .onMains |> setCond Pt.transferFault false, .done, 0)
  else (setXfer (fun x => { x with faultMains := (feedbacks s).1, faultGen := (feedbacks s).2 }) s, .refusedState, 2)

/-! ## Mains states (R79 to R82) -/

/-- A change of the mains state with its notices (R82), which come before the entry that its caller logs (log 101). -/
def changeMains (st : MainsState) (s : State) : State :=
  let old := s.src.mains.state
  s |> setMains (fun m => { m with state := st, entered := now s, dipTimer := none })
    |> (fun t => if st = .absent then cancelEqualize .cancelledMains t else t)
    |> (fun t => if old = .present ∧ st ≠ .present then abortTest .abortedMains t else t)
    |> handCapacity

/-- An outage begins: reason 1 is SENSE, 2 FREQUENCY, which sets MAINS_QUALITY as well (R80, R81); the notices of R82 come before
MAINS_OUTAGE (log 101). -/
def startOutage (byFrequency : Bool) (s : State) : State :=
  s |> changeMains .absent
    |> setMains (fun m => { m with
        outageStart := now s, qualifyFailures := 0, outages := satInc m.outages, retransferSpan := 0 })
    |> logEv .mainsOutage 0 (if byFrequency then 2 else 1) (wordOf s.src.mains.lastFreq)
    |> setCond Pt.mainsAbsent true
    |> fun t => if byFrequency then setCond Pt.mainsQuality true t else t

/-- A qualify span ends without qualifying (R79); the failures saturate (log 57), and the span shows its last count (log 85). -/
def qualifyFails (s : State) : State :=
  s |> changeMains .absent |> setMains (fun m => { m with qualifyFailures := satInc m.qualifyFailures })
    |> setCond Pt.mainsAbsent true

/-- The mains becomes PRESENT from QUALIFYING (R79); the qualify span shows its last count (log 85). MAINS_RETURN is logged before the two
conditions are withdrawn (log 100) and after the notices (log 101). -/
def mainsQualifies (s : State) : State :=
  let m := s.src.mains
  s |> changeMains .present |> setMains (fun m => { m with retransferSpan := 0, qualitySpan := 0, qualifyFailures := 0 })
    |> logEv .mainsReturn 0 (wordOf (min 65535 (since s m.outageStart / 60))) (wordOf m.qualifyFailures)
    |> setCond Pt.mainsAbsent false |> setCond Pt.mainsQuality false

/-- A loss of the present sense (R79, R80). -/
def senseLoss (s : State) : State :=
  let st := s.src.mains.state
  let s := setMains (fun m => { m with sense := false }) s
  if st = .present then
    s |> changeMains .dip
      |> setMains (fun m => { m with dipTimer := some (dipTolerance s.settings), retransferSpan := 0 })
  else if st = .qualifying then qualifyFails s
  else s

/-- The dip-tolerance timer expires (R80). -/
def dipExpiry (s : State) : State := if s.src.mains.state = .dip then startOutage false s else s

/-- A dip ends by a return within its tolerance (R80); the notices of R82 come before MAINS_DIP (log 101). -/
def dipReturns (width : Nat) (s : State) : State :=
  s |> changeMains .present
    |> setMains (fun m => { m with lastDipWidth := width, dips := satInc m.dips, qualitySpan := 0 })
    |> fun t => logEv .mainsDip 0 (wordOf width) (wordOf t.src.mains.dips) t

/-- A return of the present sense with its width, in ms, or in s after a LONG result (R80, R154). A dip still running whose tolerance the
absence exceeds has expired first. -/
def senseReturn (ms : Nat) (width : Nat) (seconds : Bool) (s : State) : State :=
  let outlasted := match s.src.mains.dipTimer with | some tol => decide (tol < ms) | none => false
  (if s.src.mains.state = .dip then (if outlasted then dipExpiry s else dipReturns ms s) else s)
    |> setMains fun m => { m with sense := true, absenceWidth := width, absenceSeconds := seconds }

/-- A LONG result (R154). -/
def senseLong (s : State) : State := setMains (fun m => { m with absenceWidth := 65535, absenceSeconds := false }) s

/-- A frequency result of PM2 (R79 to R81). A result outside the window ends a qualify span, also one that a lowered qualify time has
reached (log 62). -/
def sourceFrequency (f : Nat) (s : State) : State :=
  let s := setMains (fun m => { m with lastFreq := f }) s
  let inn := inFreqWindow s f
  match s.src.mains.state with
  | .absent =>
    if s.src.mains.sense then
      if inn then s |> changeMains .qualifying |> setMains (fun m => { m with qualifySpan := 0 }) else setCond Pt.mainsQuality true s
    else s
  | .qualifying =>
    if inn then
      let s := setMains (fun m => { m with qualifySpan := m.qualifySpan + 1 }) s
      if qualifyTime s.settings ≤ s.src.mains.qualifySpan then mainsQualifies s else s
    else s |> qualifyFails |> setCond Pt.mainsQuality true
  | .present =>
    if inn then setMains (fun m => { m with qualitySpan := 0 }) s
    else
      let s := setMains (fun m => { m with qualitySpan := m.qualitySpan + 1 }) s
      if qualityTime s.settings ≤ s.src.mains.qualitySpan then startOutage true s else s
  | .dip | .cleared => s

/-- The qualify span stands one result short of the qualify time. -/
def qualifyDue (s : State) : Bool :=
  s.src.mains.state == .qualifying && decide (qualifyTime s.settings ≤ s.src.mains.qualifySpan + 1)

/-- The quality span stands one result short of the quality time. -/
def qualityDue (s : State) : Bool :=
  s.src.mains.state == .present && decide (qualityTime s.settings ≤ s.src.mains.qualitySpan + 1)

/-! ## At RUN (R93, R94) -/

/-- The transfer derived at RUN (R94). -/
def deriveXfer (s : State) : State :=
  if feedbacks s = (true, false) then
    s |> setXfer (fun x => { x with state := .onMains, entered := now s, mopen := .released, gclose := .released })
      |> logEv .transfer 0 0 (wordOf XferState.onMains.code)
  else
    s |> setXfer (fun x => { x with
          state := .fault, entered := now s, cause := .resetMismatch, faultMains := (feedbacks s).1, faultGen := (feedbacks s).2,
          releasePending := false, mopen := .released, gclose := .released })
      |> logEv .transfer (wordOf XferCause.resetMismatch.code) 0 (wordOf XferState.fault.code)
      |> setCond Pt.transferFault true

/-- The mains derived at RUN (R94); MAINS_QUALITY stays withdrawn (log 106). -/
def deriveMains (s : State) : State :=
  let f := s.pm.pm2Last.getD 0
  let ok := s.pm.sense && s.pm.pm2Last.isSome && inFreqWindow s f
  let s := setMains (fun m => { m with sense := s.pm.sense, lastFreq := f, entered := now s }) s
  if ok then s |> setMains (fun m => { m with state := .present }) |> logEv .mainsReturn 0 0 0
  else
    s |> setMains (fun m => { m with state := .absent, outageStart := now s })
      |> logEv .mainsOutage 0 (if s.pm.sense then 2 else 1) 0 |> setCond Pt.mainsAbsent true

/-- The kept mains record at RUN: spans restart, and the present sense is read as PM3 has it (R93). A running dip ends when it reads
PRESENT; a sense found LOST that the record has as PRESENT is taken as a loss at RUN (log 22). -/
def resumeMains (sinceLossMs : Nat) (s : State) : State :=
  let s := setMains (fun m => { m with qualifySpan := 0, qualitySpan := 0, retransferSpan := 0 }) s
  if s.pm.sense then
    (if s.src.mains.state = .dip then dipReturns sinceLossMs s else s) |> setMains fun m => { m with sense := true }
  else if s.src.mains.sense then senseLoss s
  else s

/-- The Source Controller at RUN: the mains, whose points come first, before the transfer, a kept one's conditions presented in the order
of their IDs (R128, R142; log 19). -/
def sourceAtRun (sinceLossMs : Nat) (s : State) : State :=
  if s.st.keepTrain then
    s |> resumeMains sinceLossMs |> presentConds [Pt.mainsAbsent, Pt.mainsQuality] |> judgeFeedbacks |> presentConds [Pt.transferFault]
      |> handCapacity
  else s |> deriveMains |> deriveXfer |> watchFeedbacks |> handCapacity

/-- An outage start delay stored as 0 withdraws a MAINS_FAIL held as posted (R78). -/
def outageDelayStored (s : State) : State := if outageDelay s.settings = 0 then withdrawMainsFail s else s

end Sys2Proof.Machine
end

