-- ==== Sys2Proof/Machine/Generator.lean ====
section
/-! DEFINITION. The Generator Controller: starting, bars, running, protections, load check, fuel, service and its four commands (05). -/

namespace Sys2Proof.Machine

def setGen (f : Gen → Gen) (s : State) : State := { s with gen := f s.gen }

/-! ## Changes of state with their reports (R96, R116, R117) -/

/-- A change of state; leaving READY and LOADED is reported to the Source Controller in the same step (R96). -/
def genMove (st : GenState) (subject : Word) (s : State) : State :=
  let was := genReady s
  s |> genEnter st subject |> fun t => if was && !genReady t then readyFalse t else t

/-- The restore of every entry to STANDBY: capacity in force, derates, GEN_OVERLOAD (R116). -/
def restoreCapacity (s : State) : State :=
  s |> setGen (fun g => { g with capacity := genCapacity s.settings, derates := 0 }) |> setCond Pt.genOverload false |> handCapacity

/-- The generator enters STANDBY: from STOPPING the last run end is stamped and a checkpoint asked for (R97); the capacity is restored and
a standing request starts a series (R104, R116). -/
def enterStandby (s : State) : State :=
  let stopping := s.gen.state == .stopping
  s |> genMove .standby 0
    |> (fun t => if stopping then t |> setGen (fun g => { g with lastRunEnd := now t }) |> checkpoint 0 else t)
    |> restoreCapacity |> seriesStart

/-- An engine fault: SHUTDOWN with its cause (R117). -/
def genShutdown (c : ShutdownCause) (s : State) : State :=
  s |> setGen (fun g => { g with cause := c }) |> genMove .shutdown (wordOf c.code) |> setCond Pt.genShutdown true

/-- The stop is confirmed (R116). -/
def confirmStop (s : State) : State := if s.gen.destDisabled then genMove .disabled 0 s else enterStandby s

/-! ## Starting and bars (R105 to R110) -/

/-- Oil and coolant switches of armed protections that read faulty, oil before coolant (R117; log 67). -/
def checkSwitches (s : State) : State :=
  if inRun s && s.gen.state.running then
    if s.gen.oilArmed && dinLevel s 10 then genShutdown .oil s
    else if dinLevel s 11 then genShutdown .coolant s
    else s
  else s

/-- The 5 s of PRESTART expire (R105). -/
def prestartExpiry (s : State) : State :=
  if s.gen.state == .prestart && s.gen.timer then s |> setGen (fun g => { g with peak := 0 }) |> genEnter .cranking 0 else s

/-- Crank cut (R107): the attempt ends STARTED; the coolant protection arms with the engine running, before the result is judged for
overspeed (log 67). A bar hold kept through service has not kept the series from cranking (log 64). -/
def crankCutTaken (s : State) : State :=
  s |> genEnter .warmup 0 |> addAttempt .started s.gen.peak
    |> setGen (fun g => { g with
        starts := (g.starts + 1) % 65536, firstFailure := none, barHold := false, ackTaken := false, oilTimer := true, oilArmed := false })
    |> setCond Pt.genFailStart false |> checkSwitches

/-- The 8 s crank timer expires before crank cut (R106); in a kept start-up also after a result at or above crank cut, which is judged in RUN
alone (R124; log 78). -/
def crankExpiry (s : State) : State :=
  if s.gen.state == .cranking && s.gen.timer then s |> genEnter .crankRest 0 |> addAttempt .noFire s.gen.peak else s

/-- A series fails (R110). -/
def enterBar (s : State) : State :=
  let again := match s.gen.firstFailure with | some t => decide (since s t < 86400) | none => false
  s |> setGen (fun g => { g with
        barStart := now s, barHold := again, ackTaken := g.ackTaken && !again,
        firstFailure := if again then g.firstFailure else some (now s) })
    |> genEnter .barred (wordOfBool again) |> setCond Pt.genFailStart true

/-- The 12 s rest expires (R109). -/
def restExpiry (s : State) : State :=
  if s.gen.state == .crankRest && s.gen.timer then
    if s.gen.attempt < startAttempts s.settings then
      s |> setGen (fun g => { g with attempt := g.attempt + 1 }) |> genEnter .prestart 0
    else enterBar s
  else s

/-- The bar is over by its time and its hold (R110). -/
def barOver (s : State) : Bool :=
  s.gen.state == .barred && decide (1800 ≤ since s s.gen.barStart) && (!s.gen.barHold || s.gen.ackTaken)

/-- The check of a bar's end at an evaluation (R110). -/
def checkBar (s : State) : State :=
  if barOver s then s |> setGen (fun g => { g with barHold := false, ackTaken := false }) |> enterStandby else s

/-! ## Running (R113 to R115) -/

/-- The judgement of the warm-up (R113). -/
def judgeWarmup (s : State) : State :=
  if inFreqWindow s s.gen.lastFreq then
    s |> genEnter .ready 0
      |> setGen fun g => { g with runStart := some (now s), fuelAtStart := g.fuelUsed, fuelThisRun := 0, limitActed := false }
  else genShutdown .warmupFreq s

/-- The 60 s of WARMUP expire; in start-up the judgement waits for a PM0 result in RUN (R113, R124). -/
def warmupExpiry (s : State) : State :=
  if s.gen.state == .warmup && s.gen.timer then
    if inRun s then judgeWarmup s else setGen (fun g => { g with timer := false, warmupDue := true }) s
  else s

/-- READY is left on release at an evaluation (R114). -/
def checkRelease (s : State) : State :=
  if s.gen.state == .ready && release s then genMove .cooldown 0 s else s

/-- The 120 s of COOLDOWN expire (R115). -/
def cooldownExpiry (s : State) : State :=
  if s.gen.state == .cooldown && s.gen.timer then
    if !s.gen.requests.isEmpty || !ranFor s 1800 then genEnter .ready 0 s
    else s |> setGen (fun g => { g with destDisabled := false }) |> genEnter .stopping 0
  else s

/-- The 30 s stop timer expires before a result of 0 that confirms the stop (R116), also in a kept start-up, where no result does (R124;
log 86). -/
def stopExpiry (s : State) : State :=
  if s.gen.state == .stopping && s.gen.timer then
    s |> setGen (fun g => { g with timer := false }) |> setCond Pt.genFailStop true
  else s

/-! ## Protections and load check (R117, R118) -/

/-- The oil-pressure arming timer expires (R117; R124 in start-up). -/
def oilArming (s : State) : State :=
  if s.gen.oilTimer && s.gen.state.running then
    s |> setGen (fun g => { g with oilTimer := false, oilArmed := true }) |> checkSwitches
  else s

/-- The judgement of the rundown: every result since the entry to SHUTDOWN was above 0 (R117). -/
def judgeRundown (s : State) : State :=
  let s := setGen (fun g => { g with rundownWatch := false, rundownDue := false }) s
  if 0 < s.gen.lastFreq then setCond Pt.genFailStop true s else s

/-- 30 s of SHUTDOWN have passed with no result of 0; in start-up the judgement waits for RUN (R117, R124; log 69). -/
def rundownExpiry (s : State) : State :=
  if s.gen.state == .shutdown && s.gen.rundownWatch then
    if inRun s then judgeRundown s else if trainKept s then setGen (fun g => { g with rundownDue := true }) s else s
  else s

/-- A rundown whose 30 s ran out in start-up is judged at RUN (R117, R124; log 69). -/
def resumeRundown (s : State) : State := if s.gen.state == .shutdown && s.gen.rundownDue then judgeRundown s else s

/-- A result of 0 in SHUTDOWN ends the rundown's watch (R117). -/
def noteRundown (f : Nat) (s : State) : State :=
  if s.gen.state == .shutdown && f == 0 then setGen (fun g => { g with rundownWatch := false, rundownDue := false }) s else s

/-- The load check runs (R118). -/
def loadChecking (s : State) : Bool := s.gen.state == .loaded && decide (s.gen.loadCheckFrom ≤ now s)

/-- A derate (R118; the derates stop at 65,535: log 70); DERATE comes before GEN_OVERLOAD (log 107). -/
def derate (s : State) : State :=
  let new := max (s.gen.capacity - largestOnline s) (smallestPresent s)
  let removed := s.gen.capacity - new
  s |> setGen (fun g => { g with capacity := new, derates := satInc g.derates, droopSpan := 0 })
    |> logEv .derate 0 (wordOf new) (wordOf removed) |> setCond Pt.genOverload true |> handCapacity

/-- A result judged by the load check (R118). -/
def judgeDroop (f : Nat) (s : State) : State :=
  if loadChecking s then
    if f < droopLimit s.settings then
      if 5 ≤ s.gen.droopSpan + 1 then derate s else setGen (fun g => { g with droopSpan := g.droopSpan + 1 }) s
    else setGen (fun g => { g with droopSpan := 0 }) s
  else s

/-- A result judged for underspeed while LOADED (R117). -/
def judgeUnderspeed (f : Nat) (s : State) : State :=
  if s.gen.state == .loaded then
    if f < underspeed s.settings then
      let s := setGen (fun g => { g with underspeedSpan := g.underspeedSpan + 1 }) s
      if 10 ≤ s.gen.underspeedSpan then genShutdown .underspeed s else s
    else setGen (fun g => { g with underspeedSpan := 0 }) s
  else s

/-- A result judged for overspeed while the engine runs (R117). -/
def judgeOverspeed (f : Nat) (s : State) : State :=
  if s.gen.state.running && decide (overspeed s.settings ≤ f) then genShutdown .overspeed s else s

/-- In CRANKING a result is compared with the peak (R106). -/
def notePeak (f : Nat) (s : State) : State :=
  if s.gen.state == .cranking then setGen (fun g => { g with peak := max g.peak f }) s else s

/-- A result of 0 withdraws GEN_FAIL_STOP in whatever state the generator is (R116, R117; log 38). -/
def noteStopped (f : Nat) (s : State) : State := if f = 0 then setCond Pt.genFailStop false s else s

/-- What a result does to a cranking, a running or a shut-down engine: crank cut, the judgement of the warm-up, the trips by speed and the end
of the rundown's watch (R107, R113, R117); its conditions are GEN_FAIL_START and GEN_SHUTDOWN. Overspeed is judged before a due warm-up and
before underspeed (log 67). -/
def judgeSpeed (f : Nat) (s : State) : State :=
  match s.gen.state with
  | .cranking => if crankCut s.settings ≤ f then s |> crankCutTaken |> judgeOverspeed f else s
  | .warmup =>
    let s := judgeOverspeed f s
    if s.gen.state == .warmup && s.gen.warmupDue then judgeWarmup s else s
  | .ready | .loaded | .cooldown => s |> judgeOverspeed f |> judgeUnderspeed f
  | .shutdown => noteRundown f s
  | .cleared | .disabled | .standby | .prestart | .crankRest | .stopping | .barred => s

/-- What a result does after that: it confirms a stop, or is judged by the load check; its condition is GEN_OVERLOAD. A result that completes
the underspeed span finds the load check over and takes no derate (R116, R118; log 68). -/
def judgeStopOrDroop (f : Nat) (s : State) : State :=
  if s.gen.state == .stopping then (if f = 0 then confirmStop s else s) else judgeDroop f s

/-- A PM0 frequency result in RUN (R106, R113, R116 to R118); the conditions it changes follow the order of their IDs, GEN_FAIL_STOP between
GEN_SHUTDOWN and GEN_OVERLOAD (R128), and so before the GEN_STATE entry of a confirmed stop (log 107). -/
def genFrequency (f : Nat) (s : State) : State :=
  s |> setGen (fun g => { g with lastFreq := f }) |> notePeak f |> judgeSpeed f |> noteStopped f |> judgeStopOrDroop f

/-- The underspeed span stands one result short. -/
def underspeedDue (s : State) : Bool := s.gen.state == .loaded && decide (10 ≤ s.gen.underspeedSpan + 1)

/-- The droop span stands one result short of a derate. -/
def derateDue (s : State) : Bool := loadChecking s && decide (5 ≤ s.gen.droopSpan + 1)

/-! ## Requests and schedule (R99, R102, R103) -/

/-- The end time of a request has been reached. -/
def requestEnded (s : State) (k : RequestKind) : Bool :=
  match s.gen.requests.get k with
  | some r => decide (r.endTime ≤ now s)
  | none => false

def endIfReached (k : RequestKind) (s : State) : State := if requestEnded s k then removeRequest k Reason.ended s else s

/-- Removals at end times (R99). -/
def checkEndTimes (s : State) : State := s |> endIfReached .exercise |> endIfReached .manual

/-- The maximum run has been reached with DEPTH standing (R102), in WARMUP counted from the run start still held (log 87). -/
def runLimitDue (s : State) : Bool :=
  s.gen.state.running && !s.gen.limitActed && requested s .depth && ranFor s 28800

/-- The check of the maximum run (R102); the String Supervisor's holding ends and its depth-spent mark is set (R26). -/
def checkRunLimit (s : State) : State :=
  if runLimitDue s then
    s |> removeRequest .depth Reason.runLimit |> setGen (fun g => { g with limitActed := true })
      |> logEv .runLimit 0 (wordOf (since s (s.gen.runStart.getD 0) / 60)) 0
      |> fun t => { t with str := { t.str with depthHeld := false, depthSpent := true } }
  else s

/-- The earliest exercise slot at or after a time, none with exercise day 7 (R103). -/
def slotFrom (ss : List Word) (t : Nat) : Option Nat :=
  if 7 ≤ exerciseDay ss then none
  else some (t + (exerciseDay ss * 86400 + exerciseTime ss * 60 + 604800 - t % 604800) % 604800)

/-- The slot worked out anew at an evaluation after a new setting or SET_CLOCK (R103). -/
def refreshSlot (s : State) : State :=
  if s.gen.slotStale then setGen (fun g => { g with nextSlot := slotFrom s.settings (now s), slotStale := false }) s else s

/-- The first reason, in the rule's order, for which a reached slot is skipped; 0 for none (R103). -/
def skipReason (slot : Nat) (s : State) : Nat :=
  if s.clk.state == .unset then 1
  else if s.gen.state != .standby then 2
  else if pointActive s Pt.fuelLow || pointActive s Pt.fuelCritical then 3
  else if attended s then 4
  else if testRunning s then 5
  else if exerciseDuration s.settings ≤ since s slot then 6
  else 0

/-- A reached exercise slot is taken; a next slot that equals the clock has passed (R103; log 94). -/
def checkSlot (s : State) : State :=
  match s.gen.nextSlot with
  | some slot =>
    if slot ≤ now s then
      let reason := skipReason slot s
      (if reason = 0 then postRequest .exercise (exerciseLoaded s.settings) (now s + exerciseDuration s.settings) s
       else logEv .exerciseSkipped 0 (wordOf reason) 0 s)
        |> setGen fun g => { g with
            nextSlot := if now s < slot + 604800 then some (slot + 604800) else slotFrom s.settings (now s + 1) }
    else s
  | none => s

/-! ## Fuel (R120) -/

/-- The states in which a quantum is idle. -/
def GenState.idle : GenState → Bool
  | .standby | .barred | .disabled | .shutdown => true
  | .cleared | .prestart | .cranking | .crankRest | .warmup | .ready | .loaded | .cooldown | .stopping => false

/-- A tally quantum (R97, R120). -/
def fuelQuantum (s : State) : State :=
  s |> setGen (fun g =>
        let used := (g.fuelUsed + 1) % 4294967296
        { g with
          fuelUsed := used,
          fuelThisRun := if g.state.running && g.state != .warmup then (used + 4294967296 - g.fuelAtStart) % 4294967296 else g.fuelThisRun,
          idleQuanta := g.idleQuanta || g.state.idle })
    |> fun t => if s.gen.state.idle then logEv .fuelQuantumIdle 0 (wordOf s.gen.state.code) 0 t else t

/-- Tally quanta handed on by PM1: a block that does not run takes none (R156). -/
def takeQuanta : Nat → State → State
  | 0, s => s
  | n + 1, s => takeQuanta n (if trainRuns s then fuelQuantum s else s)

/-- The fuel level takes the AIN15 mean, which keeps its last valid value while it is invalid (R120, R145). -/
def takeFuelLevel (s : State) : State := setGen (fun g => { g with fuelLevel := (meanOf s 15).toNat }) s

/-- FUEL_FLOW_IDLE follows the idle quanta since the previous evaluation. -/
def judgeIdleFlow (s : State) : State :=
  s |> setGen (fun g => { g with idleQuanta := false }) |> setCond Pt.fuelFlowIdle s.gen.idleQuanta

/-! ## Evaluation -/

/-- A second of running (R97); the run hours stop at 4,294,967,295 (log 65). -/
def genRunSecond (s : State) : State :=
  if s.gen.state.running then
    setGen (fun g =>
      if 360 ≤ g.residue + 1 then { g with residue := 0, hours := min 4294967295 (g.hours + 1) } else { g with residue := g.residue + 1 }) s
  else s

/-- The Generator Controller's one-second evaluation (R97, R99, R102 to R104, R110, R114, R119, R120; R124 in start-up); the order
of its parts: log 66; those of a start-up that kept the power train: log 103. -/
def genEvaluation (s : State) : State :=
  if inRun s then
    s |> genRunSecond |> checkEndTimes |> checkRunLimit |> refreshSlot |> checkSlot |> checkBar |> checkRelease |> genClaimCheck
      |> takeFuelLevel |> judgeIdleFlow |> seriesStart
  else if trainKept s then s |> genRunSecond |> checkRelease |> seriesStart
  else s

/-! ## Commands (R100, R101, R112, R121, R122) -/

/-- GEN_RUN with minutes and loaded flag (R100). -/
def genRunCommand (minutes loaded : Nat) (s : State) : State × Reply :=
  if minutes < 1 ∨ 1440 < minutes then (s, .refusedRange, 1)
  else if 1 < loaded then (s, .refusedRange, 2)
  else if s.gen.state == .disabled then (s, .refusedState, 1)
  else if pointActive s Pt.fuelCritical then (s, .refusedState, 2)
  else if testRunning s then (s, .refusedBusy, 1)
  else if requested s .manual then (s, .refusedBusy, 2)
  else (postRequest .manual (loaded == 1) (now s + minutes * 60) s, .done, 0)

/-- GEN_STOP (R101). -/
def genStopCommand (s : State) : State × Reply :=
  let n := (if requested s .exercise then 1 else 0) + (if requested s .manual then 1 else 0)
  if n = 0 then (s, .refusedState, 1)
  else (s |> removeRequest .exercise Reason.genStop |> removeRequest .manual Reason.genStop, .done, n)

/-- GEN_RESET (R112). -/
def genResetCommand (s : State) : State × Reply :=
  match s.gen.state with
  | .barred =>
    (s |> setGen (fun g => { g with barHold := false, ackTaken := false, firstFailure := none }) |> setCond Pt.genFailStart false
      |> enterStandby, .done, 0)
  | .shutdown =>
    if s.gen.lastFreq = 0 then
      (s |> setGen (fun g => { g with cause := .none }) |> setCond Pt.genShutdown false |> setCond Pt.genFailStop false |> enterStandby,
        .done, 0)
    else (s, .refusedBusy, 1)
  | _ => (s, .refusedState, 1)

/-- The moves taken with the service mark set (R122); the bar that ends so keeps its hold, and its acknowledgement mark is cleared (R110). The
latch cleared leaves no cause (log 76). -/
def serviceOn (s : State) : State :=
  match s.gen.state with
  | .standby => genMove .disabled 0 s
  | .barred => s |> setGen (fun g => { g with ackTaken := false }) |> genMove .disabled 0
  | .prestart | .cranking | .crankRest => abandonSeries true s
  | .warmup | .ready | .loaded | .cooldown => s |> setGen (fun g => { g with destDisabled := true }) |> genMove .stopping 0
  | .stopping => setGen (fun g => { g with destDisabled := true }) s
  | .shutdown =>
    s |> setGen (fun g => { g with cause := .none }) |> genMove .disabled 0 |> setCond Pt.genShutdown false
  | .disabled | .cleared => s

/-- The moves taken with the service mark cleared (R122). -/
def serviceOff (s : State) : State :=
  match s.gen.state with
  | .stopping => setGen (fun g => { g with destDisabled := false }) s
  | .disabled => enterStandby s
  | _ => s

/-- GEN_SERVICE (R121). -/
def genServiceCommand (v : Nat) (s : State) : State × Reply :=
  if 1 < v then (s, .refusedRange, 1)
  else if !genFitted s then (s, .refusedState, 1)
  else if v = 1 ∧ s.gen.service then (s, .refusedState, 2)
  else if v = 0 ∧ !s.gen.service then (s, .refusedState, 3)
  else if v = 1 then (s |> setGen (fun g => { g with service := true }) |> serviceOn, .done, 0)
  else (s |> setGen (fun g => { g with service := false }) |> serviceOff, .done, 0)

/-! ## Settings and RUN (R95, R124, R125) -/

/-- A generator capacity stored (R95). -/
def genCapacityStored (s : State) : State :=
  if s.gen.derates = 0 then s |> setGen (fun g => { g with capacity := genCapacity s.settings }) |> handCapacity else s

/-- The generator at RUN after a reset that did not keep the power train; its last frequency stays 0 until PM0's first result in RUN (R125,
R156; log 95). -/
def deriveGen (s : State) : State :=
  let s := setGen (fun g => { g with capacity := genCapacity s.settings, destDisabled := false }) s
  if !genFitted s then genEnter .disabled 0 s
  else if s.pm.pm0Seen then genEnter .stopping 0 s
  else genEnter .standby 0 s

/-- The kept generator at RUN (R124; what a descriptor without a generator leaves: log 77). -/
def resumeGen (s : State) : State :=
  let s := setGen (fun g => { g with droopSpan := 0, underspeedSpan := 0 }) s
  if !genFitted s then (if s.gen.state == .disabled then s else genMove .disabled 0 s)
  else if s.gen.state == .disabled && !s.gen.service then enterStandby s
  else checkSwitches s

/-- The Generator Controller at RUN, a kept one's conditions presented in the order of their IDs (R128, R142), with the exercise slot worked
out (R103). -/
def genAtRun (s : State) : State :=
  (if s.st.keepTrain then
    s |> presentConds [Pt.genFailStart] |> resumeGen |> presentConds [Pt.genShutdown] |> resumeRundown
      |> presentConds [Pt.genFailStop, Pt.genOverload, Pt.fuelFlowIdle]
   else deriveGen s)
    |> fun t => setGen (fun g => { g with nextSlot := slotFrom t.settings (now t), slotStale := false }) t

end Sys2Proof.Machine
end

