-- ==== Sys2Proof/Machine/Strings.lean ====
section
/-! DEFINITION. The String Supervisor: charge accounting, phases, requests, claims, baseline, runaway, over-temperature, reconnects and
DEPTH (01). -/

namespace Sys2Proof.Machine

/-! ## Codes -/

/-- Phase codes (09 §9.2, string group). -/
def Phase.code : Phase → Nat
  | .absent => 0 | .isolated => 1 | .reconnecting => 2 | .discharging => 3 | .charging => 4 | .topping => 5 | .full => 6 | .fault => 7

/-- Outcome codes of a reconnect (09 §9.2). -/
def ReconnectOutcome.code : ReconnectOutcome → Nat
  | .none => 0 | .closed => 1 | .noString => 2 | .timeout => 3 | .inrush => 4 | .abandonedCmd => 5 | .abandonedAutonomy => 6
  | .abandonedReset => 7

/-- STR_ISO of a phase: open in ISOLATED and FAULT and on entry to RECONNECTING (01, §1.4). -/
def Phase.iso : Phase → Drive
  | .absent => .unpowered
  | .isolated | .fault | .reconnecting => .asserted
  | .discharging | .charging | .topping | .full => .released

/-- CHARGING or TOPPING. -/
def Phase.charges : Phase → Bool
  | .charging | .topping => true
  | .absent | .isolated | .reconnecting | .discharging | .full | .fault => false

/-- ISOLATED, RECONNECTING or FAULT (R8). -/
def Phase.open : Phase → Bool
  | .isolated | .reconnecting | .fault => true
  | .absent | .discharging | .charging | .topping | .full => false

/-! ## Derived quantities -/

/-- SoC (R5). -/
def socOf (ss : List Word) (k : Nat) (r : StringRec) : Nat := (strCapacity ss k - r.deficit) * 100 / strCapacity ss k

/-- A percentage of string k's capacity, in dA (00, Arithmetic). -/
def percentC (ss : List Word) (k pct : Nat) : Nat := strCapacity ss k * pct / 100

/-- A word of the profile in force of a string: the index is that of the last evaluation, or of the rebuilding (R1, log 58), the word's value
that of the settings now, so that a value just loaded counts at its next use, be it before the next evaluation (R4, R27, R28; log 98). -/
def StringRec.prof (r : StringRec) (ss : List Word) (w : Nat) : Nat := profWord ss r.profile w

/-- End current of string k (R6). -/
def endCurrent (ss : List Word) (k : Nat) (r : StringRec) : Nat := percentC ss k (r.prof ss 6)

/-- Temperature compensation of a profile in mV (R11). -/
def compensation (ss : List Word) (profile : Nat) (temp : Int) : Int :=
  (profComp ss profile * (max 0 (min 450 temp) - 250)).tdiv 10

/-- The compensated level of a string: profile word 0 float, 1 boost, 2 equalize (R11, R12). -/
def levelOf (ss : List Word) (w : Nat) (r : StringRec) : Int := r.prof ss w + compensation ss r.profile r.temp

/-- The mean current of string k and whether its channel gives one. -/
def strCurrent (s : State) (k : Nat) : Int := meanOf s (6 + k)
def currentBad (s : State) (k : Nat) : Bool := chanBad s (6 + k)

def setStr (k : Nat) (f : StringRec → StringRec) (s : State) : State :=
  { s with str := { s.str with recs := updAt k (Option.map f) s.str.recs } }

/-- The phase of string k. -/
def strPhase (s : State) (k : Nat) : Phase := ((strRec s k).map (·.phase)).getD .absent

/-- A field of string k's record, with a value where it has none. -/
def strGet {α : Type} (s : State) (k : Nat) (d : α) (f : StringRec → α) : α := ((strRec s k).map f).getD d

/-! ## Conditions (R8, R10, R14) -/

def anyString (s : State) (f : StringRec → Bool) : Bool := s.str.recs.any fun r => (r.map f).getD false

/-- STRING_FAULT, RUNAWAY_SUSPECT, CHARGE_INCOMPLETE and STRING_ISOLATED follow the records, in the order of their IDs, judged once for all
changes of a step (log 99). -/
def refreshStringConds (s : State) : State :=
  s |> judgeCond Pt.stringFault (anyString s fun r => r.phase == .fault)
    |> judgeCond Pt.runawaySuspect (anyString s fun r => r.runaway == 1)
    |> judgeCond Pt.chargeIncomplete (anyString s (·.incomplete))
    |> judgeCond Pt.stringIsolated (anyString s fun r => r.phase.open)

/-! ## Changes of phase (R7, R8, R18, R19) -/

/-- A phase with its drive and, for a string that was not connected, the minute count of the temperature history begun anew (R16). -/
def putPhase (k : Nat) (p : Phase) (s : State) : State :=
  s |> setStr k (fun r => { r with phase := p, tempMinute := if r.phase.connected then r.tempMinute else 0 })
    |> fun t => { t with str := { t.str with iso := t.str.iso.set k p.iso } }

/-- A change of phase, logged (R8). -/
def changePhase (k : Nat) (p : Phase) (s : State) : State :=
  let old := strPhase s k
  if old = p then s else s |> putPhase k p |> logEv .phaseChange (wordOf k) (wordOf old.code) (wordOf p.code)

/-- What a string that leaves the connected phases loses (R14, R16, R17, R19). -/
def StringRec.leaveBus (r : StringRec) : StringRec :=
  { r with
    settleSpan := 0, tempHistory := [], tempMinute := 0, runaway := 0, runawaySpan := 0, returnSpan := 0, overtempSpan := 0,
    chargeRequest := 0 }

/-- What entering FULL does to the record (R7). -/
def StringRec.enterFull (r : StringRec) (time : Nat) : StringRec :=
  { r with
    lastFull := time, deficit := if r.unknownCharge then 0 else r.deficit,
    chargeResidue := if r.unknownCharge then 0 else r.chargeResidue, unknownCharge := false, boostTimer := 0, incomplete := false,
    baselineList := [], baselineMinute := 0, baselineSum := 0, baselineSeen := 0, settleSpan := 0 }

/-- A string enters FULL (R7). -/
def enterFullPhase (k : Nat) (s : State) : State :=
  s |> changePhase k .full |> setStr k (fun r => r.enterFull (now s)) |> checkpoint (9 + k)

/-- A string enters FAULT; causes RUNAWAY 1, OVERTEMP 2, STRIKES 3 (R18; the numbers: log 30). -/
def enterStringFault (k cause : Nat) (s : State) : State :=
  s |> changePhase k .fault |> setStr k (fun r => { r.leaveBus with runaway := if cause = 1 then 2 else 0 })
    |> logEv .stringFault (wordOf k) (wordOf cause) (wordOfInt (strCurrent s k))

/-! ## Charge accounting (R3, R4) -/

/-- The discharge side of a sample (R3). -/
def StringRec.discharge (r : StringRec) (capacity amount : Nat) : StringRec :=
  let residue := r.dischargeResidue + amount
  if 36000 ≤ residue then
    { r with
      dischargeResidue := residue - 36000, deficit := if r.deficit = capacity then r.deficit else r.deficit + 1,
      throughputOut := (r.throughputOut + 1) % 65536 }
  else { r with dischargeResidue := residue }

/-- The charge side of a sample: the weighted residue (R4). -/
def StringRec.recharge (r : StringRec) (factor amount : Nat) : StringRec :=
  let residue := r.chargeResidue + amount * 100
  if 36000 * factor ≤ residue then { r with chargeResidue := residue - 36000 * factor, deficit := r.deficit - 1 }
  else { r with chargeResidue := residue }

/-- The charge side of a sample: the throughput (R4). -/
def StringRec.takeIn (r : StringRec) (amount : Nat) : StringRec :=
  let residue := r.throughputResidue + amount
  if 36000 ≤ residue then { r with throughputResidue := residue - 36000, throughputIn := (r.throughputIn + 1) % 65536 }
  else { r with throughputResidue := residue }

/-- A sample accrued (R3, R4). -/
def StringRec.accrue (r : StringRec) (capacity factor : Nat) (sample : Int) : StringRec :=
  if sample ≤ -20 then r.discharge capacity sample.natAbs
  else if 0 < sample then (r.recharge factor sample.toNat).takeIn sample.toNat
  else r

/-- The contactor of a configured string is closed (R3). -/
def StringRec.closed (r : StringRec) : Bool := r.phase.connected || (r.phase == .reconnecting && r.stage == .checking)

/-- The accounting of string k at a scan completion. -/
def accountString (k : Nat) (s : State) : State :=
  match strRec s k, (chan s (6 + k)).sample with
  | some r, some i => if r.closed then setStr k (fun r => r.accrue (strCapacity s.settings k) (r.prof s.settings 9) i) s else s
  | _, _ => s

/-- The accounting of every string: in RUN, and through a start-up that kept the String Supervisor (R3, R30). -/
def accountStrings (s : State) : State :=
  if inRun s || (starting s && s.st.keepStrings) then (List.range 4).foldl (fun t k => accountString k t) s else s

/-! ## Temperature (R2) -/

/-- The channel of string k's temperature, and whether it is AIN14 in place of the string's own. -/
def tempChannel (s : State) (k : Nat) : Nat × Bool :=
  match strTempSource s.settings k with
  | 0 => (10 + k, false)
  | 1 => (14, false)
  | _ => if chanBad s (10 + k) then (14, true) else (10 + k, false)

/-- The last valid temperature of a string whose channel fails: the kept mean of the channel that gave it, while that channel gives none
itself (R2, R145; log 84). -/
def heldTemp (s : State) (r : StringRec) : Int :=
  match r.tempChan with
  | some d => if chanBad s d then meanOf s d else r.temp
  | none => r.temp

/-- What an evaluation takes first for string k: a new profile index (R1), and its temperature, of which an invalid one keeps the last
valid value (R2). -/
def takeTemp (k : Nat) (s : State) : State :=
  let c := tempChannel s k
  let bad := chanBad s c.1
  setStr k (fun r => { r with
    profile := strProfile s.settings k, temp := if bad then heldTemp s r else meanOf s c.1, tempValid := !bad, tempFromRoom := c.2,
    tempChan := if bad then r.tempChan.filter (chanBad s) else some c.1 }) s

/-! ## Phase decision (R6) -/

/-- The tail condition. -/
def tailHolds (s : State) (k : Nat) (r : StringRec) : Bool :=
  decide (-20 < strCurrent s k ∧ strCurrent s k ≤ endCurrent s.settings k r) && (r.deficit == 0 || r.unknownCharge)

/-- The settle span after an evaluation. -/
def settleNext (s : State) (k : Nat) (r : StringRec) : Nat :=
  if r.phase = .full then r.settleSpan
  else if tailHolds s k r then min (r.settleSpan + 1) (r.prof s.settings 7)
  else 0

/-- The phase that the cases of R6 give, the settle span being `span`. -/
def phaseCase (s : State) (k : Nat) (r : StringRec) (span : Nat) : Phase :=
  if strCurrent s k ≤ -20 then .discharging
  else if r.phase = .full then (if strCapacity s.settings k / 100 < r.deficit then .charging else .full)
  else if span = r.prof s.settings 7 then .full
  else if 0 < r.deficit ∨ r.unknownCharge then .charging
  else .topping

/-- The phase of a string decided at an evaluation; a rebuilt record with no phase is decided even on a failed current channel, on the mean
as it was kept and with case 3 not met (R6, R31; log 29). -/
def judgePhase (k : Nat) (s : State) : State :=
  match strRec s k with
  | none => s
  | some r =>
    if r.phase.connected ∨ r.phase = .absent then
      if currentBad s k then
        let s := setStr k (fun r => { r with settleSpan := 0 }) s
        if r.phase = .absent then changePhase k (phaseCase s k r 0) s else s
      else
        let span := settleNext s k r
        let s := setStr k (fun r => { r with settleSpan := span }) s
        let p := phaseCase s k r span
        if p = .full ∧ r.phase ≠ .full then enterFullPhase k s else changePhase k p s
    else s

/-- The settle span of string k completes at an evaluation made now (R7). -/
def settleDue (s : State) (k : Nat) : Bool :=
  match strRec s k with
  | none => false
  | some r => r.phase.connected && r.phase != .full && !currentBad s k && phaseCase s k r (settleNext s k r) == .full

/-! ## Per-string timers and lists (R10, R13, R14, R16, R17) -/

/-- The boost timer after an evaluation of a string that charges (R10); a timer above a lowered maximum stays where it is (log 50). -/
def boostNext (s : State) (r : StringRec) : Nat :=
  if s.str.boost ∧ r.boostTimer < r.prof s.settings 8 then r.boostTimer + 1 else r.boostTimer

/-- The boost time is spent at an evaluation: the timer comes to stand at its maximum, or stands there with the flag clear (R10). -/
def boostSpent (s : State) (r : StringRec) : Bool :=
  decide (r.prof s.settings 8 ≤ boostNext s r) && (!r.incomplete || decide (r.boostTimer < boostNext s r))

/-- The boost timer, the incomplete flag and its PHASE_CHANGE (R10). -/
def countBoost (k : Nat) (s : State) : State :=
  match strRec s k with
  | none => s
  | some r =>
    if r.phase.charges then
      let spent := boostSpent s r
      let next := boostNext s r
      let s := setStr k (fun r => { r with boostTimer := next }) s
      if spent then
        s |> setStr k (fun r => { r with incomplete := true })
          |> logEv .phaseChange (wordOf k) (wordOf r.phase.code) (wordOf r.phase.code)
      else s
    else s

/-- The boost maximum is reached at an evaluation made now. -/
def boostDue (s : State) (k : Nat) : Bool :=
  match strRec s k with
  | none => false
  | some r => r.phase.charges && boostSpent s r

/-- The float baseline of a sample list (R13). -/
def baselineOf (old : Int) (l : List Int) : Int :=
  match l.filter (fun x => decide (0 < x)) with
  | [] => old
  | x :: r => max 5 (r.foldl min x)

/-- A record at the end of its baseline minute: the sample, if any valid mean was seen, joins the list (R13). -/
def StringRec.endMinute (r : StringRec) : StringRec :=
  let r' := { r with baselineMinute := 0, baselineSum := 0, baselineSeen := 0 }
  if r.baselineSeen = 0 then r'
  else
    let l := pushLast 30 r.baselineList (r.baselineSum.tdiv r.baselineSeen)
    { r' with baselineList := l, baseline := baselineOf r.baseline l }

/-- An evaluation of a FULL string's baseline minute (R13). -/
def countBaseline (k : Nat) (s : State) : State :=
  if strPhase s k = .full then
    let bad := currentBad s k
    setStr k (fun r =>
      let r := { r with
        baselineMinute := r.baselineMinute + 1, baselineSum := if bad then r.baselineSum else r.baselineSum + strCurrent s k,
        baselineSeen := if bad then r.baselineSeen else r.baselineSeen + 1 }
      if 60 ≤ r.baselineMinute then r.endMinute else r) s
  else s

/-- The minute is full at an evaluation made now. -/
def baselineDue (s : State) (k : Nat) : Bool :=
  strPhase s k == .full && decide (60 ≤ strGet s k 0 (·.baselineMinute) + 1)

/-- The level last posted to the STRINGS slot. -/
def stringsLevel (s : State) : Int := ((s.bus.claims.strings).map (·.level)).getD 0

/-- The comparisons of stage 0 (R14). -/
def suspect (s : State) (k : Nat) (r : StringRec) : Bool :=
  r.phase == .full && !currentBad s k && decide (2 * r.baseline < strCurrent s k ∧ r.baseline + 20 < strCurrent s k)

/-- The comparison that ends stage 1 (R14); a failed current channel does not meet it (log 48). -/
def subsides (s : State) (k : Nat) (r : StringRec) : Bool := !currentBad s k && decide (2 * strCurrent s k < 3 * r.baseline)

/-- Runaway stages 0 and 1 at an evaluation (R14). -/
def countRunaway (k : Nat) (s : State) : State :=
  setStr k (fun r =>
    if r.phase.connected then
      if r.runaway = 0 then
        if suspect s k r then
          if 600 ≤ r.runawaySpan + 1 then
            { r with runaway := 1, runawaySpan := 0, returnSpan := 0, stage1Level := stringsLevel s - r.prof s.settings 12 }
          else { r with runawaySpan := r.runawaySpan + 1 }
        else { r with runawaySpan := 0 }
      else if r.runaway = 1 then
        if subsides s k r then
          if 600 ≤ r.returnSpan + 1 then { r with runaway := 0, returnSpan := 0, runawaySpan := 0 }
          else { r with returnSpan := r.returnSpan + 1 }
        else { r with returnSpan := 0 }
      else r
    else r) s

/-- Stage 1 is entered at an evaluation made now. -/
def runawayDue (s : State) (k : Nat) : Bool :=
  match strRec s k with
  | none => false
  | some r => r.runaway == 0 && suspect s k r && decide (600 ≤ r.runawaySpan + 1)

/-- Stage 1 is left at an evaluation made now. -/
def returnDue (s : State) (k : Nat) : Bool :=
  match strRec s k with
  | none => false
  | some r => r.phase.connected && r.runaway == 1 && subsides s k r && decide (600 ≤ r.returnSpan + 1)

/-- The temperature rise (R16). -/
def temperatureRise (l : List Int) : Int :=
  match l with
  | [] => 0
  | x :: r => (r.getLast?.getD x) - x

/-- An evaluation of the temperature history of a connected string (R16). -/
def countTemperature (k : Nat) (s : State) : State :=
  setStr k (fun r =>
    if r.phase.connected then
      if 60 ≤ r.tempMinute + 1 then
        { r with tempMinute := 0, tempHistory := if r.tempValid then pushLast 30 r.tempHistory r.temp else r.tempHistory }
      else { r with tempMinute := r.tempMinute + 1 }
    else r) s

/-- The temperature minute is full at an evaluation made now. -/
def temperatureDue (s : State) (k : Nat) : Bool :=
  (strPhase s k).connected && decide (60 ≤ strGet s k 0 (·.tempMinute) + 1)

/-- Stage 2 of a connected string (R16); a failed current channel does not meet its comparison (log 48). -/
def judgeStage2 (k : Nat) (s : State) : State :=
  match strRec s k with
  | none => s
  | some r =>
    if r.phase.connected ∧ r.runaway = 1 ∧ !currentBad s k ∧ 4 * r.baseline < strCurrent s k ∧ 30 ≤ temperatureRise r.tempHistory then
      enterStringFault k 1 s
    else s

/-- A connected string's valid temperature lies above its limit (R17). -/
def tooHot (s : State) (r : StringRec) : Bool :=
  r.phase.connected && r.tempValid && decide ((r.prof s.settings 11 : Int) < r.temp)

/-- The over-temperature span (R17). -/
def countOvertemp (k : Nat) (s : State) : State :=
  match strRec s k with
  | none => s
  | some r =>
    if tooHot s r then
      if 60 ≤ r.overtempSpan + 1 then enterStringFault k 2 s else setStr k (fun r => { r with overtempSpan := r.overtempSpan + 1 }) s
    else setStr k (fun r => { r with overtempSpan := 0 }) s

/-- The over-temperature span completes at an evaluation made now. -/
def overtempDue (s : State) (k : Nat) : Bool :=
  match strRec s k with
  | none => false
  | some r => tooHot s r && decide (60 ≤ r.overtempSpan + 1)

/-! ## Reconnects (R20 to R24) -/

/-- RECONNECT_RESULT with an outcome (value A) and a value B (log 23). -/
def logReconnect (o : ReconnectOutcome) (b : Word) (s : State) : State := logEv .reconnectResult 0 (wordOf o.code) b s

/-- The phase from which string k began its reconnect. -/
def priorPhase (s : State) (k : Nat) : Phase := if strGet s k false (·.priorFault) then .fault else .isolated

/-- The reconnect of string k ends outside CLOSED and INRUSH: back to its prior phase, MATCH withdrawn, the outcome recorded (R21, R24). -/
def endReconnect (k : Nat) (o : ReconnectOutcome) (s : State) : State :=
  s |> changePhase k (priorPhase s k) |> setStr k (fun r => { r with stage := .none, inrushTimer := false, outcome := o })
    |> withdrawClaim .matching |> logReconnect o 0

/-- The MATCH level of string k (R21). -/
def matchLevel (s : State) (k : Nat) : Int := meanOf s (2 + k) + matchWindow s.settings / 2

/-- The match holds (R21). -/
def matchHolds (s : State) (k : Nat) : Bool :=
  !chanBad s (2 + k) && !chanBad s 0 && decide (meanOf s 0 - meanOf s (2 + k) ≤ matchWindow s.settings)

/-- The contactor is closed into CHECKING. -/
def closeString (k : Nat) (s : State) : State :=
  s |> setStr k (fun r => { r with stage := .checking, inrushTimer := true })
    |> fun t => { t with str := { t.str with iso := t.str.iso.set k .released } }

/-- The reconnect has lasted 180 s or more. -/
def reconnectOverdue (s : State) (k : Nat) : Bool := decide (180 ≤ since s (strGet s k 0 (·.reconnectStart)))

/-- A string in its MATCHING stage at an evaluation (R21); the level follows the string voltage also while only the bus voltage channel is
failed (log 49). -/
def handleMatching (k : Nat) (s : State) : State :=
  if strGet s k ReconnectStage.none (·.stage) = .matching then
    let s := if chanBad s (2 + k) then s else postIfNew .matching (matchLevel s k) s
    if matchHolds s k then closeString k s
    else if reconnectOverdue s k then s |> endReconnect k .timeout |> setCond Pt.reconnectFailed true
    else s
  else s

/-- The 2 s inrush timer of string k expires in the CHECKING stage (R23). -/
def inrushExpiry (k : Nat) (s : State) : State :=
  match strRec s k with
  | none => s
  | some r =>
    if r.stage = .checking ∧ r.inrushTimer then
      let s := setStr k (fun r => { r with stage := .none, inrushTimer := false, settleSpan := 0 }) s
      if !currentBad s k ∧ (strCurrent s k).natAbs ≤ percentC s.settings k (r.prof s.settings 13) then
        s |> setStr k (fun r => { r with strikes := 0, runaway := 0, outcome := .closed }) |> withdrawClaim .matching
          |> changePhase k (phaseCase s k r 0) |> logReconnect .closed 0 |> setCond Pt.reconnectFailed false
      else
        let n := min 2 (r.strikes + 1)
        s |> setStr k (fun r => { r with strikes := n, outcome := .inrush }) |> withdrawClaim .matching
          |> (fun t => if n = 2 ∨ r.priorFault then enterStringFault k 3 t else changePhase k .isolated t)
          |> logReconnect .inrush (wordOf n) |> setCond Pt.reconnectFailed true
    else s

/-- The reconnecting string, if any. -/
def reconnecting (s : State) : Option Nat := (List.range 4).find? fun k => strPhase s k == .reconnecting

/-- The reconnecting string at an evaluation; R21 lets there be at most one. -/
def handleReconnect (s : State) : State :=
  match reconnecting s with
  | some k => handleMatching k s
  | none => s

/-- A reconnect in progress is abandoned (R24). -/
def abandonReconnect (o : ReconnectOutcome) (s : State) : State :=
  match reconnecting s with
  | some k => endReconnect k o s
  | none => s

/-! ## What depends on all strings (R9, R11, R12, R15, R25, R26) -/

/-- A string's charge request (R9). -/
def requestOf (s : State) (k : Nat) (r : StringRec) : Nat :=
  if r.phase.charges then
    let q := percentC s.settings k (r.prof s.settings 5)
    if (r.prof s.settings 10 : Int) < r.temp then q / 2 else q
  else 0

/-- Requests worked out, and their sum handed to the roster (R9). -/
def handRequests (s : State) : State :=
  let s := (List.range 4).foldl (fun t k => setStr k (fun r => { r with chargeRequest := requestOf t k r }) t) s
  { s with ros := { s.ros with requestTotal := (s.str.recs.map fun r => (r.map (·.chargeRequest)).getD 0).sum } }

/-- The lowest of some levels. -/
def lowest : List Int → Option Int
  | [] => none
  | x :: r => some (r.foldl min x)

/-- The lowest compensated level over the connected strings (R11, R12). -/
def lowestLevel (s : State) (w : Nat) : Option Int :=
  lowest ((connectedStrings s).map fun p => levelOf s.settings w p.2)

/-- BOOST mode (R11). -/
def boostWanted (s : State) : Bool :=
  (connectedStrings s).any fun p => p.2.phase.charges && decide (p.2.boostTimer < p.2.prof s.settings 8)

/-- The STRINGS claim, posted when its mode or level differs from the last post, and always when forced (R11, R31). -/
def claimStrings (force : Bool) (s : State) : State :=
  let some_ := !(connectedStrings s).isEmpty
  let boost := some_ && boostWanted s
  let level := (lowestLevel s (if boost then 1 else 0)).getD (noBattery s.settings)
  if force || s.str.boost != boost || !claimIs .strings level s then
    { s with str := { s.str with boost := boost } } |> postClaim .strings level
  else s

/-- The warmest connected string, the lower index of two equally warm (R12). -/
def warmestString (s : State) : Option (Nat × StringRec) :=
  match connectedStrings s with
  | [] => none
  | p :: l => some (l.foldl (fun b q => if b.2.temp < q.2.temp then q else b) p)

/-- The lowest SoC of the connected strings (R5, R12). -/
def lowestSoc (s : State) : Option Nat :=
  match (connectedStrings s).map fun p => socOf s.settings p.1 p.2 with
  | [] => none
  | x :: r => some (r.foldl min x)

/-- The values of R12. -/
def handedNow (s : State) : Handed :=
  { equalizeLevel := lowestLevel s 2, boostLevel := lowestLevel s 1, lowSoc := lowestSoc s, warmest := (warmestString s).map (·.2.temp),
    connected := (connectedStrings s).map fun p => ⟨p.1, p.2.phase, p.2.profile⟩ }

/-- An SoC at or below a limit. -/
def socWithin (v : Option Nat) (limit : Nat) : Bool := (v.map fun x => decide (x ≤ limit)).getD false

/-- The values are handed on; a running test takes the SoC hand-on (R12, R46). -/
def handOn (s : State) : State :=
  let s := { s with str := { s.str with handed := handedNow s } }
  if socWithin s.str.handed.lowSoc (criticalSoc s.settings) then abortTest .abortedDepth s else s

/-- The THERMAL claim (R15). -/
def claimThermal (s : State) : State :=
  let stage1 := s.str.recs.filterMap fun r => match r with
    | some r => if r.runaway = 1 then some r.stage1Level else none
    | none => none
  let hot := if pointActive s Pt.battOvertemp then
      (warmestString s).map fun p => levelOf s.settings 0 p.2 - p.2.prof s.settings 12
    else none
  wishClaim .thermal (lowest (stage1 ++ hot.toList)) s

/-- The bus mean lies at or below the start voltage (R25). -/
def busSagging (s : State) : Bool := ((validMean s 0).map fun v => decide (v ≤ (startVoltage s.settings : Int))).getD false

/-- The 60 s bus span of an evaluation (R25). -/
def countBusSpan (s : State) : State :=
  { s with str := { s.str with busSpan := if busSagging s then min 60 (s.str.busSpan + 1) else 0 } }

/-- The DEPTH posting condition (R25). -/
def depthDue (s : State) : Bool :=
  s.src.mains.state != .present &&
    (if pointActive s Pt.fuelCritical then socWithin (lowestSoc s) (criticalSoc s.settings)
     else
      socWithin (lowestSoc s) (if s.sil.state = .autonomous then autoStartSoc s.settings else startSoc s.settings) ||
        s.str.busSpan == 60)

/-- The DEPTH withdrawal condition (R25). -/
def depthOver (s : State) : Bool :=
  s.src.mains.state == .present ||
    (!(connectedStrings s).isEmpty &&
      (connectedStrings s).all fun p => p.2.deficit == 0 || decide (stopSoc s.settings ≤ socOf s.settings p.1 p.2))

/-- The depth-spent mark is cleared (R26). -/
def clearSpent (s : State) : State :=
  if s.src.mains.state == .present || depthOver s || socWithin (lowestSoc s) (criticalSoc s.settings) then
    { s with str := { s.str with depthSpent := false } }
  else s

/-- DEPTH is withdrawn. -/
def withdrawDepth (s : State) : State :=
  { s with str := { s.str with depthHeld := false, busSpan := 0 } } |> removeRequest .depth Reason.withdrawn

/-- DEPTH is posted. -/
def postDepth (s : State) : State := { s with str := { s.str with depthHeld := true } } |> postRequest .depth true 0

/-- The DEPTH check of an evaluation (R25, R26); the evaluation that clears the depth-spent mark may itself post DEPTH (log 60). -/
def checkDepth (s : State) : State :=
  let s := clearSpent s
  if s.str.depthHeld then (if depthOver s then withdrawDepth s else s)
  else if depthDue s && !depthOver s && !s.str.depthSpent && !testRunning s then postDepth s
  else s

/-- The DEPTH check at RUN: DEPTH in a kept set is held as posted, and withdrawn when the posting condition does not hold (R31). A kept
DEPTH stands at this evaluation also where R25's withdrawal condition holds, while a new post keeps R25's guards (log 97). -/
def checkDepthAtRun (s : State) : State :=
  let s := clearSpent s
  let s := { s with str := { s.str with depthHeld := requested s .depth } }
  if s.str.depthHeld then (if depthDue s then s else withdrawDepth s) else checkDepth s

/-! ## Evaluation -/

/-- An operation on several strings, in rising index (log 54). -/
def eachString (f : Nat → State → State) (ks : List Nat) (s : State) : State := ks.foldl (fun t k => f k t) s

/-- Configured strings, in index order. -/
def configuredStrings (s : State) : List Nat := (List.range 4).filter fun k => (strRec s k).isSome

/-- Profile and temperature, phases, then timers and lists of each string. A baseline minute counts from the evaluation that enters FULL
(R13); the temperature minute takes no count at the evaluation that makes the string connected (log 24), and counts the first one that finds a
string connected between two evaluations (log 93). Stage 2 is judged before the over-temperature span (log 59). A new baseline counts at
once (log 74), and a string may pass stages 1 and 2 in one evaluation (log 73). -/
def stringTimers (s : State) : State :=
  let ks := configuredStrings s
  let connected := ks.filter fun k => (strPhase s k).connected
  s |> eachString takeTemp ks |> eachString judgePhase ks |> eachString countBoost ks |> eachString countBaseline ks
    |> eachString countRunaway ks |> eachString countTemperature connected |> eachString judgeStage2 ks |> eachString countOvertemp ks
    |> handleReconnect

/-- What all strings together ask for. -/
def stringTotals (force : Bool) (s : State) : State :=
  s |> handRequests |> claimStrings force |> handOn |> claimThermal |> countBusSpan

/-- The String Supervisor's one-second evaluation (R1 to R26). -/
def stringEvaluation (s : State) : State :=
  if inRun s then s |> stringTimers |> stringTotals false |> checkDepth |> refreshStringConds else s

/-- The kept record's spans and minute counts restart at RUN (R30). -/
def StringRec.resume (r : StringRec) : StringRec :=
  { r with
    settleSpan := 0, runawaySpan := 0, returnSpan := 0, overtempSpan := 0, baselineMinute := 0, baselineSum := 0, baselineSeen := 0,
    tempMinute := 0 }

/-- The full evaluation at RUN, whether or not the String Supervisor was kept; its conditions are then presented as they stand, in the
order of their IDs (R31, R142). -/
def stringsAtRun (s : State) : State :=
  { s with str := { s.str with recs := s.str.recs.map (Option.map StringRec.resume), busSpan := 0 } }
    |> withdrawClaim .matching |> stringTimers |> stringTotals true |> checkDepthAtRun |> presentConds [Pt.reconnectFailed]
    |> refreshStringConds

/-- The bus span completes at an evaluation made now. -/
def busSpanDue (s : State) : Bool := busSagging s && decide (60 ≤ s.str.busSpan + 1)

/-! ## Equalize completion, settings and commands (R1, R19, R20, R41) -/

/-- A completed equalize stamps each connected string and asks for its checkpoint (R41). -/
def equalizeCompleted (s : State) : State :=
  eachString (fun k t => t |> setStr k (fun r => { r with lastEqualize := now t }) |> checkpoint (9 + k)) ((connectedStrings s).map (·.1)) s

/-- A capacity stored below the deficit lowers the deficit (R1). -/
def capacityStored (k : Nat) (s : State) : State := setStr k (fun r => { r with deficit := min r.deficit (strCapacity s.settings k) }) s

/-- STRING_ISOLATE (R19). -/
def stringIsolate (k : Nat) (s : State) : State × Reply :=
  match strRec s k with
  | none => (s, .refusedRange, 1)
  | some r =>
    match r.phase with
    | .isolated => (s, .refusedState, 1)
    | .fault => (s, .refusedState, 2)
    | .reconnecting => (s |> endReconnect k .abandonedCmd |> refreshStringConds, .done, 0)
    | .discharging | .charging | .topping | .full | .absent =>
      (s |> changePhase k .isolated |> setStr k StringRec.leaveBus |> refreshStringConds, .done, 0)

/-- A reconnect begins (R20, case 8). -/
def beginReconnect (k : Nat) (s : State) : State :=
  let fromFault := strPhase s k == .fault
  s |> changePhase k .reconnecting
    |> setStr k (fun r => { r with stage := .matching, priorFault := fromFault, reconnectStart := now s, inrushTimer := false })
    |> postClaim .matching (matchLevel s k) |> refreshStringConds

/-- STRING_RECONNECT (R20). -/
def stringReconnect (k : Nat) (s : State) : State × Reply :=
  match strRec s k with
  | none => (s, .refusedRange, 1)
  | some r =>
    if r.phase.connected ∨ r.phase = .absent then (s, .refusedState, 1)
    else if (reconnecting s).isSome then (s, .refusedBusy, 1)
    else if s.bus.eq.running then (s, .refusedBusy, 2)
    else if testRunning s then (s, .refusedBusy, 3)
    else if chanBad s (2 + k) ∨ chanBad s 0 then (s, .refusedState, 3)
    else if meanOf s (2 + k) < r.prof s.settings 14 then
      (s |> setStr k (fun r => { r with outcome := .noString }) |> logReconnect .noString 0 |> setCond Pt.reconnectFailed true,
        .refusedState, 2)
    else (beginReconnect k s, .started, 0)

end Sys2Proof.Machine
end

