-- ==== Sys2Proof/Machine/Bus.lean ====
section
/-! DEFINITION. The Bus Regulator: setpoint, VREF and ILIM, the equalize with its schedule, and the reserve test (02). -/

namespace Sys2Proof.Machine

def setBus (f : Bus → Bus) (s : State) : State := { s with bus := f s.bus }
def setEq (f : EqualizeRec → EqualizeRec) (s : State) : State := { s with bus := { s.bus with eq := f s.bus.eq } }
def setTest (f : TestRec → TestRec) (s : State) : State := { s with bus := { s.bus with test := f s.bus.test } }

/-! ## Setpoint and ILIM (R34 to R36, R51) -/

/-- A step of at most the ramp rate from the setpoint toward the target (R35). -/
def rampStep (rate setpoint target : Int) : Int :=
  if setpoint < target then (if target - setpoint ≤ rate then target else setpoint + rate)
  else if setpoint - target ≤ rate then target else setpoint - rate

/-- The ramp step of an evaluation, with VREF (R35). -/
def ramp (s : State) : State :=
  match s.bus.target, s.bus.setpoint with
  | some t, some v => setSetpoint (rampStep (rampRate s.settings) v t) s
  | some t, none => setSetpoint t s
  | none, _ => s

/-- The ILIM limit in dA (R36). -/
def ilimLimit (s : State) : Nat :=
  match validMean s 1 with
  | some l => min (l.toNat + chargeAllowance s) (onlineCapacity s)
  | none => onlineCapacity s

/-- ILIM is written; released with no module present (R36). -/
def writeIlim (s : State) : State :=
  let code := if shelfRating s = 0 then none else some (min 4095 (ilimLimit s * 4095 / shelfRating s))
  setBus (fun b => { b with ilim := code }) s

/-- The first evaluation in RUN of a regulator that was not kept: the setpoint starts at the bus mean within the window, at the target while
the bus channel is failed (R51). -/
def firstSetpoint (s : State) : State :=
  match validMean s 0 with
  | some v => setSetpoint (clampWindow s.settings v) s
  | none => setSetpoint (s.bus.target.getD (clampWindow s.settings (noBattery s.settings))) s

/-- A setpoint outside the load window is set at once to the nearer limit and VREF is written from it (R34). -/
def clampSetpoint (s : State) : State :=
  match s.bus.setpoint with
  | some v => if clampWindow s.settings v = v then s else setSetpoint (clampWindow s.settings v) s
  | none => s

/-- The target is worked out anew while there is one. -/
def reclamp (s : State) : State := if s.bus.target.isSome then retarget s else s

/-- A bus min or bus max stored (R34). -/
def busWindowStored (s : State) : State := s |> reclamp |> clampSetpoint

/-! ## Equalize (R37 to R43) -/

/-- Mains PRESENT under a transfer ON_MAINS. -/
def onGoodMains (s : State) : Bool := s.src.xfer.state == .onMains && s.src.mains.state == .present

/-- The first precondition of R37 that fails; 0 when all hold. -/
def equalizeFails (scheduled : Bool) (s : State) : Nat :=
  let c := s.str.handed.connected
  if s.bus.eq.running then 1
  else if testRunning s then 2
  else if (reconnecting s).isSome then 3
  else if !onGoodMains s then 4
  else if c.isEmpty then 5
  else if !(c.all fun h => h.phase == .full) then 6
  else if !(c.all fun h => profWord s.settings h.profile 3 == 1 && decide (0 < profWord s.settings h.profile 16)) then 7
  else if pointActive s Pt.battOvertemp then 8
  else if scheduled && attended s then 9
  else 0

/-- The refusal of a failed precondition (R37). -/
def equalizeRefusal : Nat → Reply
  | 1 => (.refusedBusy, 1)
  | 2 => (.refusedBusy, 2)
  | 3 => (.refusedBusy, 3)
  | 4 => (.refusedState, 1)
  | 5 => (.refusedState, 5)
  | 6 => (.refusedState, 2)
  | 7 => (.refusedState, 3)
  | _ => (.refusedState, 4)

/-- The lowest of some numbers, 0 of none. -/
def leastOf : List Nat → Nat
  | [] => 0
  | x :: r => r.foldl min x

/-- An equalize starts (R39). -/
def startEqualize (scheduled : Bool) (s : State) : State :=
  let level := s.str.handed.equalizeLevel.getD 0
  s |> setEq (fun e => { e with
        running := true, scheduled := scheduled, startTime := now s, elapsed := 0, level := level,
        duration := leastOf (s.str.handed.connected.map fun h => profWord s.settings h.profile 16) })
    |> postClaim .equalize level

/-- The EQUALIZE claim follows the level handed on (R40). -/
def followEqualize (s : State) : State :=
  match s.str.handed.equalizeLevel with
  | some l => s |> setEq (fun e => { e with level := l }) |> postIfNew .equalize l
  | none => withdrawClaim .equalize s

/-- An evaluation of a running equalize (R40, R41). -/
def advanceEqualize (s : State) : State :=
  if s.bus.eq.running then
    let s := s |> setEq (fun e => { e with elapsed := e.elapsed + 1 }) |> followEqualize
    if s.bus.eq.duration ≤ s.bus.eq.elapsed then s |> equalizeCompleted |> endEqualize .complete else s
  else s

/-- The equalize reaches its duration at an evaluation made now. -/
def equalizeDue (s : State) : Bool := s.bus.eq.running && decide (s.bus.eq.duration ≤ s.bus.eq.elapsed + 1)

/-- The next whole hour after a time (R38). -/
def nextHour (t : Nat) : Nat := (t / 3600 + 1) * 3600

/-- An equalize is due (R38). -/
def scheduleDue (s : State) : Bool :=
  s.str.handed.connected.any fun h =>
    let interval := profWord s.settings h.profile 15
    profWord s.settings h.profile 3 == 1 && decide (0 < interval) &&
      decide (interval * 86400 ≤ since s (strGet s h.index 0 (·.lastEqualize)))

/-- The schedule check, once the clock has reached it (R38); no precondition is named while none has kept a due equalize waiting (log 61). -/
def checkSchedule (s : State) : State :=
  if s.clk.state != .unset && decide (s.bus.eq.nextCheck ≤ now s) then
    let s := setEq (fun e => { e with nextCheck := nextHour (now s) }) s
    if scheduleDue s then
      let n := equalizeFails true s
      if n = 0 then s |> setEq (fun e => { e with schedule := .dueStarted, firstFailed := 0 }) |> startEqualize true
      else setEq (fun e => { e with schedule := .dueWaiting, firstFailed := n }) s
    else setEq (fun e => { e with schedule := .notDue, firstFailed := 0 }) s
  else s

/-- After SET_CLOCK the next check is set anew at the next evaluation (R38, R176). -/
def refreshCheck (s : State) : State :=
  if s.bus.recheck then s |> setBus (fun b => { b with recheck := false }) |> setEq (fun e => { e with nextCheck := nextHour (now s) })
  else s

/-- EQUALIZE_START (R39). -/
def equalizeStart (s : State) : State × Reply :=
  if equalizeFails false s = 0 then (startEqualize false s, .started, 0) else (s, equalizeRefusal (equalizeFails false s))

/-- EQUALIZE_CANCEL (R42). -/
def equalizeCancelCommand (s : State) : State × Reply :=
  if s.bus.eq.running then (cancelEqualize .cancelledCmd s, .done, 0) else (s, .refusedState, 1)

/-! ## Reserve test (R44 to R47) -/

/-- The refusal that TEST_START meets, if any (R44). -/
def testRefusal (minutes volts : Nat) (s : State) : Option Reply :=
  let c := s.str.handed.connected
  if minutes < 10 ∨ 600 < minutes then some (.refusedRange, 1)
  else if volts < 42000 ∨ 50000 < volts then some (.refusedRange, 2)
  else if volts < testLevel s.settings then some (.refusedRange, 3)
  else if s.bus.eq.running then some (.refusedBusy, 1)
  else if testRunning s then some (.refusedBusy, 2)
  else if (reconnecting s).isSome then some (.refusedBusy, 3)
  else if !onGoodMains s then some (.refusedState, 1)
  else if s.gen.state != .standby && s.gen.state != .disabled then some (.refusedState, 2)
  else if c.isEmpty then some (.refusedState, 4)
  else if !(c.all fun h => h.phase == .full) then some (.refusedState, 3)
  else if anyActive s 3 then some (.refusedState, 5)
  else none

/-- A test starts (R44). -/
def startTest (minutes volts : Nat) (s : State) : State :=
  let level : Int := testLevel s.settings
  s |> setTest (fun _ =>
        { state := .running, startTime := now s, endTime := 0, duration := minutes * 60, endVoltage := volts, level := level,
          elapsed := 0, discharged := [0, 0, 0, 0],
          startThroughput := (List.range 4).map fun k =>
            (strRec s k).bind fun r => if r.phase.connected then some r.throughputOut else none,
          minBus := 65535 })
    |> postClaim .test level

/-- TEST_START (R44). -/
def testStartCommand (minutes volts : Nat) (s : State) : State × Reply :=
  match testRefusal minutes volts s with
  | some r => (s, r)
  | none => (startTest minutes volts s, .started, 0)

/-- TEST_ABORT (R46). -/
def testAbortCommand (s : State) : State × Reply :=
  if testRunning s then (abortTest .abortedCmd s, .done, 0) else (s, .refusedState, 1)

/-- The figures of an evaluation of a running test (R45, points 1 to 3). -/
def testFigures (s : State) : State :=
  setTest (fun t =>
    { t with
      elapsed := t.elapsed + 1,
      discharged := (List.range 4).map fun k =>
        match (t.startThroughput[k]?).bind id with
        | some d => (strGet s k d (·.throughputOut) + 65536 - d) % 65536
        | none => t.discharged.getD k 0,
      minBus := match validMean s 0 with | some v => min t.minBus v | none => t.minBus }) s

/-- An evaluation of a running test (R45, R47). -/
def advanceTest (s : State) : State :=
  if testRunning s then
    let s := testFigures s
    let low := match validMean s 0 with | some v => decide (v ≤ s.bus.test.endVoltage) | none => false
    if low then s |> endTest .failedEarly |> setCond Pt.testFailed true
    else if s.bus.test.duration ≤ s.bus.test.elapsed then s |> endTest .passed |> setCond Pt.testFailed false
    else s
  else s

/-- The test reaches its duration at an evaluation made now. -/
def testDue (s : State) : Bool := testRunning s && decide (s.bus.test.duration ≤ s.bus.test.elapsed + 1)

/-- An evaluation of a test that may end it: a request that waited then starts its series (R104; log 31). -/
def testStep (s : State) : State :=
  let was := testRunning s
  s |> advanceTest |> fun t => if was && !testRunning t then seriesStart t else t

/-! ## Evaluation -/

/-- The Bus Regulator's one-second evaluation (R35, R36, R38, R40, R45; R49 in start-up); the schedule check is its last part (log 52). -/
def busEvaluation (s : State) : State :=
  if inRun s then s |> refreshCheck |> ramp |> writeIlim |> advanceEqualize |> testStep |> checkSchedule
  else if trainKept s then ramp s
  else s

/-- The Bus Regulator at RUN: the schedule starts afresh, and a regulator that was not kept makes its first evaluation (R50, R51);
a kept one makes its first at the next BUS_REGULATOR_EVALUATION (R52; log 53). TEST_FAILED is presented (R50). -/
def busAtRun (s : State) : State :=
  let s := setEq (fun e => { e with nextCheck := nextHour (now s), schedule := .notDue, firstFailed := 0 }) s
  (if s.st.keepTrain then s else s |> firstSetpoint |> writeIlim) |> presentConds [Pt.testFailed]

end Sys2Proof.Machine
end

