-- ==== Sys2Proof/Machine/Measure.lean ====
section
/-! DEFINITION. The Measurement Scanner, the Input Conditioner and the pulse meters (07). -/

namespace Sys2Proof.Machine

/-! ## Scanner (R144 to R146) -/

/-- The range of a channel's scaled value (07 §7.1). -/
def channelRange (c : Nat) : Int × Int :=
  if c = 0 ∨ (2 ≤ c ∧ c ≤ 5) then (0, 65535)
  else if c = 1 then (0, 10000)
  else if c ≤ 9 then (-10000, 10000)
  else if c ≤ 14 then (-400, 850)
  else (0, 1000)

/-- The sample of a raw code: none for 0 and 4,095 (R144). -/
def sampleOf (ss : List Word) (c raw : Nat) : Option Int :=
  if raw = 0 ∨ raw = 4095 then none
  else
    let v : Int := (raw * gainOf ss c / 4096 : Nat) + offsetOf ss c
    some (max (channelRange c).1 (min (channelRange c).2 v))

/-- The descriptor in force gives the channel a role (R146). -/
def channelUsed (s : State) (c : Nat) : Bool :=
  s.st.desc.isSome &&
    (if c ≤ 1 ∨ c = 14 then true
     else if c ≤ 5 then decide (c - 2 < stringCount s)
     else if c ≤ 9 then decide (c - 6 < stringCount s)
     else if c ≤ 13 then decide (c - 10 < stringCount s)
     else genFitted s)

/-- The mean of a sample list (R145). -/
def listMean (l : List Int) : Int := l.sum.tdiv l.length

/-- A channel after a scan: sample, list, counts, failed flag and mean. An unused channel's counts stand still; a failed channel's mean keeps
its value (R144 to R146). -/
def Channel.step (used : Bool) (x : Option Int) (c : Channel) : Channel :=
  let samples := match x with | some v => pushLast 10 c.samples v | none => c.samples
  let valid := if used then (if x.isSome then min 10 (c.valid + 1) else 0) else c.valid
  let invalid := if used then (if x.isSome then 0 else min 10 (c.invalid + 1)) else c.invalid
  let failed := if c.failed then !decide (valid = 10) else used && decide (invalid = 10)
  { samples := samples, sample := x, mean := if failed ∨ samples.isEmpty then c.mean else listMean samples, invalid := invalid,
    valid := valid, failed := failed }

/-- Channel c takes its raw code of a scan; a failure or recovery is logged (R146). -/
def scanChannel (c raw : Nat) (s : State) : State :=
  let old := chan s c
  let new := old.step (channelUsed s c) (sampleOf s.settings c raw)
  let s := { s with scan := { s.scan with chans := s.scan.chans.set c new } }
  if new.failed = old.failed then s
  else
    { s with scan := { s.scan with lastFailed := if new.failed then some c else s.scan.lastFailed } }
      |> logEv .channelState (wordOf c) (wordOfBool new.failed) (wordOf raw)

/-- The failed-channel map holds a channel. -/
def anyFailed (s : State) : Bool := s.scan.chans.any (·.failed)

/-- A scan completion, before it is handed on (R144): the channels in rising number (log 104), then SENSOR_FAIL once, after the sixteenth
(R146; log 79). -/
def scanAll (raw : List Nat) (s : State) : State :=
  (List.range 16).foldl (fun t c => scanChannel c (raw.getD c 0) t) s |> fun t => setCond Pt.sensorFail (anyFailed t) t

/-- A scan completion: the scanner, then its consumers, and SETTLE's count (R3, R144, R187). -/
def scanCompletion (raw : List Nat) (s : State) : State :=
  if s.scan.on then
    s |> scanAll raw |> noteLoadSeen |> accountStrings
      |> fun t => if t.st.state = .settle then { t with st := { t.st with settleScans := t.st.settleScans + 1 } } else t
  else s

/-! ## Inputs (R148 to R151) -/

/-- The edge mode names an edge to the new level (R149). -/
def edgeNamed (mode : Nat) (level : Bool) : Bool := mode == 2 || (if level then mode == 1 else mode == 0)

/-- The point of an edge alarm: DIN13 DOOR_OPEN, DIN14 SURGE_ARRESTER, DIN15 USER_INPUT. -/
def edgePoint (n : Nat) : Option Nat :=
  if n = 13 then some Pt.doorOpen else if n = 14 then some Pt.surgeArrester else if n = 15 then some Pt.userInput else none

/-- A named edge: logged, and the condition of an edge alarm set, but in COMMISSIONING (R149, R150, R156). -/
def namedEdge (n : Nat) (level : Bool) (deb : Nat) (s : State) : State :=
  { s with inp := { s.inp with lastNamed := s.inp.lastNamed.set n (some s.clk.uptime) } }
    |> logEv .inputEdge (wordOf n) (wordOfBool level) (wordOf deb)
    |> fun t => match edgePoint n with
      | some p => if inCommissioning t then t else setCond p true t
      | none => t

/-- The users of an input take its new level at once (R149). -/
def handLevel (n : Nat) (s : State) : State :=
  if n = 8 ∨ n = 9 then feedbackChanged s else if n = 10 ∨ n = 11 then checkSwitches s else s

/-- An edge: the debounced level takes the line's level, and the edge is logged before its users take it (R148, R149; log 80). -/
def inputEdge (n : Nat) (level : Bool) (deb : Nat) (s : State) : State :=
  { s with inp := { s.inp with
      levels := s.inp.levels.set n level, timers := s.inp.timers.set n none, lastEdge := s.inp.lastEdge.set n (some s.clk.uptime) } }
    |> (fun t => if edgeNamed (edgeModeOf s.settings n) level then namedEdge n level deb t else t)
    |> handLevel n

/-- A change of an input's line (R148). -/
def lineChange (n : Nat) (high : Bool) (s : State) : State :=
  if s.inp.lines.getD n false = high then s
  else
    let s := { s with inp := { s.inp with lines := s.inp.lines.set n high } }
    let d := debounceOf s.settings n
    if high = dinLevel s n then { s with inp := { s.inp with timers := s.inp.timers.set n none } }
    else if d = 0 then inputEdge n high 0 s
    else { s with inp := { s.inp with timers := s.inp.timers.set n (some d) } }

/-- The debounce timer of an input expires (R148). -/
def debounceEnd (n : Nat) (s : State) : State :=
  match (s.inp.timers[n]?).bind id with
  | some d => inputEdge n (s.inp.lines.getD n false) d s
  | none => s

/-- An input has been quiet for a delay, by its edge mode (R150; log 11 for the part's seconds). -/
def inputQuiet (s : State) (n delay : Nat) : Bool :=
  let still := match (s.inp.lastEdge[n]?).bind id with | some t => decide (delay ≤ s.clk.uptime - t) | none => true
  match edgeModeOf s.settings n with
  | 0 => dinLevel s n && still
  | 1 => !dinLevel s n && still
  | _ => still

/-- An edge alarm's condition is withdrawn once its input is quiet for the clear delay of its point (R150). -/
def edgeAlarmCheck (n : Nat) (s : State) : State :=
  match edgePoint n with
  | some p => if condOf s p && inputQuiet s n (pointWord s.settings p 3) then setCond p false s else s
  | none => s

/-- The Input Conditioner's one-second evaluation (R150, R151). -/
def inputEvaluation (s : State) : State :=
  { s with inp := { s.inp with shown := s.inp.levels } } |> edgeAlarmCheck 13 |> edgeAlarmCheck 14 |> edgeAlarmCheck 15

/-! ## Pulse meters (R152 to R154) -/

/-- A frequency result; the span of 0 µs of two or more edges gives a free value (R152; log 13). -/
def frequencyOf (edges spanUs : Nat) : Nat :=
  if edges < 2 then 0
  else min 10000 (if spanUs = 0 then Config.frequencyOfZeroSpan edges else (edges - 1) * 100000000 / spanUs)

/-- A PM0 result: judged in RUN; through a start-up that kept the power train only noted (R124, R152, R156). -/
def pm0Result (f : Nat) (s : State) : State :=
  let s := { s with pm := { s.pm with pm0Seen := s.pm.pm0Seen || decide (0 < f) } }
  if inRun s then genFrequency f s
  else if trainKept s then s |> setGen (fun g => { g with lastFreq := f }) |> notePeak f |> noteRundown f
  else s

/-- A PM2 result: judged in RUN; through a start-up that kept the power train recorded as the last frequency (R80, R93, R152, R156). -/
def pm2Result (f : Nat) (s : State) : State :=
  let s := { s with pm := { s.pm with pm2Last := some f } }
  if inRun s then sourceFrequency f s
  else if trainKept s then setMains (fun m => { m with lastFreq := f }) s
  else s

/-- A rising edge of PIN1 (R153). -/
def tallyEdge (s : State) : State :=
  if s.pm.counting then
    if tallyQuantumOf s.settings ≤ s.pm.tally + 1 then { s with pm := { s.pm with tally := 0 } } |> takeQuanta 1
    else { s with pm := { s.pm with tally := s.pm.tally + 1 } }
  else s

/-- The next edge completes a quantum. -/
def tallyDue (s : State) : Bool := s.pm.counting && decide (tallyQuantumOf s.settings ≤ s.pm.tally + 1)

/-- A tally quantum stored: one quantum for each whole new quantum that the count holds (R153). -/
def tallyQuantumStored (s : State) : State :=
  let q := tallyQuantumOf s.settings
  let n := s.pm.tally / q
  { s with pm := { s.pm with tally := s.pm.tally % q } } |> takeQuanta n

/-- The falling edge of the mains-present sense (R154). -/
def pm3Loss (s : State) : State :=
  if s.pm.sense then
    { s with pm := { s.pm with sense := false, long := false, width := 0 } } |> fun t => if inRun t then senseLoss t else t
  else s

/-- The LONG result (R154). -/
def pm3Long (s : State) : State :=
  if !s.pm.sense && !s.pm.long then
    { s with pm := { s.pm with long := true, width := 65 } } |> fun t => if inRun t then senseLong t else t
  else s

/-- The rising edge of the mains-present sense, `ms` after the falling edge (R154). -/
def pm3Return (ms : Nat) (s : State) : State :=
  if s.pm.sense then s
  else
    let s := if 65535 ≤ ms then pm3Long s else s
    let long := s.pm.long
    let width := if long then min 65535 (max 65 (ms / 1000)) else ms
    { s with pm := { s.pm with sense := true, long := false, width := width } }
      |> fun t => if inRun t then senseReturn (if long then max 65535 ms else ms) width long t else t

/-- The seconds count of a LONG absence rises with the part's seconds (R154). -/
def pm3Second (s : State) : State :=
  if !s.pm.sense && s.pm.long then { s with pm := { s.pm with width := min 65535 (s.pm.width + 1) } } else s

end Sys2Proof.Machine
end

