-- ==== Sys2Proof/Machine/Silence.lean ====
section
/-! DEFINITION. The Silence Monitor: heartbeats, grace, autonomy and its takeover (10 §10.4). -/

namespace Sys2Proof.Machine

/-- State codes (10 §10.4). -/
def SilenceState.code : SilenceState → Nat
  | .supervised => 0 | .grace => 1 | .autonomous => 2

/-- A change of the silence state, with its log entry and HOST_SILENT (R189). -/
def silenceTo (st : SilenceState) (s : State) : State :=
  { s with sil := { s.sil with state := st } }
    |> logEv .silenceState 0 (wordOf s.sil.state.code) (wordOf st.code) |> setCond Pt.hostSilent (st != .supervised)

/-- A heartbeat: the count restarts and GRACE ends (R189). -/
def heartbeat (s : State) : State :=
  { s with sil := { s.sil with count := 0 } } |> fun t => if t.sil.state = .grace then silenceTo .supervised t else t

/-- The Silence Monitor's one-second evaluation, in RUN (R189). -/
def silenceEvaluation (s : State) : State :=
  if inRun s then
    let s := { s with sil := { s.sil with count := min 4294967295 (s.sil.count + 1) } }
    let limit := silenceLimit s.settings
    match s.sil.state with
    | .supervised => if 0 < limit ∧ limit * 10 ≤ s.sil.count then silenceTo .grace s else s
    | .grace => if limit = 0 then silenceTo .supervised s else s
    | .autonomous => s
  else s

/-- The silence limit is reached at an evaluation made now. -/
def silenceDue (s : State) : Bool :=
  inRun s && s.sil.state == .supervised && decide (0 < silenceLimit s.settings ∧ silenceLimit s.settings * 10 ≤ s.sil.count + 1)

/-- The takeover (R190). -/
def takeover (s : State) : State :=
  s |> abandonReconnect .abandonedAutonomy |> cancelEqualize .cancelledAutonomy |> abortTest .abortedAutonomy
    |> removeRequest .manual Reason.autonomy |> refreshStringConds

/-- The 120 s grace timer expires (R189). -/
def graceExpires (s : State) : State := if s.sil.state = .grace then s |> silenceTo .autonomous |> takeover else s

/-- RESUME (R190). -/
def resumeCommand (s : State) : State × Reply :=
  if s.sil.state = .autonomous then (silenceTo .supervised s, .done, 0) else (s, .refusedState, 1)

end Sys2Proof.Machine
end

