-- ==== Sys2Proof/Machine/LiveArea.lean ====
section
/-! DEFINITION. The live area as the live-record server answers it, the freeze snapshot, and a host read (09 §9.2, R157, R158, R172,
R173). -/

namespace Sys2Proof.Machine

/-! ## Codes -/

/-- Result codes (R170). -/
def ResultCode.code : ResultCode → Nat
  | .none => 0 | .done => 1 | .started => 2 | .refusedState => 3 | .refusedBusy => 4 | .refusedRange => 5 | .refusedLocked => 6
  | .refusedUnknown => 7 | .refusedAutonomy => 8

/-- Start-up state codes (10 §10.1). -/
def StartState.code : StartState → Nat
  | .loadAnchor => 1 | .loadSettings => 2 | .loadCounters => 3 | .logScan => 4 | .settle => 5 | .run => 6 | .commissioning => 7

/-- Reset kind codes (10 §10.1). -/
def ResetKind.code : ResetKind → Nat
  | .powerOn => 1 | .pin => 2 | .soft => 3

/-- Freeze state codes (R173). -/
def FreezeState.code : FreezeState → Nat
  | .released => 0 | .frozen => 1 | .expired => 2

/-- Clock state codes (09 §9.2). -/
def ClockState.code : ClockState → Nat
  | .unset => 0 | .estimated => 1 | .set => 2

/-- Slot codes: 0 STRINGS to 5 TEST in claim-table order, 6 WINDOW; 0 while no slot governs (log 18). -/
def Governing.code : Option Governing → Nat
  | some (.slot .strings) => 0
  | some (.slot .equalize) => 1
  | some (.slot .generator) => 2
  | some (.slot .matching) => 3
  | some (.slot .thermal) => 4
  | some (.slot .test) => 5
  | some .window => 6
  | none => 0

/-- Schedule state codes (09 §9.2). -/
def ScheduleState.code : ScheduleState → Nat
  | .notDue => 0 | .dueWaiting => 1 | .dueStarted => 2

/-- Test state codes (09 §9.2). -/
def TestState.code : TestState → Nat
  | .none => 0
  | .running => 15
  | .ended o => o.code

/-! ## Building words -/

/-- A mark map: bit n for item n (09 §9.2). -/
def markMap (f : Nat → Bool) : Word := BitVec.ofBoolListLE ((List.range 16).map f) |>.setWidth 16

/-- A 32-bit value as two words. -/
def pairWords (n : Nat) : List Word := [hiWord n, loWord n]

/-- Word i of a group, 0 where none is listed. -/
def wordAt (l : List Word) (i : Nat) : Word := l.getD i 0

/-- An invalid or released value reads 0. -/
def natOr0 (v : Option Nat) : Word := wordOf (v.getD 0)

def intOr0 (v : Option Int) : Word := wordOfInt (v.getD 0)

/-! ## Plant summary -/

/-- Words for one slot of the claim table: level, posted time; 0 for an empty slot (log 72). -/
def slotWords (c : Option Claim) : List Word :=
  match c with
  | some c => wordOfInt c.level :: pairWords c.time
  | none => [0, 0, 0]

def claimMap (c : Claims) : Word :=
  markMap fun n => ((raisingSlots ++ ceilingSlots)[n]?.bind fun k => c.get k).isSome

/-- Words 4 to 15 of page 0. -/
def summaryPage0 (s : State) : List Word :=
  [wordOfInt (meanOf s 1), intOr0 s.bus.target, wordOf (Governing.code s.bus.governing), intOr0 s.bus.setpoint, natOr0 s.bus.vref,
   natOr0 s.bus.ilim, markMap fun c => (chan s c).failed, wordOf (s.scan.lastFailed.getD 65535), wordOfBool s.str.boost,
   wordOf (s.str.handed.lowSoc.getD 65535), wordOfInt (s.str.handed.warmest.getD (-32768)), wordOfBool s.ros.shortfall]

/-- Words 4 to 15 of pages 1 and 2. -/
def summaryClaims (s : State) (ks : List Slot) : List Word :=
  claimMap s.bus.claims :: ks.flatMap (fun k => slotWords (s.bus.claims.get k)) ++
    [wordOf (Governing.code s.bus.governing), intOr0 s.bus.target]

/-- Words 4 to 15 of page 3, the equalize record (IDLE 0, RUNNING 1: log 71). -/
def summaryEqualize (e : EqualizeRec) : List Word :=
  [wordOfBool e.running, wordOfBool e.scheduled] ++ pairWords e.startTime ++
    [wordOf e.duration, wordOf e.elapsed, wordOfInt e.level, wordOf e.schedule.code, wordOf e.firstFailed, wordOf e.outcome.code] ++
    pairWords e.endTime

/-- Words 4 to 13 of page 4, the test record. -/
def summaryTest (t : TestRec) : List Word :=
  [wordOf t.state.code] ++ pairWords t.startTime ++ pairWords t.endTime ++
    [wordOf t.duration, wordOfInt t.endVoltage, wordOfInt t.level, wordOf t.elapsed, wordOfInt t.minBus]

/-- The plant summary in RUN, offsets 1 to 15. -/
def summaryWords (s : State) : List Word :=
  let page := s.cmd.pages.summary
  [wordOf page, markMap fun n => s.inp.shown.getD n false, wordOfInt (meanOf s 0)] ++
    (match page with
     | 0 => summaryPage0 s
     | 1 => summaryClaims s raisingSlots
     | 2 => summaryClaims s ceilingSlots
     | 3 => summaryEqualize s.bus.eq
     | _ => summaryTest s.bus.test)

/-- The plant summary in COMMISSIONING: DIN levels and bus mean on every page, and words 4, 10 and 11 of page 0 (R172). -/
def summaryCommissioning (s : State) : List Word :=
  let page := s.cmd.pages.summary
  [wordOf page, markMap fun n => s.inp.shown.getD n false, wordOfInt (meanOf s 0)] ++
    (if page = 0 then
      [wordOfInt (meanOf s 1), 0, 0, 0, 0, 0, markMap fun c => (chan s c).failed, wordOf (s.scan.lastFailed.getD 65535)]
     else [])

/-! ## Strings, modules, Capacity Account -/

def ReconnectStage.code : ReconnectStage → Nat
  | .none => 0 | .matching => 1 | .checking => 2

/-- The 16 words of string k. -/
def stringWords (s : State) (k : Nat) : List Word :=
  match strRec s k with
  | none => []
  | some r =>
    [wordOf r.phase.code, wordOf r.stage.code, wordOf r.deficit, wordOf (socOf s.settings k r), wordOfInt (meanOf s (2 + k)),
     wordOfInt (meanOf s (6 + k)), wordOfInt r.temp,
     markMap fun b => (b == 0 && r.unknownCharge) || (b == 1 && r.tempFromRoom) || (b == 2 && r.incomplete) || (b == 3 && !r.tempValid),
     wordOf r.chargeRequest, wordOfInt r.baseline, wordOf r.boostTimer, wordOf r.runaway, wordOf r.strikes, wordOf r.outcome.code,
     wordOf (s.bus.test.discharged.getD k 0), wordOf r.settleSpan]

/-- The 8 words of module m. -/
def moduleWords (s : State) (m : Nat) : List Word :=
  match modRec s m with
  | none => []
  | some r =>
    [wordOf r.state.code, wordOf (stopDestination s m).code] ++ pairWords r.hours ++ [wordOf r.starts, wordOf r.strikes.length] ++
      pairWords r.entered

/-- The source capacity as shown: UNLIMITED as 65,535. -/
def Cap.shown : Cap → Nat
  | .unlimited => 65535
  | .limited v => v

/-- The Capacity Account (the swap's IDLE 0, IN_PROGRESS 1: log 71; the resting queue's unused bytes read 0: log 72). -/
def capacityWords (s : State) : List Word :=
  let q := fun i => s.ros.queue.getD i 0
  [wordOf s.ros.cap.shown, wordOf (onlineCapacity s), wordOf (onlineCount s), wordOf (effectiveCapacity s), wordOf s.ros.load,
   wordOf s.ros.requestTotal, wordOf (demand s), wordOf (chargeAllowance s), wordOf s.ros.queue.length, bytesWord (q 0) (q 1),
   bytesWord (q 2) (q 3), bytesWord (q 4) (q 5), bytesWord (q 6) (q 7),
   bytesWord (if s.ros.swap.inProgress then 1 else 0) s.ros.swap.outcome.code, bytesWord s.ros.swap.incoming s.ros.swap.outgoing,
   wordOf s.pm.tally]

/-! ## Generator, mains, alarm -/

/-- A run request: present and wants-load, posted time, end time; 0 with none (log 72). -/
def requestWords (r : Option RunRequest) : List Word :=
  match r with
  | some r => bytesWord 1 (if r.wantsLoad then 1 else 0) :: pairWords r.posted ++ pairWords r.endTime
  | none => [0, 0, 0, 0, 0]

/-- A start attempt; 0 with none (log 72). -/
def attemptWords (a : Option Attempt) : List Word :=
  match a with
  | some a => pairWords a.time ++ [wordOf a.series, bytesWord a.attempt a.outcome.code, wordOf a.peak]
  | none => [0, 0, 0, 0, 0]

def flag (b : Bool) : Nat := if b then 1 else 0

/-- Words 1 onward of the generator group (the stop destination by its state's code: log 71). -/
def generatorWords (s : State) : List Word :=
  let g := s.gen
  if s.cmd.pages.generator = 0 then
    [wordOf g.state.code, bytesWord (flag g.service) (if g.destDisabled then 1 else 2), wordOf g.series, bytesWord g.attempt g.cause.code,
     wordOf g.peak, wordOf g.lastFreq, bytesWord (flag g.barHold) (flag g.ackTaken)] ++ pairWords g.barStart ++
      pairWords (g.firstFailure.getD 0) ++ pairWords (g.runStart.getD 0) ++
      [wordOfBool g.limitActed, wordOf g.capacity, wordOf g.derates, wordOf g.fuelLevel] ++ pairWords g.fuelThisRun ++
      pairWords (g.nextSlot.getD 0)
  else
    requestWords g.requests.mainsFail ++ requestWords g.requests.depth ++ requestWords g.requests.exercise ++
      requestWords g.requests.manual ++ attemptWords g.attempts.reverse[0]? ++ attemptWords g.attempts.reverse[1]?

/-- Words 1 onward of the mains and transfer group (the left side coded as the heading: log 71). -/
def mainsWords (s : State) : List Word :=
  let m := s.src.mains
  let x := s.src.xfer
  if s.cmd.pages.mains = 0 then
    [wordOf m.state.code, wordOfBool m.sense, wordOf m.lastFreq, wordOf m.qualifySpan, wordOf m.qualitySpan, wordOf m.retransferSpan] ++
      pairWords m.outageStart ++
      [wordOf m.qualifyFailures, wordOf m.lastDipWidth, wordOf m.absenceWidth, wordOfBool m.absenceSeconds, wordOf m.dips,
       wordOf m.outages, wordOfBool m.failHeld]
  else
    [wordOf x.state.code, wordOfBool x.headingGen, wordOfBool x.leftGen, wordOfBool x.deadRun, wordOf x.cause.code,
     wordOfBool x.faultMains, wordOfBool x.faultGen, wordOfBool x.releasePending, wordOf x.transfers] ++ pairWords x.entered

/-- The words of a point. -/
def pointWords (s : State) (p : Nat) : List Word :=
  let r := point s p
  [bytesWord p r.state.code, wordOf r.raises] ++ pairWords r.changed

/-- The alarm summary (R140). -/
def alarmWords (s : State) : List Word :=
  let map (f : Nat → Bool) : List Word := [markMap f, markMap fun n => f (n + 16)]
  let page := s.cmd.pages.alarm
  map (pointActive s) ++ map (fun p => (point s p).state.unack) ++ map (suppressed s) ++
    [markMap fun b => (b == 0 && s.alm.urg == .energized) || (b == 1 && s.alm.def_ == .energized) || (b == 2 && s.alm.attn == .asserted),
     wordOf page] ++ pointWords s (2 * page) ++ pointWords s (2 * page + 1)

/-! ## Memory-side groups -/

/-- The log header. -/
def logWords (s : State) : List Word :=
  pairWords s.log.head ++ [wordOf s.log.count, wordOfBool s.log.gap, wordOf s.log.queue.length]

/-- The start-up and reset record (10 §10.1). -/
def startupWords (s : State) : List Word :=
  [wordOf s.st.state.code, wordOf s.st.kind.code, wordOf (flag s.st.optTrain + 2 * flag s.st.optStrings)] ++ pairWords s.st.resetTime ++
    [wordOf s.st.outcome, wordOf s.st.defaulted, wordOf s.st.firstDefaulted]

/-- The refusal record (R162). -/
def refusalWords (s : State) : List Word :=
  let r := s.path.refusal
  pairWords r.addr ++ [r.data, wordOf r.reason] ++ pairWords r.time ++ [wordOf r.count]

/-- Clock and silence. -/
def clockWords (s : State) : List Word :=
  pairWords (now s) ++ [wordOf s.clk.state.code, wordOf s.sil.state.code, wordOf (min 65535 s.sil.count), wordOfBool s.st.lock]

/-! ## The whole area (R172, R173) -/

/-- A live word of an offset at or above 1 in RUN or COMMISSIONING. In COMMISSIONING the plant groups show 0. -/
def liveServed (s : State) (o : Nat) : Word :=
  let run := inRun s
  let plant (l : List Word) (i : Nat) : Word := if run then wordAt l i else 0
  if o < 16 then wordAt (if run then summaryWords s else summaryCommissioning s) (o - 1)
  else if o < 80 then plant (stringWords s ((o - 16) / 16)) ((o - 16) % 16)
  else if o < 144 then plant (moduleWords s ((o - 80) / 8)) ((o - 80) % 8)
  else if o < 160 then plant (capacityWords s) (o - 144)
  else if o < 192 then
    if o = 160 then wordOf s.cmd.pages.generator else if genFitted s then plant (generatorWords s) (o - 161) else 0
  else if o < 208 then if o = 192 then wordOf s.cmd.pages.mains else plant (mainsWords s) (o - 193)
  else if o < 224 then wordAt (alarmWords s) (o - 208)
  else if o < 232 then wordAt (logWords s) (o - 224)
  else if o < 240 then wordAt (startupWords s) (o - 232)
  else if o < 248 then wordAt (refusalWords s) (o - 240)
  else wordAt (clockWords s) (o - 248)

/-- A live word as it stands, without the freeze (R172; R157 for start-up). -/
def liveWord (s : State) (o : Nat) : Word :=
  if starting s then (if 232 ≤ o ∧ o < 240 then wordAt (startupWords s) (o - 232) else 0)
  else if o = 0 then wordOf s.cmd.freeze.code
  else liveServed s o

/-- The 256 live words, the freeze snapshot's content. -/
def snapshotOf (s : State) : List Word := (List.range 256).map (liveWord s)

/-- A live word as a host read finds it: from the snapshot while frozen, but for word 0 (R173). -/
def liveRead (s : State) (o : Nat) : Word :=
  if s.cmd.freeze = .frozen ∧ o ≠ 0 then s.cmd.snapshot.getD o 0 else liveWord s o

/-- Word 7 of a command slot (R170). -/
def slotResult (s : State) (k : Nat) : Word :=
  let c := s.cmd.slots.getD k .cleared
  bytesWord c.code.code c.detail

/-- A request's number of own words (R164, R165). -/
def OwnRequest.total : OwnRequest → Nat
  | .startupLoad _ n => n
  | .logEntry _ _ => 9
  | .checkpoint _ _ => 16
  | .profileWrite _ => 32
  | .remapWrite _ _ _ => 2

/-- The ring index of the log entry that the engine is writing, until its last own word is complete (R163). -/
def entryInWriting (s : State) : Option Nat :=
  match s.path.busy with
  | some b => match b.request with
    | .logEntry seq _ => if b.next < b.request.total then some (seq % 512) else none
    | _ => none
  | none => none

/-- A host read of an address: none while it is held (in LOAD_ANCHOR, while an own word is in progress, or in the entry being written),
else the word answered (R157, R158, R163). -/
def hostRead (s : State) (a : Nat) : Option Word :=
  if s.st.state = .loadAnchor ∨ (s.path.busy.map (·.word)).getD false then none
  else match areaOf s.path.size (prBase s) a with
    | .pr o => match prArea o with
      | .live => some (liveRead s o)
      | .command k 7 => some (slotResult s k)
      | .logRing => if entryInWriting s = some ((o - 0x1000) / 8) then none else some (memRead s a)
      | _ => some (memRead s a)
    | _ => some (memRead s a)

end Sys2Proof.Machine
end

