-- ==== Sys2Proof/Machine/OwnCycle.lean ====
section
/-! DEFINITION. The Own-Cycle Engine: requests, own words with their read-back, verification and remapping, and the placing of log entries
(08 §8.4 to §8.6, R178). Held host accesses are released by Startup.lean. -/

namespace Sys2Proof.Machine

/-! ## Own words of a request (R164, R165) -/

/-- The words of a log entry (09 §9.4). -/
def entryWords (seq : Nat) (e : LogEvent) : List Word :=
  pairWords seq ++ pairWords e.time ++ [bytesWord (flag e.gap) e.kind.code, e.subject, e.a, e.b]

/-- The writes of a log entry in the engine's order: the blank mark into word 0, words 2 to 7, word 1, and word 0 (R165). -/
def entryWrites (seq : Nat) (e : LogEvent) : List (Nat × Word) :=
  let w := entryWords seq e
  (0, 0xFFFF#16) :: ([2, 3, 4, 5, 6, 7, 1, 0].map fun i => (i, w.getD i 0))

/-- The address and value of own write i of a request; none for a read. Before the anchor load of a start-up has ended the PR lies at its
default base (log 90). -/
def ownWrite (s : State) (r : OwnRequest) (i : Nat) : Option (Nat × Word) :=
  match r with
  | .startupLoad _ _ => none
  | .logEntry seq e => (entryWrites seq e)[i]?.map fun w => (prBase s + 0x1000 + 8 * (seq % 512) + w.1, w.2)
  | .checkpoint n ws => some (prBase s + 0x400 + 16 * n + i, ws.getD i 0)
  | .profileWrite p => some (prBase s + 0x180 + 32 * p + i, wordIn s.settings (0x180 + 32 * p + i))
  | .remapWrite e w0 w1 => some (s.path.size - 48 + 2 * e + i, if i = 0 then w0 else w1)

/-- An own word is in progress. -/
def ownWordActive (s : State) : Bool := (s.path.busy.map (·.word)).getD false

def setPath (f : Path → Path) (s : State) : State := { s with path := f s.path }

/-! ## Log entries (R178) -/

def OwnRequest.isLogEntry : OwnRequest → Bool
  | .logEntry _ _ => true
  | .startupLoad _ _ | .checkpoint _ _ | .profileWrite _ | .remapWrite _ _ _ => false

/-- A log entry write stands in the queue or is in progress. -/
def entryStanding (s : State) : Bool :=
  s.path.queue.any (·.isLogEntry) || (s.path.busy.map (·.request.isLogEntry)).getD false

/-- The oldest pending event is placed as the next entry write when none stands and the log scan has set the head (R178). -/
def placeLogEntry (s : State) : State :=
  if s.log.ready && !entryStanding s then
    match s.log.queue with
    | e :: r => { s with log := { s.log with queue := r } } |> enqueueOwn (.logEntry s.log.head e)
    | [] => s
  else s

/-! ## The engine begins an own word (R163, R164) -/

/-- The engine begins: its next word, or the oldest request, which leaves the queue. -/
def beginOwn (s : State) : State :=
  match s.path.busy with
  | some b => if b.next < b.request.total then setPath (fun p => { p with busy := some { b with word := true } }) s else s
  | none =>
    match s.path.queue with
    | r :: q => setPath (fun p => { p with queue := q, busy := some ⟨r, 0, true⟩ }) s
    | [] => s

/-! ## An own word completes (R165 to R167) -/

/-- The memory holds v at a physical address; a word that did not read back as written is known faulty from then on. -/
def Path.kept (p : Path) (a : Nat) (written held : Word) : Path :=
  { p with
    cells := writeCells p.cells a held,
    faulty := if held = written ∨ p.faulty.contains a then p.faulty else a :: p.faulty }

/-- The lowest spare that no valid entry names and that has not failed (R166). -/
def Path.freeSpare (p : Path) : Option Nat :=
  (List.range 16).find? fun i => !(p.remap.any fun e => (e.map fun r => r.spare == i).getD false) && !p.spareFailed.contains i

/-- The lowest free entry. -/
def Path.freeEntry (p : Path) : Option Nat := p.remap.findIdx? (·.isNone)

/-- The number of valid entries. -/
def Path.validEntries (p : Path) : Nat := (p.remap.filter (·.isSome)).length

/-- The two anchor words of an entry (08 §8.1). -/
def remapWords (addr spare : Nat) : Word × Word := (wordOf addr, wordOf (addr / 65536 % 8 + spare % 16 * 16 + 32768))

def setWorn (s : State) : State := setCond Pt.memoryWorn true s

/-- A failed own write is moved to a spare: the entry is added and its anchor write queued, or the failure ends without a remap (R166,
R167); so also in LOAD_ANCHOR, on the table still empty there (log 96). -/
def remapWord (a : Nat) (v spareBack : Word) (s : State) : State :=
  match s.path.freeSpare, s.path.freeEntry with
  | some i, some e =>
    let s := setPath (fun p => p.kept (p.spareAddr i) v spareBack) s
    if spareBack = v then
      let w := remapWords a i
      s |> setPath (fun p => { p with remap := p.remap.set e (some ⟨a, i⟩) }) |> enqueueOwn (.remapWrite e w.1 w.2)
        |> fun t => logEv .remap (wordOf i) (wordOf a) (wordOf t.path.validEntries) t
    else s |> setPath (fun p => { p with spareFailed := i :: p.spareFailed }) |> setWorn
  | _, _ => setWorn s

/-- An own write with its read-back (R165 to R167). A remap entry write and a write already sent to a spare are not remapped. -/
def verifyWrite (isRemap : Bool) (a : Nat) (v back spareBack : Word) (s : State) : State :=
  let redirected := (s.path.entryFor a).isSome
  let s := setPath (fun p => p.kept (p.redirect a) v back) s
  if back = v then s
  else if isRemap || redirected then setWorn s
  else remapWord a v spareBack s

def OwnRequest.isRemapWrite : OwnRequest → Bool
  | .remapWrite _ _ _ => true
  | .startupLoad _ _ | .logEntry _ _ | .checkpoint _ _ | .profileWrite _ => false

/-- The own word in progress completes (R165); held accesses are not yet released. -/
def finishOwnWord (back spareBack : Word) (s : State) : State :=
  match s.path.busy with
  | some b =>
    if b.word then
      (match ownWrite s b.request b.next with
        | some w => verifyWrite b.request.isRemapWrite w.1 w.2 back spareBack s
        | none => s)
        |> setPath fun p => { p with busy := some { b with next := b.next + 1, word := false } }
    else s
  | none => s

/-- A request is whole. -/
def ownRequestWhole (s : State) : Bool :=
  match s.path.busy with
  | some b => !b.word && decide (b.request.total ≤ b.next)
  | none => false

/-- A whole request is reported: the log's head and count rise, the next start-up load is placed; then the next log entry may be (R165,
R178, R184 to R186). -/
def reportOwn (r : OwnRequest) (s : State) : State :=
  match r with
  | .logEntry _ _ =>
    { s with log := { s.log with head := (s.log.head + 1) % 4294967296, count := min 512 (s.log.count + 1) } }
  | .startupLoad _ _ =>
    match s.st.loads with
    | l :: rest => { s with st := { s.st with loads := rest } } |> enqueueOwn l
    | [] => s
  | .checkpoint _ _ | .profileWrite _ | .remapWrite _ _ _ => s

/-- A whole own-cycle request completes. -/
def completeOwn (s : State) : State :=
  match s.path.busy with
  | some b =>
    if ownRequestWhole s then s |> setPath (fun p => { p with busy := none }) |> reportOwn b.request |> placeLogEntry else s
  | none => s

/-- At a reset the own word in progress is completed, and no failure in its read-back is acted on (R169). -/
def cutOwnWord (s : State) : State :=
  match s.path.busy with
  | some b =>
    if b.word then
      match ownWrite s b.request b.next with
      | some w => hostStore w.1 w.2 s
      | none => s
    else s
  | none => s

def OwnRequest.isLoad : OwnRequest → Bool
  | .startupLoad _ _ => true
  | .logEntry _ _ | .checkpoint _ _ | .profileWrite _ | .remapWrite _ _ _ => false

/-- Start-up loads end: the ones still queued or in progress are done (log 7). -/
def endLoads (s : State) : State :=
  setPath (fun p => { p with queue := p.queue.filter (fun r => !r.isLoad), busy := p.busy.filter (fun b => !b.request.isLoad) }) s

/-- The loads of a start-up state are requested, the first at once (R185, R186). -/
def placeLoads (loads : List OwnRequest) (s : State) : State :=
  match loads with
  | l :: rest => { s with st := { s.st with loads := rest } } |> enqueueOwn l
  | [] => { s with st := { s.st with loads := [] } }

end Sys2Proof.Machine
end

