-- ==== Sys2Proof/Machine/Reset.lean ====
section
/-! DEFINITION. Power-on, pin reset and SOFT_RESET: what each block keeps and loses (R29, R30, R48 to R50, R75, R76, R92, R93, R123, R124,
R141, R155, R162, R169, R170, R182, R183, R188, R190). -/

namespace Sys2Proof.Machine

/-- The conditions of the power train's blocks (06 §6.2: Source Controller, Generator Controller, Rectifier Roster). -/
def trainConds : List Nat := [0, 1, 2, 3, 4, 5, 6, 9, 10, 11, 12]

/-- The conditions of the String Supervisor. -/
def stringConds : List Nat := [15, 16, 17, 19, 21]

/-- The conditions a reset keeps, each with its owner: TEST_FAILED outlives pin and soft resets (R50). -/
def keptConds (keepTrain keepStrings : Bool) (conds : List Bool) : List Bool :=
  (List.range 32).map fun p =>
    conds.getD p false && ((keepTrain && trainConds.contains p) || (keepStrings && stringConds.contains p) || p == Pt.testFailed)

/-- The debounce times and edge modes are the defaults until the settings load ends (R155). -/
def inputDefaults (ss : List Word) : List Word :=
  (List.range 32).foldl (fun l i => setWord l (0x270 + i) (defaultWord (0x270 + i))) ss

/-- The entries of endings that a reset makes, to be placed at RUN (R50). -/
def lateEntries (s : State) : List LogEvent :=
  (if s.bus.eq.running then [equalizeEndEvent .cancelledReset s] else []) ++
    (if testRunning s then [testEndEvent .abortedReset s] else [])

/-- The equalize record after a pin or soft reset (R50). -/
def EqualizeRec.atReset (e : EqualizeRec) (time : Nat) : EqualizeRec :=
  if e.running then { e with running := false, outcome := .cancelledReset, endTime := time, schedule := .notDue, firstFailed := 0 }
  else { e with schedule := .notDue, firstFailed := 0 }

/-- The test record after a pin or soft reset (R50). -/
def TestRec.atReset (t : TestRec) (time : Nat) : TestRec :=
  if t.state = .running then { t with state := .ended .abortedReset, endTime := time } else t

/-- The Bus Regulator at a pin or soft reset (R48 to R50). -/
def resetBus (keepTrain : Bool) (s : State) : State :=
  let b := s.bus
  let eq := b.eq.atReset (now s)
  let test := b.test.atReset (now s)
  if keepTrain then
    { s with bus := { b with eq := eq, test := test, recheck := false } }
      |> withdrawClaim .equalize |> withdrawClaim .test |> withdrawClaim .matching
  else { s with bus := { Bus.reset with eq := eq, test := test } }

/-- The entries of a reconnect that a reset keeping the strings abandons (R8, R24). -/
def abandonEntries (s : State) : List LogEvent :=
  match reconnecting s with
  | some k =>
    [⟨.phaseChange, wordOf k, wordOf Phase.reconnecting.code, wordOf (priorPhase s k).code, now s, false⟩,
      ⟨.reconnectResult, 0, wordOf ReconnectOutcome.abandonedReset.code, 0, now s, false⟩]
  | none => []

/-- STRING_FAULT and STRING_ISOLATED follow the phases in the owner's conditions alone: the Alarm Unit restarts in this step (R8, R141). -/
def ownPhaseConds (s : State) : State :=
  let faulted := s.conds.set Pt.stringFault (anyString s fun r => r.phase == .fault)
  { s with conds := faulted.set Pt.stringIsolated (anyString s fun r => r.phase.open) }

/-- The String Supervisor at a pin or soft reset (R29, R30); the holding of DEPTH and its mark follow the Run Request Set (R26). -/
def resetStrings (keepTrain keepStrings : Bool) (s : State) : State :=
  let held := keepTrain && s.str.depthHeld
  let spent := keepTrain && s.str.depthSpent
  (if keepStrings then s |> abandonReconnect .abandonedReset |> ownPhaseConds else { s with str := Strings.reset })
    |> fun t => { t with str := { t.str with depthHeld := held, depthSpent := spent, busSpan := 0 } }

/-- The swap record after a pin or soft reset that did not keep the power train (R75). -/
def Swap.atReset (w : Swap) : Swap :=
  { w with inProgress := false, retry := none, outcome := if w.inProgress then .abandonedReset else w.outcome }

/-- The power train's other blocks at a pin or soft reset (R75, R76, R92, R93, R123, R124). -/
def resetTrain (keepTrain : Bool) (s : State) : State :=
  if keepTrain then s
  else { s with ros := { Roster.reset with swap := s.ros.swap.atReset }, src := ⟨.cleared, .cleared⟩, gen := .reset }

/-- RESET (R183). -/
def resetEntry (kind : ResetKind) (optTrain optStrings : Bool) (time : Nat) : LogEvent :=
  ⟨.reset, wordOf kind.code, wordOf (flag optTrain + 2 * flag optStrings), 0, time, false⟩

/-- The blocks that restart at every reset, with the log emptied and RESET at its head; a silence state that ends here is not logged
(log 91). Feedbacks that jump to their lines here hand no source capacity on (log 105), and the copies of the settings but the input
defaults stand as they were (log 108). -/
def resetRest (msz : BitVec 2) (kind : ResetKind) (optTrain optStrings keepTrain keepStrings : Bool) (late : List LogEvent)
    (after : List LogEvent) (s : State) : State :=
  { s with
    path := .reset msz s.path.cells s.path.faulty s.path.writes s.path.held, cmd := .reset,
    log := ⟨resetEntry kind optTrain optStrings (now s) :: after, false, 0, 0, false⟩,
    st := .reset msz kind optTrain optStrings keepTrain keepStrings (now s) late (s.st.lock && kind == .soft),
    settings := inputDefaults s.settings, sil := ⟨.supervised, 0⟩, scan := s.scan.atReset, inp := .reset s.inp.lines, pm := .reset s.pm.sense,
    alm := .reset, conds := keptConds keepTrain keepStrings s.conds }

/-- A pin or soft reset: `after` is the COMMAND entry of a SOFT_RESET, which the entries of an abandoned reconnect follow (log 32). In
COMMISSIONING the options keep nothing (R183). -/
def warmReset (msz : BitVec 2) (kind : ResetKind) (optTrain optStrings : Bool) (after : List LogEvent) (s : State) : State :=
  let keepTrain := optTrain && !inCommissioning s
  let keepStrings := optStrings && !inCommissioning s
  let late := s.st.late ++ lateEntries s
  let after := after ++ if keepStrings then abandonEntries s else []
  s |> cutOwnWord |> resetStrings keepTrain keepStrings |> resetBus keepTrain |> resetTrain keepTrain
    |> resetRest msz kind optTrain optStrings keepTrain keepStrings late after

/-- A power-on: only the memory device, the accesses that wait on HWAIT and the commands still queued outlive it. -/
def powerOnReset (msz : BitVec 2) (lines : List Bool) (pin3 : Bool) (s : State) : State :=
  let p := (cutOwnWord s).path
  { State.afterPowerOn msz lines pin3 p.cells p.faulty p.writes p.held with pending := s.pending }

/-- The COMMAND entry (R171). -/
def commandEntry (slot opcode tag : Nat) (r : Reply) (time : Nat) : LogEvent :=
  ⟨.command, wordOf slot, bytesWord opcode r.1.code, bytesWord r.2 tag, time, false⟩

end Sys2Proof.Machine
end

