-- ==== Sys2Proof/Machine/Commands.lean ====
section
/-! DEFINITION. The Command Interpreter: taking a command, its checks, dispatch and answer, the commands it owns itself, its evaluation and
its checkpoint interval (09 §9.1, §9.3, §9.5, R28, R134, R188). -/

namespace Sys2Proof.Machine

/-! ## Commands of its own and of small owners -/

/-- SET_CLOCK (R176). -/
def setClockCommand (hi lo : Word) (s : State) : State × Reply :=
  let old := s.clk
  (({ s with clk := { s.clk with value := pairNat hi lo, state := .set } }
      |> logEv .clockSet (wordOf old.state.code) (hiWord old.value) (loWord old.value) |> checkpoint 13
      |> setBus fun b => { b with recheck := true })
    |> setGen fun g => { g with slotStale := true }, .done, 0)

/-- ACK_POINT (R134, R138). -/
def ackPointCommand (p : Nat) (s : State) : State × Reply :=
  if 31 < p then (s, .refusedRange, 1)
  else
    (s |> ackPoint p |> fun t => if p = Pt.genFailStart then reportAck t else t, .done, if ackable s p then 1 else 0)

/-- ACK_ALL (R134, R138). -/
def ackAllCommand (s : State) : State × Reply :=
  ((List.range 32).foldl (fun t p => ackPoint p t) s |> reportAck, .done, ((List.range 32).filter (ackable s)).length)

/-- SETTINGS_LOCK (R188). -/
def settingsLockCommand (s : State) : State × Reply :=
  ({ s with st := { s.st with lock := true } }, .done, if s.st.lock then 1 else 0)

/-- LOG_NOTE (R179). -/
def logNoteCommand (slot : Nat) (a b : Word) (s : State) : State × Reply := (logEv .logNote (wordOf slot) a b s, .done, 0)

/-- The preset of a chemistry number (R28). -/
def chemistryOf : Nat → Option Chemistry
  | 0 => some .vrla
  | 1 => some .flooded
  | 2 => some .nicad
  | _ => none

/-- A profile is in use by an equalize or a test: a connected string has it (R28, R160). -/
def profileInUse (s : State) (p : Nat) : Bool :=
  (s.bus.eq.running || testRunning s) && (connectedStrings s).any fun q => q.2.profile == p

/-- A profile write stands in the own-cycle queue. -/
def profileWriteStands (s : State) : Bool :=
  s.path.queue.any fun r => match r with | .profileWrite _ => true | _ => false

/-- The copy of a profile set to a preset: every word to its default, then words 0 to 16 to the column (R28). -/
def presetCopy (p : Nat) (c : Chemistry) (ss : List Word) : List Word :=
  (List.range 32).foldl (fun l w =>
    setWord l (0x180 + 32 * p + w) (if w < 17 then wordOfInt (c.words.getD w 0) else defaultWord (0x180 + 32 * p + w))) ss

/-- LOAD_PRESET (R28; REFUSED_LOCKED with detail 0: log 82). -/
def loadPresetCommand (p chem : Nat) (s : State) : State × Reply :=
  if 3 < p then (s, .refusedRange, 1)
  else match chemistryOf chem with
    | none => (s, .refusedRange, 2)
    | some c =>
      if s.st.lock then (s, .refusedLocked, 0)
      else if profileInUse s p then (s, .refusedState, 1)
      else if profileWriteStands s then (s, .refusedBusy, 1)
      else ({ s with settings := presetCopy p c s.settings } |> enqueueOwn (.profileWrite p), .done, 0)

/-! ## Dispatch (R170, R171) -/

/-- Opcodes (09 §9.1). -/
abbrev Op.setClock : Nat := 0x01
abbrev Op.ackPoint : Nat := 0x02
abbrev Op.ackAll : Nat := 0x03
abbrev Op.genRun : Nat := 0x10
abbrev Op.genStop : Nat := 0x11
abbrev Op.genReset : Nat := 0x12
abbrev Op.genService : Nat := 0x13
abbrev Op.transferRetry : Nat := 0x18
abbrev Op.moduleService : Nat := 0x20
abbrev Op.moduleReturn : Nat := 0x21
abbrev Op.rotateNow : Nat := 0x22
abbrev Op.stringIsolate : Nat := 0x28
abbrev Op.stringReconnect : Nat := 0x29
abbrev Op.equalizeStart : Nat := 0x30
abbrev Op.equalizeCancel : Nat := 0x31
abbrev Op.testStart : Nat := 0x32
abbrev Op.testAbort : Nat := 0x33
abbrev Op.loadPreset : Nat := 0x38
abbrev Op.settingsLock : Nat := 0x40
abbrev Op.resume : Nat := 0x41
abbrev Op.softReset : Nat := 0x42
abbrev Op.logNote : Nat := 0x48

/-- The opcode is in the command table. -/
def knownOpcode (op : Nat) : Bool :=
  [Op.setClock, Op.ackPoint, Op.ackAll, Op.genRun, Op.genStop, Op.genReset, Op.genService, Op.transferRetry, Op.moduleService,
    Op.moduleReturn, Op.rotateNow, Op.stringIsolate, Op.stringReconnect, Op.equalizeStart, Op.equalizeCancel, Op.testStart,
    Op.testAbort, Op.loadPreset, Op.settingsLock, Op.resume, Op.softReset, Op.logNote].contains op

/-- The commands that COMMISSIONING takes (R171). -/
def takenInCommissioning (op : Nat) : Bool := op == Op.softReset || op == Op.logNote || op == Op.setClock

/-- The commands that AUTONOMOUS takes (R171). -/
def takenInAutonomy (op : Nat) : Bool :=
  op == Op.ackPoint || op == Op.ackAll || op == Op.setClock || op == Op.resume || op == Op.logNote

/-- Argument word i of a slot, from the copies (R170). -/
def argWord (s : State) (slot i : Nat) : Word := (s.cmd.slots.getD slot .cleared).words.getD i 0

/-- The rule of a command in the table, other than SOFT_RESET. -/
def runRule (slot op : Nat) (s : State) : State × Reply :=
  let w := argWord s slot
  let n := fun i => (w i).toNat
  match op with
  | 0x01 => setClockCommand (w 1) (w 2) s
  | 0x02 => ackPointCommand (n 1) s
  | 0x03 => ackAllCommand s
  | 0x10 => genRunCommand (n 1) (n 2) s
  | 0x11 => genStopCommand s
  | 0x12 => genResetCommand s
  | 0x13 => genServiceCommand (n 1) s
  | 0x18 => transferRetry s
  | 0x20 => moduleService (n 1) s
  | 0x21 => moduleReturn (n 1) s
  | 0x22 => rotateNow s
  | 0x28 => stringIsolate (n 1) s
  | 0x29 => stringReconnect (n 1) s
  | 0x30 => equalizeStart s
  | 0x31 => equalizeCancelCommand s
  | 0x32 => testStartCommand (n 1) (n 2) s
  | 0x33 => testAbortCommand s
  | 0x38 => loadPresetCommand (n 1) (n 2) s
  | 0x40 => settingsLockCommand s
  | 0x41 => resumeCommand s
  | 0x48 => logNoteCommand slot (w 1) (w 2) s
  | _ => (s, .refusedUnknown, 0)

/-- The refusal that the checks of R171 give before a command reaches its rule. -/
def dispatchRefusal (op : Nat) (s : State) : Option Reply :=
  if !knownOpcode op then some (.refusedUnknown, 0)
  else if inCommissioning s && !takenInCommissioning op then some (.refusedState, 240)
  else if s.sil.state == .autonomous && !takenInAutonomy op then some (.refusedAutonomy, 0)
  else none

/-- The slot's result takes the reply, and COMMAND is logged after the command's own entries (R170, R171). -/
def answer (slot op tag : Nat) (r : Reply) (s : State) : State :=
  { s with cmd := { s.cmd with slots := updAt slot (fun c => { c with code := r.1, detail := r.2 }) s.cmd.slots } }
    |> logEv .command (wordOf slot) (bytesWord op r.1.code) (bytesWord r.2 tag)

/-- SOFT_RESET's arguments refused (R183). -/
def softResetRefusal (slot : Nat) (s : State) : Option Reply :=
  if 1 < (argWord s slot 1).toNat then some (.refusedRange, 1)
  else if 1 < (argWord s slot 2).toNat then some (.refusedRange, 2)
  else none

/-- A SOFT_RESET taken: the reset, with its COMMAND entry directly after RESET (R183). -/
def softResetTaken (slot tag : Nat) (s : State) : State :=
  warmReset s.path.msz .soft (argWord s slot 1 == 1) (argWord s slot 2 == 1)
    [commandEntry slot Op.softReset tag (.done, 0) (now s)] s

/-- A command taken from a slot (R170, R171). -/
def takeCommand (slot op tag : Nat) (s : State) : State :=
  match dispatchRefusal op s with
  | some r => answer slot op tag r s
  | none =>
    if op = Op.softReset then
      match softResetRefusal slot s with
      | some r => answer slot op tag r s
      | none => softResetTaken slot tag s
    else
      let t := runRule slot op s
      answer slot op tag t.2 t.1

/-- The copy of a slot's word takes a captured value (R170). -/
def captureWord (slot word : Nat) (v : Word) (s : State) : State :=
  { s with cmd := { s.cmd with slots := updAt slot (fun c => { c with words := c.words.set word v }) s.cmd.slots } }

/-! ## Evaluation, interval and freeze (R172, R173, R180) -/

/-- Every record is requested, in record-number order (R180). -/
def checkpointAll (s : State) : State := (List.range 14).foldl (fun t n => checkpoint n t) s

/-- The page numbers advance (R172). -/
def Pages.next (p : Pages) : Pages :=
  ⟨(p.summary + 1) % 5, (p.generator + 1) % 2, (p.mains + 1) % 2, (p.alarm + 1) % 16⟩

/-- The interval's evaluation count, in RUN (R180). -/
def countInterval (s : State) : State :=
  if inRun s then
    if 600 ≤ s.cmd.interval + 1 then { s with cmd := { s.cmd with interval := 0 } } |> checkpointAll
    else { s with cmd := { s.cmd with interval := s.cmd.interval + 1 } }
  else s

/-- The 600th evaluation is the one made now. -/
def intervalDue (s : State) : Bool := inRun s && decide (600 ≤ s.cmd.interval + 1)

/-- The Command Interpreter's one-second evaluation (R172, R180). -/
def commandEvaluation (s : State) : State :=
  if starting s then s else { s with cmd := { s.cmd with pages := s.cmd.pages.next } } |> countInterval

/-- A freeze control value 0 or 1 taken (R173). -/
def freezeWrite (one : Bool) (s : State) : State :=
  if one then { s with cmd := { s.cmd with freeze := .frozen, snapshot := snapshotOf s } }
  else if s.cmd.freeze = .frozen then { s with cmd := { s.cmd with freeze := .released } }
  else s

/-- The 2 s freeze timer expires (R173). -/
def freezeExpires (s : State) : State :=
  if s.cmd.freeze = .frozen then { s with cmd := { s.cmd with freeze := .expired } } else s

end Sys2Proof.Machine
end

