-- ==== Sys2Proof/Machine/HostAccess.lean ====
section
/-! DEFINITION. Host writes: decoding by area, passing, capture, guard, refusal and holding, and what a stored settings word does at its
owner (08 §8.2, §8.3; R1, R34, R53, R78, R95, R126, R127, R147, R153). -/

namespace Sys2Proof.Machine

/-- Reason codes (R160, R162). -/
abbrev Why.locked : Nat := 1
abbrev Why.startUp : Nat := 2
abbrev Why.range : Nat := 3
abbrev Why.order : Nat := 4
abbrev Why.inUse : Nat := 5
abbrev Why.protect : Nat := 6

/-- A refused host write: the refusal record and WRITE_REFUSED (R162). -/
def refuseWrite (reason a : Nat) (v : Word) (s : State) : State :=
  { s with path := { s.path with
      refusal := { addr := a, data := v, reason := reason, time := now s, count := min 65535 (s.path.refusal.count + 1) } } }
    |> logEv .writeRefused (wordOf reason) (wordOf a) v

/-! ## Settings taken by their owners -/

/-- What storing plant settings word i, counted from PR 0x0200, does at once. -/
def plantStored (i : Nat) (s : State) : State :=
  if i < 0x0C then (if i % 3 = 1 then capacityStored (i / 3) s else s)
  else if i = 0x0C then reclamp s
  else if i = 0x14 ∨ i = 0x15 then busWindowStored s
  else if 0x18 ≤ i ∧ i ≤ 0x21 then immediateShed s
  else if i = 0x2F then outageDelayStored s
  else if i = 0x32 then genCapacityStored s
  else if 0x38 ≤ i ∧ i ≤ 0x3B then setGen (fun g => { g with slotStale := true }) s
  else if i = 0x41 then tallyQuantumStored s
  else s

/-- What storing an alarm settings word does at once; `old` is the word it replaced (R126, R127). -/
def alarmStored (p w : Nat) (old : Word) (s : State) : State :=
  if w = 0 then classChanged p old.toNat s else if w = 1 then latchingStored p s else s

/-- The owner takes a settings word of offset o that has been stored; `old` is the word it replaced. -/
def settingTaken (o : Nat) (old : Word) (s : State) : State :=
  if o < 0x200 then s
  else if o < 0x300 then plantStored (o - 0x200) s
  else alarmStored ((o - 0x300) / 8) ((o - 0x300) % 8) old s

/-- The first check of R160, in the order of its table, that a guarded write fails (log 25 for COMMISSIONING). -/
def guardFails (o : Nat) (v : Word) (s : State) : Option Nat :=
  if s.st.lock then some Why.locked
  else if !inRun s then some Why.startUp
  else if !inRange s.settings o v then some Why.range
  else if !keepsOrder s.settings o v then some Why.order
  else if o < 0x200 ∧ profileInUse s ((o - 0x180) / 32) then some Why.inUse
  else none

/-- A guarded write at PR offset o, address a (R160). -/
def guardedStore (o a : Nat) (v : Word) (s : State) : State :=
  match guardFails o v s with
  | some r => refuseWrite r a v s
  | none =>
    let old := wordIn s.settings o
    { hostStore a v s with settings := setWord s.settings o v } |> settingTaken o old

/-! ## Areas -/

/-- A write to a slot's word: stored and captured; word 0 takes the command; word 7 is refused (R159, R170). -/
def slotWrite (slot word a : Nat) (v : Word) (s : State) : State :=
  if word = 7 then refuseWrite Why.protect a v s
  else
    s |> hostStore a v |> captureWord slot word v
      |> fun t => if word = 0 then takeCommand slot (v.toNat / 256) (v.toNat % 256) t else t

/-- A write to the live area: the freeze control at offset 0 alone is captured (R159). -/
def liveWrite (o a : Nat) (v : Word) (s : State) : State :=
  if o = 0 then (if v.toNat ≤ 1 then freezeWrite (v == 1) s else refuseWrite Why.range a v s)
  else refuseWrite Why.protect a v s

/-- A write inside the PR, a heartbeat whether taken or refused, taken before the write's own effect (log 81 for the freeze control, R189
for a post); refused START_UP before RUN or COMMISSIONING (R157, R159). -/
def prWrite (o : Nat) (v : Word) (s : State) : State :=
  let a := prBase s + o
  let s := heartbeat s
  if starting s then refuseWrite Why.startUp a v s
  else match prArea o with
    | .live => liveWrite o a v s
    | .command slot word => slotWrite slot word a v s
    | .guarded => guardedStore o a v s
    | .counter | .logRing => refuseWrite Why.protect a v s
    | .ordinary => hostStore a v s

/-- A descriptor write: judged by the Settings Lock alone, stored and not captured (R160). -/
def anchorWrite (word : Nat) (v : Word) (s : State) : State :=
  let a := s.path.size - 64 + word
  if s.st.lock then refuseWrite Why.locked a v s else hostStore a v s

/-- A host write by its word address (R157, R159). -/
def addrWrite (a : Nat) (v : Word) (s : State) : State :=
  match areaOf s.path.size (prBase s) a with
  | .pr o => prWrite o v s
  | .descriptor w => anchorWrite w v s
  | .remapTable | .spare => refuseWrite Why.protect a v s
  | .anchorRest | .other => hostStore a v s

/-- A host write performed. -/
def perform (x : HostAccess) (s : State) : State :=
  match x with
  | .addr a v => addrWrite a.toNat v s
  | .pr o v => prWrite o v s
  | .anchor w v => anchorWrite w v s

/-- Host accesses are held in LOAD_ANCHOR and while an own word is in progress (R157, R163). -/
def holds (s : State) : Bool := s.st.state == .loadAnchor || ownWordActive s

/-- A host write arrives: held on HWAIT or performed at once (R157, R163). -/
def arrive (x : HostAccess) (s : State) : State :=
  if holds s then setPath (fun p => { p with held := p.held ++ [x] }) s else perform x s

/-- The held accesses proceed, in the order in which they arrived; one that must wait again is held again (log 8). -/
def releaseHeld (s : State) : State := s.path.held.foldl (fun t x => arrive x t) (setPath (fun p => { p with held := [] }) s)

/-- A post of a command: a write of word 0 of a slot. -/
def post (slot : Fin 16) (op : Nat) (tag : BitVec 8) (s : State) : State :=
  arrive (.pr (0x100 + 8 * slot.val) (bytesWord op tag.toNat)) s

end Sys2Proof.Machine
end

