-- ==== Sys2Proof/Machine/Startup.lean ====
section
/-! DEFINITION. The Start-up Controller: the ends of its six states, COMMISSIONING, the entry to RUN, and the site clock's second
(10 §10.2; R29 to R31, R49 to R52, R75 to R77, R92 to R94, R123 to R125, R141 to R143, R168, R174, R181). -/

namespace Sys2Proof.Machine

def setStart (f : Startup → Startup) (s : State) : State := { s with st := f s.st }

/-- Consecutive words of the memory, each redirected. -/
def readWords (s : State) (a n : Nat) : List Word := (List.range n).map fun i => memRead s (a + i)

/-! ## LOAD_ANCHOR (R168, R184) -/

/-- The greatest PR base unit of the memory: its blocks below the top one (08 §8.1). -/
def maxBaseUnit (size : Nat) : Nat := size / 8192 - 2

/-- The descriptor that sixteen anchor words spell, when it is usable (R184). -/
def usableDescriptor (size : Nat) (w : List Word) : Option Descriptor :=
  let n := fun i => (w.getD i 0).toNat
  if n 0 = 0x4804 ∧ n 1 = 1 ∧ crcWords (w.take 15) = w.getD 15 0 ∧ n 2 ≤ maxBaseUnit size ∧ (1 ≤ n 3 ∧ n 3 ≤ 4) ∧
      (1 ≤ n 4 ∧ n 4 ≤ 255) ∧ n 5 ≤ 1 ∧ (n 6 = 50 ∨ n 6 = 60) then
    some ⟨n 2, n 3, BitVec.ofNat 8 (n 4), n 5 == 1, n 6 == 60⟩
  else none

/-- The remap entry that two anchor words spell, when its valid bit is set (08 §8.1). -/
def remapEntryOf (w0 w1 : Word) : Option RemapEntry :=
  if w1.msb then some ⟨w0.toNat + w1.toNat % 8 * 65536, w1.toNat / 16 % 16⟩ else none

/-- The entry is taken: below the spare words, its spare and address in no entry taken before (R168). -/
def takesEntry (size : Nat) (before : List (Option RemapEntry)) (e : RemapEntry) : Bool :=
  decide (e.addr < size - 80) && !before.any fun b => (b.map fun r => r.spare == e.spare || r.addr == e.addr).getD false

/-- The remap table that the anchor words 16 to 47 spell (R168). -/
def remapTableOf (size : Nat) (w : List Word) : List (Option RemapEntry) :=
  (List.range 16).foldl (fun t i =>
    t ++ [match remapEntryOf (w.getD (2 * i) 0) (w.getD (2 * i + 1) 0) with
      | some e => if takesEntry size t e then some e else none
      | none => none]) []

/-- The remap table is loaded; with no spare left free MEMORY_WORN is set (R168). -/
def loadRemap (s : State) : State :=
  let t := remapTableOf s.path.size (readWords s (s.path.size - 48) 32)
  setPath (fun p => { p with remap := t }) s |> fun t => if t.path.freeSpare.isNone then setWorn t else t

/-- A kept module that the descriptor no longer names becomes ABSENT; the swap it was starting for is abandoned (R76); the record goes
with no MODULE_STATE entry and no checkpoint (log 55). The abandoned swap ends as R73 ends one (log 83). -/
def dropModule (m : Nat) (s : State) : State :=
  if (modRec s m).isSome && !modulePresent s m then
    let hit := s.ros.swap.inProgress && (modState s m == .starting || incoming s m)
    { s with ros := { s.ros with
        mods := s.ros.mods.set m none, inh := s.ros.inh.set m .unpowered, queue := s.ros.queue.filter (· != m) } }
      |> fun t => if hit then abandonSwap .abandonedSource t else t
  else s

/-- A kept string beyond the string count becomes ABSENT (R30), with no PHASE_CHANGE entry (log 55). -/
def dropString (k : Nat) (s : State) : State :=
  if stringCount s ≤ k then
    { s with str := { s.str with recs := s.str.recs.set k none, iso := s.str.iso.set k .unpowered } }
  else s

/-- A usable descriptor comes into force. -/
def takeDescriptor (d : Descriptor) (s : State) : State :=
  s |> setStart (fun x => { x with desc := some d }) |> eachModule dropModule (List.range 8)
    |> (fun t => (List.range 4).foldl (fun u k => dropString k u) t)
    |> (fun t => if t.st.keepTrain then refreshModuleConds t else t)
    |> fun t => if t.st.keepStrings then refreshStringConds t else t

/-- The descriptor is judged (R184). -/
def judgeDescriptor (s : State) : State :=
  match usableDescriptor s.path.size (readWords s (s.path.size - 64) 16) with
  | some d => takeDescriptor d s
  | none => setStart (fun x => { x with forCommissioning := true }) s

/-- The start-up loads of LOAD_SETTINGS, one area at a time (R185). -/
def settingsLoads (s : State) : List OwnRequest :=
  [.startupLoad (prBase s + 0x180) 128, .startupLoad (prBase s + 0x200) 256, .startupLoad (prBase s + 0x300) 256]

/-- The end of LOAD_ANCHOR (R184); the host accesses held on HWAIT then proceed (R157). -/
def loadAnchorEnds (s : State) : State :=
  if s.st.state = .loadAnchor then
    s |> judgeDescriptor |> loadRemap |> setStart (fun x => { x with state := .loadSettings })
      |> (fun t => t |> endLoads |> placeLoads (settingsLoads t)) |> releaseHeld
  else s

/-! ## LOAD_SETTINGS (R185) -/

/-- The settings words read, each out of its range replaced by its default. -/
def rangedSettings (raw : List Word) : List Word :=
  (List.range 640).map fun i => let v := raw.getD i 0; if inRange raw (i + 0x180) v then v else defaultWord (i + 0x180)

/-- The words of the orderings that a copy does not keep. -/
def disorderedWords (ss : List Word) : List Nat := (allOrders.filter fun r => !r.holds ss).flatMap Order.words

/-- The offsets whose word is replaced by its default, in rising order. -/
def replacedOffsets (raw : List Word) : List Nat :=
  let bad := disorderedWords (rangedSettings raw)
  ((List.range 640).map (· + 0x180)).filter fun o => !inRange raw o (raw.getD (o - 0x180) 0) || bad.contains o

/-- The copies of the settings areas that the words read give. -/
def loadedSettings (raw : List Word) : List Word :=
  (disorderedWords (rangedSettings raw)).foldl (fun l o => setWord l o (defaultWord o)) (rangedSettings raw)

/-- The defaulted words reported. -/
def reportDefaulted (offsets : List Nat) (s : State) : State :=
  match offsets with
  | [] => s
  | o :: _ =>
    s |> setStart (fun x => { x with defaulted := offsets.length, firstDefaulted := o }) |> setCond Pt.settingsDefaulted true
      |> logEv .settingsDefaulted 0 (wordOf offsets.length) (wordOf o)

/-- The loaded copies handed to their owners, kept blocks included (R1, R34, R49, R76, R95, R155). -/
def handSettings (ss : List Word) (s : State) : State :=
  { s with settings := ss, pm := { s.pm with counting := true }, scan := { s.scan with on := true } }
    |> eachString capacityStored (List.range 4)
    |> fun t => if t.st.keepTrain then t |> busWindowStored |> immediateShed |> genCapacityStored else t

/-- The counter records that this start-up reads, the clock's first (R181, R186; log 26). -/
def recordsToRead (s : State) : List Nat :=
  let clock := if s.st.kind = .powerOn then [13] else []
  if s.st.forCommissioning then clock
  else
    clock ++ (if !s.st.keepTrain && genFitted s then [0] else [])
      ++ (((List.range 8).filter fun m => modulePresent s m && (modRec s m).isNone).map (1 + ·))
      ++ (((List.range 4).filter fun k => decide (k < stringCount s) && (strRec s k).isNone).map (9 + ·))

/-- The place of a counter record (09 §9.5). -/
def recordAddr (s : State) (n : Nat) : Nat := prBase s + 0x400 + 16 * n

/-- The reads of a start-up state have ended, and the host accesses held on their last own word proceed while the state still stands
(R157, R163). -/
def loadsEnd (s : State) : State := s |> endLoads |> releaseHeld

/-- The end of LOAD_SETTINGS (R185). -/
def loadSettingsEnds (s : State) : State :=
  if s.st.state = .loadSettings then
    let raw := readWords s (prBase s + 0x180) 640
    s |> loadsEnd |> reportDefaulted (replacedOffsets raw) |> handSettings (loadedSettings raw)
      |> setStart (fun x => { x with state := .loadCounters })
      |> fun t => placeLoads ((recordsToRead t).map fun n => .startupLoad (recordAddr t n) 16) t
  else s

/-! ## LOAD_COUNTERS (R181) -/

/-- A record is good: its CRC matches and word 0 holds its number. -/
def goodRecord (n : Nat) (w : List Word) : Bool := w.getD 0 0 == wordOf n && crcWords (w.take 15) == w.getD 15 0

/-- A 32-bit field of a record. -/
def fieldPair (w : List Word) (i : Nat) : Nat := pairNat (w.getD i 0) (w.getD (i + 1) 0)

/-- A field of one word. -/
def fieldNat (w : List Word) (i : Nat) : Nat := (w.getD i 0).toNat

/-- The clock from its record (R174). -/
def restoreClock (good : Bool) (w : List Word) (s : State) : State :=
  if good then { s with clk := { s.clk with value := fieldPair w 1, state := .estimated } } else s

/-- The generator's record rebuilt (R123). -/
def restoreGen (good : Bool) (w : List Word) (s : State) : State :=
  setGen (fun g =>
    if good then { g with hours := fieldPair w 1, starts := fieldNat w 3, fuelUsed := fieldPair w 4, lastRunEnd := fieldPair w 6 }
    else { g with hours := 0, starts := 0, fuelUsed := 0, lastRunEnd := 0 }) s

/-- A module's record rebuilt, with no state until RUN (R75). -/
def rebuiltModule (good : Bool) (w : List Word) : ModuleRec :=
  { state := .absent, destService := false, hours := if good then fieldPair w 1 else 0, residue := 0,
    starts := if good then fieldNat w 3 else 0, strikes := [], entered := 0, watch := 0 }

/-- A string's record rebuilt, with no phase until RUN (R29); a deficit above the capacity is lowered to it (R1, log 45). With no valid
temperature since the record was built the string uses 250 dC (R2). -/
def rebuiltString (s : State) (k : Nat) (good : Bool) (w : List Word) : StringRec :=
  { profile := strProfile s.settings k, phase := .absent, stage := .none, priorFault := false, reconnectStart := 0, inrushTimer := false,
    deficit := if good then min (fieldNat w 1) (strCapacity s.settings k) else 0,
    dischargeResidue := 0, chargeResidue := 0, throughputResidue := 0, temp := 250, tempValid := false, tempFromRoom := false, tempChan := none,
    settleSpan := 0, boostTimer := 0, incomplete := false, chargeRequest := 0,
    baseline := if good then (w.getD 9 0).toInt else max 5 (percentC s.settings k (profWord s.settings (strProfile s.settings k) 6) : Int),
    baselineList := [], baselineMinute := 0, baselineSum := 0, baselineSeen := 0, tempHistory := [], tempMinute := 0, runaway := 0,
    stage1Level := 0, runawaySpan := 0, returnSpan := 0, overtempSpan := 0, strikes := 0, outcome := .none,
    lastFull := if good then fieldPair w 5 else 0, lastEqualize := if good then fieldPair w 7 else now s,
    throughputIn := if good then fieldNat w 3 else 0, throughputOut := if good then fieldNat w 4 else 0, unknownCharge := true }

/-- The sixteen words of a counter record as they stand in the memory. -/
def readRecord (s : State) (n : Nat) : List Word := readWords s (recordAddr s n) 16

/-- The words read of a record give its fields, or the defaults, to its owner (R181). -/
def restoreRecord (n : Nat) (w : List Word) (s : State) : State :=
  let good := goodRecord n w
  if n = 13 then restoreClock good w s
  else if n = 0 then restoreGen good w s
  else if n < 9 then { s with ros := { s.ros with mods := s.ros.mods.set (n - 1) (some (rebuiltModule good w)) } }
  else { s with str := { s.str with recs := s.str.recs.set (n - 9) (some (rebuiltString s (n - 9) good w)) } }

/-- The end of LOAD_COUNTERS (R181, R186). -/
def loadCountersEnds (s : State) : State :=
  if s.st.state = .loadCounters then
    let ns := recordsToRead s
    let good := (ns.filter fun n => goodRecord n (readRecord s n)).length
    let bad := ns.length - good
    ns.foldl (fun t n => restoreRecord n (readRecord s n) t) (loadsEnd s)
      |> (fun t => if 0 < bad then setCond Pt.countersLost true t else t)
      |> logEv .countersRestored 0 (wordOf good) (wordOf bad)
      |> setStart (fun x => { x with state := .logScan })
      |> fun t => placeLoads [.startupLoad (prBase t + 0x1000) 4096] t
  else s

/-! ## LOG_SCAN and COMMISSIONING (R186, R187) -/

/-- The sequence of the ring entry at an index, when the entry is valid (R186). -/
def entrySeq (i : Nat) (w : List Word) : Option Nat :=
  let seq := pairNat (w.getD 0 0) (w.getD 1 0)
  if w.getD 0 0 ≠ 0xFFFF ∧ ¬ (w.all (· == 0)) ∧ seq % 512 = i then some seq else none

/-- The sequences of the valid entries, by ring index. -/
def ringSeqs (s : State) : List (Option Nat) :=
  (List.range 512).map fun i => entrySeq i (readWords s (prBase s + 0x1000 + 8 * i) 8)

/-- The highest of the valid sequences. -/
def highestSeq (ring : List (Option Nat)) : Option Nat :=
  ring.foldl (fun b e => match b, e with
    | some x, some y => some (max x y)
    | some x, none => some x
    | none, e => e) none

/-- Entries held, walking back from a sequence (R186). -/
def countBack (ring : List (Option Nat)) : Nat → Nat → Nat
  | 0, _ => 0
  | fuel + 1, seq =>
    if (ring.getD (seq % 512) none) = some seq then 1 + (if seq = 0 then 0 else countBack ring fuel (seq - 1)) else 0

/-- The head and count that the ring's sequences give (R186). -/
def scanLog (ring : List (Option Nat)) (s : State) : State :=
  match highestSeq ring with
  | none => { s with log := { s.log with head := 0, count := 0, ready := true } }
  | some h => { s with log := { s.log with head := h + 1, count := countBack ring 512 h, ready := true } }

/-- The conditions that stand in COMMISSIONING: the Memory Path's, the Start-up Controller's, the Counter Store's, and the TEST_FAILED that
outlives resets (R50, R143). -/
def commissioningConds (conds : List Bool) : List Bool :=
  (List.range 32).map fun p =>
    conds.getD p false && [Pt.testFailed, Pt.memoryWorn, Pt.settingsDefaulted, Pt.countersLost].contains p

/-- COMMISSIONING is entered: no job runs or holds a record, every plant drive but ATTN is unpowered (R30, R51, R77, R94, R125, R143,
R187). -/
def enterCommissioning (s : State) : State :=
  { s with
    st := { s.st with state := .commissioning, outcome := 2 }, str := .reset, bus := { Bus.reset with eq := s.bus.eq, test := s.bus.test },
    ros := { Roster.reset with swap := s.ros.swap.atReset }, src := ⟨.cleared, .cleared⟩, gen := .reset,
    alm := { Alarm.reset with attn := .asserted }, conds := commissioningConds s.conds }
    |> logEv .startupDone 0 2 0

/-- The end of LOG_SCAN (R186). -/
def logScanEnds (s : State) : State :=
  if s.st.state = .logScan then
    s |> loadsEnd |> placeLoads [] |> scanLog (ringSeqs s)
      |> (fun t => if t.st.forCommissioning then enterCommissioning t else setStart (fun x => { x with state := .settle, settleScans := 0 }) t)
      |> placeLogEntry
  else s

/-! ## RUN (R187) -/

/-- The roster's first evaluation in RUN (R76, R77), given the modules that were STOPPING before RUN: one that a shed at RUN stops is judged
at each later evaluation (R57; log 56). -/
def rosterAtRun (stopping : List Nat) (s : State) : State :=
  (if s.st.keepTrain then
    { s with ros := { s.ros with mods := s.ros.mods.map (Option.map fun r => { r with watch := 0 }), shedSpan := 0 } }
   else setSwap (fun w => { w with lastSwap := now s }) s)
    |> eachModule firstModuleState (List.range 8) |> immediateShed |> rosterSteps stopping |> refreshRosterConds

/-- The endings that a reset made are logged with the reset's time (R50). -/
def logLate (s : State) : State :=
  s.st.late.foldl (fun t e => logAt e.time e.kind e.subject e.a e.b t) s |> setStart (fun x => { x with late := [] })

/-- RUN begins (R187). -/
def enterRun (s : State) : State :=
  s |> setStart (fun x => { x with state := .run, outcome := 1 })
    |> (fun t => { t with cmd := { t.cmd with interval := 0, pages := ⟨0, 0, 0, 0⟩ } })
    |> logEv .startupDone 0 1 (wordOf s.st.defaulted) |> logLate

/-- SETTLE has had its ten scan completions. -/
def settleDone (s : State) : Bool := s.st.state == .settle && decide (10 ≤ s.st.settleScans)

/-- The end of SETTLE: RUN, the Alarm Unit's start on the conditions set in start-up, each block's first work in it, with the conditions a
reset kept, and the Alarm Unit's first evaluation (R142, R187; the order: log 19). -/
def settleEnds (sinceLossMs : Nat) (s : State) : State :=
  if settleDone s then
    s |> enterRun |> alarmStart |> sourceAtRun sinceLossMs |> genAtRun |> stringsAtRun |> rosterAtRun (modulesIn s .stopping) |> busAtRun
      |> alarmEvaluation
  else s

/-! ## The part's second (R154, R174) -/

/-- A second of the site clock. -/
def clockSecond (s : State) : State :=
  { s with clk := { s.clk with value := clockPlus s.clk.value 1, uptime := s.clk.uptime + 1 } } |> pm3Second

end Sys2Proof.Machine
end

