-- ==== Sys2Proof/Machine/RowsStart.lean ====
section
/-! DEFINITION. Meanings of the rows of start-up: the three resets, the ends of the start-up states, and the part's second (10; 09 §9.3). -/

namespace Sys2Proof.Machine

/-- What a meaning answers. -/
abbrev Answer : Type := Host.Outcome State Fault Refusal

/-- A row's effect when its condition holds; a row that is not due changes nothing (log 5). -/
def whenDue (due : Bool) (f : State → State) (s : State) : Answer := .next (if due then f s else s)

/-- POWER_ON (R183; R29, R48, R50, R75, R92, R123, R141, R155, R169, R170, R174, R177, R188, R190). -/
def execPowerOn (msz : BitVec 2) (din : BitVec 16) (pin3 : Bool) (s : State) : Answer :=
  .next (powerOnReset msz ((List.range 16).map din.getLsbD) pin3 s)

/-- PIN_RESET (R183). -/
def execPinReset (msz : BitVec 2) (s : State) : Answer := .next (warmReset msz .pin false false [] s)

/-- SOFT_RESET posted in a slot (R171, R183). -/
def execSoftReset (slot : Fin 16) (tag : BitVec 8) (s : State) : Answer := .next (post slot Op.softReset tag s)

/-- LOAD_ANCHOR_END (R184, R168). -/
def execLoadAnchorEnd (s : State) : Answer := .next (loadAnchorEnds s)

/-- LOAD_SETTINGS_END (R185). -/
def execLoadSettingsEnd (s : State) : Answer := .next (loadSettingsEnds s)

/-- LOAD_COUNTERS_END (R181, R186). -/
def execLoadCountersEnd (s : State) : Answer := .next (loadCountersEnds s)

/-- LOG_SCAN_END (R186, R187). -/
def execLogScanEnd (s : State) : Answer := .next (logScanEnds s)

/-- SETTLE_END (R187). -/
def execSettleEnd (sinceLossMs : Nat) (s : State) : Answer := .next (settleEnds sinceLossMs s)

/-- SITE_CLOCK_SECOND (R174). -/
def execSiteClockSecond (s : State) : Answer := .next (clockSecond s)

end Sys2Proof.Machine
end

