-- ==== Sys2Proof/Machine/RowsAlarm.lean ====
section
/-! DEFINITION. Meanings of the rows of the Alarm Unit and the Silence Monitor (06, 10 §10.4). -/

namespace Sys2Proof.Machine

/-- ALARM_EVALUATION (R129, R130). -/
def execAlarmEvaluation (s : State) : Answer := whenDue (inRun s) Sys2Proof.Machine.alarmEvaluation s

/-- RAISE_TIMER_EXPIRY (R131, R133, R138). -/
def execRaiseTimerExpiry (p : Fin 32) (s : State) : Answer :=
  whenDue (inRun s && (point s p.val).state == .raising) (fireRaise p.val .raising) s

/-- CLEAR_TIMER_EXPIRY (R132, R133). -/
def execClearTimerExpiry (p : Fin 32) (s : State) : Answer :=
  whenDue (inRun s && (point s p.val).state == .clearing) (fireClear p.val .clearing (point s p.val).acked) s

/-- ACK_POINT posted in a slot (R134). -/
def execAckPoint (slot : Fin 16) (tag : BitVec 8) (s : State) : Answer := .next (post slot Op.ackPoint tag s)

/-- ACK_ALL posted in a slot (R134). -/
def execAckAll (slot : Fin 16) (tag : BitVec 8) (s : State) : Answer := .next (post slot Op.ackAll tag s)

/-- SILENCE_MONITOR_EVALUATION (R189). -/
def execSilenceMonitorEvaluation (s : State) : Answer := .next (silenceEvaluation s)

/-- SILENCE_LIMIT_REACHED (R189). -/
def execSilenceLimitReached (s : State) : Answer := whenDue (silenceDue s) silenceEvaluation s

/-- GRACE_EXPIRY (R189, R190). -/
def execGraceExpiry (s : State) : Answer := .next (graceExpires s)

/-- RESUME posted in a slot (R190). -/
def execResume (slot : Fin 16) (tag : BitVec 8) (s : State) : Answer := .next (post slot Op.resume tag s)

end Sys2Proof.Machine
end

