-- ==== Sys2Proof/Machine/RowsBus.lean ====
section
/-! DEFINITION. Meanings of the rows of the Bus Regulator (02). -/

namespace Sys2Proof.Machine

/-- BUS_REGULATOR_EVALUATION (R35, R36, R38, R40, R45). -/
def execBusRegulatorEvaluation (s : State) : Answer := .next (busEvaluation s)

/-- EQUALIZE_SCHEDULE_CHECK (R38). -/
def execEqualizeScheduleCheck (s : State) : Answer := whenDue (inRun s) (fun t => t |> refreshCheck |> checkSchedule) s

/-- EQUALIZE_DURATION_REACHED (R41). -/
def execEqualizeDurationReached (s : State) : Answer := whenDue (inRun s && equalizeDue s) advanceEqualize s

/-- TEST_DURATION_REACHED (R45). -/
def execTestDurationReached (s : State) : Answer := whenDue (inRun s && testDue s) testStep s

/-- EQUALIZE_START posted in a slot (R37, R39). -/
def execEqualizeStart (slot : Fin 16) (tag : BitVec 8) (s : State) : Answer := .next (post slot Op.equalizeStart tag s)

/-- EQUALIZE_CANCEL posted in a slot (R42). -/
def execEqualizeCancel (slot : Fin 16) (tag : BitVec 8) (s : State) : Answer := .next (post slot Op.equalizeCancel tag s)

/-- TEST_START posted in a slot (R44). -/
def execTestStart (slot : Fin 16) (tag : BitVec 8) (s : State) : Answer := .next (post slot Op.testStart tag s)

/-- TEST_ABORT posted in a slot (R46). -/
def execTestAbort (slot : Fin 16) (tag : BitVec 8) (s : State) : Answer := .next (post slot Op.testAbort tag s)

end Sys2Proof.Machine
end

