-- ==== Sys2Proof/Machine/RowsGen.lean ====
section
/-! DEFINITION. Meanings of the rows of the Generator Controller (05). -/

namespace Sys2Proof.Machine

/-- GENERATOR_EVALUATION (R97, R99, R102 to R104, R110, R114, R119, R120; R124 in start-up). -/
def execGeneratorEvaluation (s : State) : Answer := .next (genEvaluation s)

/-- REQUEST_END_TIME (R99). -/
def execRequestEndTime (s : State) : Answer := whenDue (inRun s) checkEndTimes s

/-- RUN_LIMIT (R102). -/
def execRunLimit (s : State) : Answer := whenDue (inRun s) checkRunLimit s

/-- EXERCISE_SLOT_REACHED (R103). -/
def execExerciseSlotReached (s : State) : Answer := whenDue (inRun s) (fun t => t |> refreshSlot |> checkSlot) s

/-- PRESTART_EXPIRY (R105). -/
def execPrestartExpiry (s : State) : Answer := .next (prestartExpiry s)

/-- CRANK_TIMER_EXPIRY (R106). -/
def execCrankTimerExpiry (s : State) : Answer := .next (crankExpiry s)

/-- CRANK_REST_EXPIRY (R109, R110). -/
def execCrankRestExpiry (s : State) : Answer := .next (restExpiry s)

/-- BAR_END (R110). -/
def execBarEnd (s : State) : Answer := whenDue (inRun s) checkBar s

/-- WARMUP_EXPIRY (R113; R124 in start-up). -/
def execWarmupExpiry (s : State) : Answer := .next (warmupExpiry s)

/-- OIL_ARMING_EXPIRY (R117). -/
def execOilArmingExpiry (s : State) : Answer := .next (oilArming s)

/-- LOAD_CHECK_START (R118); through a kept start-up it waits for RUN (R124). -/
def execLoadCheckStart (s : State) : Answer := whenDue (inRun s && loadChecking s) (setGen fun g => { g with loadCheckBegun := true }) s

/-- DERATE: the low result that completes the droop span (R118). -/
def execDerate (s : State) : Answer :=
  whenDue (inRun s && derateDue s && decide (s.gen.lastFreq < droopLimit s.settings)) (fun t => judgeDroop t.gen.lastFreq t) s

/-- UNDERSPEED_SPAN_REACHED: the low result that completes the underspeed span (R117). -/
def execUnderspeedSpanReached (s : State) : Answer :=
  whenDue (inRun s && underspeedDue s && decide (s.gen.lastFreq < underspeed s.settings)) (fun t => judgeUnderspeed t.gen.lastFreq t) s

/-- SHUTDOWN_RUNDOWN_EXPIRY (R117). -/
def execShutdownRundownExpiry (s : State) : Answer := .next (rundownExpiry s)

/-- COOLDOWN_EXPIRY (R115). -/
def execCooldownExpiry (s : State) : Answer := .next (cooldownExpiry s)

/-- STOP_TIMER_EXPIRY (R116). -/
def execStopTimerExpiry (s : State) : Answer := .next (stopExpiry s)

/-- GEN_RUN posted in a slot (R100). -/
def execGenRun (slot : Fin 16) (tag : BitVec 8) (s : State) : Answer := .next (post slot Op.genRun tag s)

/-- GEN_STOP posted in a slot (R101). -/
def execGenStop (slot : Fin 16) (tag : BitVec 8) (s : State) : Answer := .next (post slot Op.genStop tag s)

/-- GEN_RESET posted in a slot (R112). -/
def execGenReset (slot : Fin 16) (tag : BitVec 8) (s : State) : Answer := .next (post slot Op.genReset tag s)

/-- GEN_SERVICE posted in a slot (R121, R122). -/
def execGenService (slot : Fin 16) (tag : BitVec 8) (s : State) : Answer := .next (post slot Op.genService tag s)

end Sys2Proof.Machine
end

