-- ==== Sys2Proof/Machine/RowsMeasure.lean ====
section
/-! DEFINITION. Meanings of the rows of the Measurement Scanner, the Input Conditioner and the pulse meters (07). -/

namespace Sys2Proof.Machine

/-- SCAN_COMPLETION (R144 to R146, R3). -/
def execScanCompletion (raw : Vector (BitVec 12) 16) (s : State) : Answer := .next (scanCompletion (raw.toList.map BitVec.toNat) s)

/-- DIN_LINE_CHANGE (R148). -/
def execDinLineChange (n : Fin 16) (high : Bool) (s : State) : Answer := .next (lineChange n.val high s)

/-- DEBOUNCE_EXPIRY (R148, R149). -/
def execDebounceExpiry (n : Fin 16) (s : State) : Answer := .next (debounceEnd n.val s)

/-- INPUT_CONDITIONER_EVALUATION (R150, R151). -/
def execInputConditionerEvaluation (s : State) : Answer := .next (inputEvaluation s)

/-- EDGE_ALARM_CLEAR (R150). -/
def execEdgeAlarmClear (n : Fin 16) (s : State) : Answer := .next (edgeAlarmCheck n.val s)

/-- PIN1_RISING_EDGE (R153). -/
def execPin1RisingEdge (s : State) : Answer := .next (tallyEdge s)

/-- TALLY_QUANTUM: the edge that completes a quantum (R153, R120). -/
def execTallyQuantum (s : State) : Answer := whenDue (tallyDue s) tallyEdge s

/-- PM0_FREQUENCY_RESULT (R152, R106, R113, R116 to R118). -/
def execPm0FrequencyResult (edges spanUs : Nat) (s : State) : Answer := .next (pm0Result (frequencyOf edges spanUs) s)

/-- PM2_FREQUENCY_RESULT (R152, R79 to R81). -/
def execPm2FrequencyResult (edges spanUs : Nat) (s : State) : Answer := .next (pm2Result (frequencyOf edges spanUs) s)

/-- MAINS_SENSE_LOSS (R154, R80). -/
def execMainsSenseLoss (s : State) : Answer := .next (pm3Loss s)

/-- MAINS_SENSE_RETURN (R154, R80). -/
def execMainsSenseReturn (ms : Nat) (s : State) : Answer := .next (pm3Return ms s)

/-- PM3_LONG_RESULT (R154). -/
def execPm3LongResult (s : State) : Answer := .next (pm3Long s)

end Sys2Proof.Machine
end

