-- ==== Sys2Proof/Machine/RowsPath.lean ====
section
/-! DEFINITION. Meanings of the rows of the Memory Path, its Own-Cycle Engine and the Command Interpreter (08, 09). -/

namespace Sys2Proof.Machine

/-- COMMAND_INTERPRETER_EVALUATION (R172, R180). -/
def execCommandInterpreterEvaluation (s : State) : Answer := .next (commandEvaluation s)

/-- CHECKPOINT_INTERVAL (R180). -/
def execCheckpointInterval (s : State) : Answer := whenDue (intervalDue s) countInterval s

/-- FREEZE_CONTROL_WRITE: a host write at PR offset 0 (R173). -/
def execFreezeControlWrite (data : Word) (s : State) : Answer := .next (arrive (.pr 0 data) s)

/-- FREEZE_EXPIRY (R173). -/
def execFreezeExpiry (s : State) : Answer := .next (freezeExpires s)

/-- HOST_WRITE (R157, R159, R162). -/
def execHostWrite (addr : BitVec 19) (data : Word) (s : State) : Answer := .next (arrive (.addr addr data) s)

/-- GUARDED_WRITE: a host write of a settings word (R160, R161). -/
def execGuardedWrite (offset : BitVec 13) (data : Word) (s : State) : Answer := .next (arrive (.pr offset.toNat data) s)

/-- DESCRIPTOR_WRITE: a host write of a descriptor word (R160). -/
def execDescriptorWrite (word : Fin 16) (data : Word) (s : State) : Answer := .next (arrive (.anchor word.val data) s)

/-- OWN_CYCLE_BEGIN (R163, R164, R178). -/
def execOwnCycleBegin (s : State) : Answer := .next (s |> placeLogEntry |> beginOwn)

/-- OWN_WORD_COMPLETE: the held host accesses then proceed (R163, R165 to R167). -/
def execOwnWordComplete (readBack spareReadBack : Word) (s : State) : Answer :=
  .next (s |> finishOwnWord readBack spareReadBack |> releaseHeld)

/-- OWN_REQUEST_COMPLETE (R165, R178). -/
def execOwnRequestComplete (s : State) : Answer := .next (completeOwn s)

/-- UNKNOWN_COMMAND: a post of an opcode outside the command table (R171). -/
def execUnknownCommand (slot : Fin 16) (opcode tag : BitVec 8) (s : State) : Answer := .next (post slot opcode.toNat tag s)

/-- SET_CLOCK posted in a slot (R176). -/
def execSetClock (slot : Fin 16) (tag : BitVec 8) (s : State) : Answer := .next (post slot Op.setClock tag s)

/-- LOAD_PRESET posted in a slot (R28). -/
def execLoadPreset (slot : Fin 16) (tag : BitVec 8) (s : State) : Answer := .next (post slot Op.loadPreset tag s)

/-- SETTINGS_LOCK posted in a slot (R188). -/
def execSettingsLock (slot : Fin 16) (tag : BitVec 8) (s : State) : Answer := .next (post slot Op.settingsLock tag s)

/-- LOG_NOTE posted in a slot (R179). -/
def execLogNote (slot : Fin 16) (tag : BitVec 8) (s : State) : Answer := .next (post slot Op.logNote tag s)

end Sys2Proof.Machine
end

