-- ==== Sys2Proof/Machine/RowsRoster.lean ====
section
/-! DEFINITION. Meanings of the rows of the Rectifier Roster (03). -/

namespace Sys2Proof.Machine

/-- ROSTER_EVALUATION (R67, R76). -/
def execRosterEvaluation (s : State) : Answer := .next (Sys2Proof.Machine.rosterEvaluation s)

/-- MODULE_START_EXPIRY (R56, R59). -/
def execModuleStartExpiry (m : Fin 8) (s : State) : Answer :=
  whenDue (inRun s && decide (30 ≤ inStateFor s m.val)) (fun t => t |> judgeStart m.val |> refreshModuleConds) s

/-- STOP_UNCONFIRMED (R57). -/
def execStopUnconfirmed (m : Fin 8) (s : State) : Answer :=
  whenDue (inRun s && decide (10 ≤ inStateFor s m.val)) (fun t => t |> judgeStop m.val |> refreshModuleConds) s

/-- The watch span of a module completes at an evaluation made now (R58). -/
def watchDue (s : State) (m : Nat) : Bool :=
  modState s m == .online && !s.ros.cap.dead && !modOk s m && decide (5 ≤ ((modRec s m).map (·.watch)).getD 0 + 1)

/-- WATCH_SPAN_EXPIRY (R58, R59). -/
def execWatchSpanExpiry (m : Fin 8) (s : State) : Answer :=
  whenDue (inRun s && watchDue s m.val) (fun t => t |> watchModule m.val |> refreshModuleConds) s

/-- RETRY_HOLD_END (R60; R76 in start-up). -/
def execRetryHoldEnd (m : Fin 8) (s : State) : Answer :=
  whenDue (trainRuns s) (fun t => t |> endHold m.val |> refreshModuleConds) s

/-- SHED_SPAN_EXPIRY (R69). -/
def execShedSpanExpiry (s : State) : Answer :=
  whenDue (inRun s && (shedCandidate s).isSome && decide (600 ≤ s.ros.shedSpan + 1)) shedRule s

/-- MODULE_SERVICE posted in a slot (R61). -/
def execModuleService (slot : Fin 16) (tag : BitVec 8) (s : State) : Answer := .next (post slot Op.moduleService tag s)

/-- MODULE_RETURN posted in a slot (R62). -/
def execModuleReturn (slot : Fin 16) (tag : BitVec 8) (s : State) : Answer := .next (post slot Op.moduleReturn tag s)

/-- ROTATE_NOW posted in a slot (R74). -/
def execRotateNow (slot : Fin 16) (tag : BitVec 8) (s : State) : Answer := .next (post slot Op.rotateNow tag s)

end Sys2Proof.Machine
end

