-- ==== Sys2Proof/Machine/RowsSource.lean ====
section
/-! DEFINITION. Meanings of the rows of the Source Controller (04). -/

namespace Sys2Proof.Machine

/-- SOURCE_CONTROLLER_EVALUATION (R83, R86 to R88). -/
def execSourceControllerEvaluation (s : State) : Answer := .next (sourceEvaluation s)

/-- OUTAGE_DELAY_REACHED (R83). -/
def execOutageDelayReached (s : State) : Answer := whenDue (inRun s && mainsFailDue s) checkMainsFail s

/-- RETRANSFER_SPAN_REACHED: the count of an evaluation that reaches the retransfer delay (R88). -/
def execRetransferSpanReached (s : State) : Answer :=
  whenDue (inRun s && s.src.xfer.state == .onGen && retransferDue (countRetransfer s)) checkOnGen s

/-- DIP_TOLERANCE_EXPIRY (R80; R93 in start-up). -/
def execDipToleranceExpiry (s : State) : Answer := whenDue (trainRuns s) dipExpiry s

/-- MAINS_QUALIFIED: the result that completes the qualify span (R79). -/
def execMainsQualified (s : State) : Answer :=
  whenDue (inRun s && qualifyDue s && inFreqWindow s s.src.mains.lastFreq) (fun t => sourceFrequency t.src.mains.lastFreq t) s

/-- QUALITY_SPAN_REACHED: the result that completes the quality span (R81). -/
def execQualitySpanReached (s : State) : Answer :=
  whenDue (inRun s && qualityDue s && !inFreqWindow s s.src.mains.lastFreq) (fun t => sourceFrequency t.src.mains.lastFreq t) s

/-- CONFIRM_TIMER_EXPIRY (R85; R93 in start-up). -/
def execConfirmTimerExpiry (s : State) : Answer := .next (confirmExpiry s)

/-- MISMATCH_WATCH_EXPIRY (R85, R89). -/
def execMismatchWatchExpiry (s : State) : Answer := .next (mismatchExpiry s)

/-- DEAD_TIME_EXPIRY (R87; R93 in start-up). -/
def execDeadTimeExpiry (s : State) : Answer := .next (deadTimeExpiry s)

/-- MAINS_RELEASE_EXPIRY (R84; R93 in start-up). -/
def execMainsReleaseExpiry (s : State) : Answer := .next (mainsRelease s)

/-- TRANSFER_RETRY posted in a slot (R89). -/
def execTransferRetry (slot : Fin 16) (tag : BitVec 8) (s : State) : Answer := .next (post slot Op.transferRetry tag s)

end Sys2Proof.Machine
end

