-- ==== Sys2Proof/Machine/RowsStrings.lean ====
section
/-! DEFINITION. Meanings of the rows of the String Supervisor (01). The rows that name a moment inside an evaluation make that part of it alone (log 6). -/

namespace Sys2Proof.Machine

/-- STRING_SUPERVISOR_EVALUATION (R2 to R26). -/
def execStringSupervisorEvaluation (s : State) : Answer := .next (stringEvaluation s)

/-- SETTLE_SPAN_COMPLETE (R6, R7). -/
def execSettleSpanComplete (k : Fin 4) (s : State) : Answer :=
  whenDue (inRun s && settleDue s k.val) (fun t => t |> judgePhase k.val |> refreshStringConds) s

/-- BOOST_MAXIMUM_REACHED (R10). -/
def execBoostMaximumReached (k : Fin 4) (s : State) : Answer :=
  whenDue (inRun s && boostDue s k.val) (fun t => t |> countBoost k.val |> refreshStringConds) s

/-- BASELINE_MINUTE (R13). -/
def execBaselineMinute (k : Fin 4) (s : State) : Answer := whenDue (inRun s && baselineDue s k.val) (countBaseline k.val) s

/-- TEMPERATURE_MINUTE (R16). -/
def execTemperatureMinute (k : Fin 4) (s : State) : Answer :=
  whenDue (inRun s && temperatureDue s k.val) (fun t => t |> countTemperature k.val |> judgeStage2 k.val |> refreshStringConds) s

/-- RUNAWAY_SPAN_EXPIRY (R14). -/
def execRunawaySpanExpiry (k : Fin 4) (s : State) : Answer :=
  whenDue (inRun s && runawayDue s k.val) (fun t => t |> countRunaway k.val |> refreshStringConds) s

/-- RUNAWAY_RETURN_SPAN_EXPIRY (R14). -/
def execRunawayReturnSpanExpiry (k : Fin 4) (s : State) : Answer :=
  whenDue (inRun s && returnDue s k.val) (fun t => t |> countRunaway k.val |> refreshStringConds) s

/-- OVERTEMP_SPAN_EXPIRY (R17, R18). -/
def execOvertempSpanExpiry (k : Fin 4) (s : State) : Answer :=
  whenDue (inRun s && overtempDue s k.val) (fun t => t |> countOvertemp k.val |> refreshStringConds) s

/-- START_VOLTAGE_SPAN_EXPIRY (R25). -/
def execStartVoltageSpanExpiry (s : State) : Answer :=
  whenDue (inRun s && busSpanDue s) (fun t => t |> countBusSpan |> checkDepth) s

/-- RECONNECT_TIMEOUT (R21, R22). -/
def execReconnectTimeout (s : State) : Answer :=
  match reconnecting s with
  | some k => whenDue (inRun s && reconnectOverdue s k) (fun t => t |> handleMatching k |> refreshStringConds) s
  | none => .next s

/-- INRUSH_TIMER_EXPIRY (R23). -/
def execInrushTimerExpiry (s : State) : Answer :=
  match reconnecting s with
  | some k => whenDue (inRun s) (fun t => t |> inrushExpiry k |> refreshStringConds) s
  | none => .next s

/-- STRING_ISOLATE posted in a slot (R19). -/
def execStringIsolate (slot : Fin 16) (tag : BitVec 8) (s : State) : Answer := .next (post slot Op.stringIsolate tag s)

/-- STRING_RECONNECT posted in a slot (R20). -/
def execStringReconnect (slot : Fin 16) (tag : BitVec 8) (s : State) : Answer := .next (post slot Op.stringReconnect tag s)

end Sys2Proof.Machine
end

