-- ==== Sys2Proof/Machine/Dispatch.lean ====
section
/-! DEFINITION. The dispatch: one arm per command, each one direct call of its meaning. -/

namespace Sys2Proof.Machine

def exec (i : Instr) (s : State) : Host.Outcome State Fault Refusal :=
  match i with
  | .powerOn msz din pin3 => Sys2Proof.Machine.execPowerOn msz din pin3 s
  | .pinReset msz => Sys2Proof.Machine.execPinReset msz s
  | .softReset slot tag => Sys2Proof.Machine.execSoftReset slot tag s
  | .loadAnchorEnd => Sys2Proof.Machine.execLoadAnchorEnd s
  | .loadSettingsEnd => Sys2Proof.Machine.execLoadSettingsEnd s
  | .loadCountersEnd => Sys2Proof.Machine.execLoadCountersEnd s
  | .logScanEnd => Sys2Proof.Machine.execLogScanEnd s
  | .settleEnd sinceLossMs => Sys2Proof.Machine.execSettleEnd sinceLossMs s
  | .scanCompletion raw => Sys2Proof.Machine.execScanCompletion raw s
  | .stringSupervisorEvaluation => Sys2Proof.Machine.execStringSupervisorEvaluation s
  | .settleSpanComplete k => Sys2Proof.Machine.execSettleSpanComplete k s
  | .boostMaximumReached k => Sys2Proof.Machine.execBoostMaximumReached k s
  | .baselineMinute k => Sys2Proof.Machine.execBaselineMinute k s
  | .temperatureMinute k => Sys2Proof.Machine.execTemperatureMinute k s
  | .runawaySpanExpiry k => Sys2Proof.Machine.execRunawaySpanExpiry k s
  | .runawayReturnSpanExpiry k => Sys2Proof.Machine.execRunawayReturnSpanExpiry k s
  | .overtempSpanExpiry k => Sys2Proof.Machine.execOvertempSpanExpiry k s
  | .startVoltageSpanExpiry => Sys2Proof.Machine.execStartVoltageSpanExpiry s
  | .reconnectTimeout => Sys2Proof.Machine.execReconnectTimeout s
  | .inrushTimerExpiry => Sys2Proof.Machine.execInrushTimerExpiry s
  | .busRegulatorEvaluation => Sys2Proof.Machine.execBusRegulatorEvaluation s
  | .equalizeScheduleCheck => Sys2Proof.Machine.execEqualizeScheduleCheck s
  | .equalizeDurationReached => Sys2Proof.Machine.execEqualizeDurationReached s
  | .testDurationReached => Sys2Proof.Machine.execTestDurationReached s
  | .rosterEvaluation => Sys2Proof.Machine.execRosterEvaluation s
  | .moduleStartExpiry m => Sys2Proof.Machine.execModuleStartExpiry m s
  | .stopUnconfirmed m => Sys2Proof.Machine.execStopUnconfirmed m s
  | .watchSpanExpiry m => Sys2Proof.Machine.execWatchSpanExpiry m s
  | .retryHoldEnd m => Sys2Proof.Machine.execRetryHoldEnd m s
  | .shedSpanExpiry => Sys2Proof.Machine.execShedSpanExpiry s
  | .sourceControllerEvaluation => Sys2Proof.Machine.execSourceControllerEvaluation s
  | .outageDelayReached => Sys2Proof.Machine.execOutageDelayReached s
  | .retransferSpanReached => Sys2Proof.Machine.execRetransferSpanReached s
  | .mainsSenseLoss => Sys2Proof.Machine.execMainsSenseLoss s
  | .mainsSenseReturn ms => Sys2Proof.Machine.execMainsSenseReturn ms s
  | .pm3LongResult => Sys2Proof.Machine.execPm3LongResult s
  | .dipToleranceExpiry => Sys2Proof.Machine.execDipToleranceExpiry s
  | .pm2FrequencyResult edges spanUs => Sys2Proof.Machine.execPm2FrequencyResult edges spanUs s
  | .mainsQualified => Sys2Proof.Machine.execMainsQualified s
  | .qualitySpanReached => Sys2Proof.Machine.execQualitySpanReached s
  | .confirmTimerExpiry => Sys2Proof.Machine.execConfirmTimerExpiry s
  | .mismatchWatchExpiry => Sys2Proof.Machine.execMismatchWatchExpiry s
  | .deadTimeExpiry => Sys2Proof.Machine.execDeadTimeExpiry s
  | .mainsReleaseExpiry => Sys2Proof.Machine.execMainsReleaseExpiry s
  | .generatorEvaluation => Sys2Proof.Machine.execGeneratorEvaluation s
  | .requestEndTime => Sys2Proof.Machine.execRequestEndTime s
  | .runLimit => Sys2Proof.Machine.execRunLimit s
  | .exerciseSlotReached => Sys2Proof.Machine.execExerciseSlotReached s
  | .prestartExpiry => Sys2Proof.Machine.execPrestartExpiry s
  | .pm0FrequencyResult edges spanUs => Sys2Proof.Machine.execPm0FrequencyResult edges spanUs s
  | .crankTimerExpiry => Sys2Proof.Machine.execCrankTimerExpiry s
  | .crankRestExpiry => Sys2Proof.Machine.execCrankRestExpiry s
  | .barEnd => Sys2Proof.Machine.execBarEnd s
  | .warmupExpiry => Sys2Proof.Machine.execWarmupExpiry s
  | .oilArmingExpiry => Sys2Proof.Machine.execOilArmingExpiry s
  | .loadCheckStart => Sys2Proof.Machine.execLoadCheckStart s
  | .derate => Sys2Proof.Machine.execDerate s
  | .underspeedSpanReached => Sys2Proof.Machine.execUnderspeedSpanReached s
  | .shutdownRundownExpiry => Sys2Proof.Machine.execShutdownRundownExpiry s
  | .cooldownExpiry => Sys2Proof.Machine.execCooldownExpiry s
  | .stopTimerExpiry => Sys2Proof.Machine.execStopTimerExpiry s
  | .tallyQuantum => Sys2Proof.Machine.execTallyQuantum s
  | .alarmEvaluation => Sys2Proof.Machine.execAlarmEvaluation s
  | .raiseTimerExpiry p => Sys2Proof.Machine.execRaiseTimerExpiry p s
  | .clearTimerExpiry p => Sys2Proof.Machine.execClearTimerExpiry p s
  | .dinLineChange n high => Sys2Proof.Machine.execDinLineChange n high s
  | .debounceExpiry n => Sys2Proof.Machine.execDebounceExpiry n s
  | .inputConditionerEvaluation => Sys2Proof.Machine.execInputConditionerEvaluation s
  | .edgeAlarmClear n => Sys2Proof.Machine.execEdgeAlarmClear n s
  | .commandInterpreterEvaluation => Sys2Proof.Machine.execCommandInterpreterEvaluation s
  | .checkpointInterval => Sys2Proof.Machine.execCheckpointInterval s
  | .freezeControlWrite data => Sys2Proof.Machine.execFreezeControlWrite data s
  | .freezeExpiry => Sys2Proof.Machine.execFreezeExpiry s
  | .hostWrite addr data => Sys2Proof.Machine.execHostWrite addr data s
  | .guardedWrite offset data => Sys2Proof.Machine.execGuardedWrite offset data s
  | .descriptorWrite word data => Sys2Proof.Machine.execDescriptorWrite word data s
  | .ownCycleBegin => Sys2Proof.Machine.execOwnCycleBegin s
  | .ownWordComplete readBack spareReadBack => Sys2Proof.Machine.execOwnWordComplete readBack spareReadBack s
  | .ownRequestComplete => Sys2Proof.Machine.execOwnRequestComplete s
  | .silenceMonitorEvaluation => Sys2Proof.Machine.execSilenceMonitorEvaluation s
  | .silenceLimitReached => Sys2Proof.Machine.execSilenceLimitReached s
  | .graceExpiry => Sys2Proof.Machine.execGraceExpiry s
  | .unknownCommand slot opcode tag => Sys2Proof.Machine.execUnknownCommand slot opcode tag s
  | .setClock slot tag => Sys2Proof.Machine.execSetClock slot tag s
  | .ackPoint slot tag => Sys2Proof.Machine.execAckPoint slot tag s
  | .ackAll slot tag => Sys2Proof.Machine.execAckAll slot tag s
  | .genRun slot tag => Sys2Proof.Machine.execGenRun slot tag s
  | .genStop slot tag => Sys2Proof.Machine.execGenStop slot tag s
  | .genReset slot tag => Sys2Proof.Machine.execGenReset slot tag s
  | .genService slot tag => Sys2Proof.Machine.execGenService slot tag s
  | .transferRetry slot tag => Sys2Proof.Machine.execTransferRetry slot tag s
  | .moduleService slot tag => Sys2Proof.Machine.execModuleService slot tag s
  | .moduleReturn slot tag => Sys2Proof.Machine.execModuleReturn slot tag s
  | .rotateNow slot tag => Sys2Proof.Machine.execRotateNow slot tag s
  | .stringIsolate slot tag => Sys2Proof.Machine.execStringIsolate slot tag s
  | .stringReconnect slot tag => Sys2Proof.Machine.execStringReconnect slot tag s
  | .equalizeStart slot tag => Sys2Proof.Machine.execEqualizeStart slot tag s
  | .equalizeCancel slot tag => Sys2Proof.Machine.execEqualizeCancel slot tag s
  | .testStart slot tag => Sys2Proof.Machine.execTestStart slot tag s
  | .testAbort slot tag => Sys2Proof.Machine.execTestAbort slot tag s
  | .loadPreset slot tag => Sys2Proof.Machine.execLoadPreset slot tag s
  | .settingsLock slot tag => Sys2Proof.Machine.execSettingsLock slot tag s
  | .resume slot tag => Sys2Proof.Machine.execResume slot tag s
  | .logNote slot tag => Sys2Proof.Machine.execLogNote slot tag s
  | .siteClockSecond => Sys2Proof.Machine.execSiteClockSecond s
  | .pin1RisingEdge => Sys2Proof.Machine.execPin1RisingEdge s

end Sys2Proof.Machine
end

