-- ==== Sys2Proof/Safety.lean ====
section
/-! DEFINITION. What every step keeps: the lists' lengths and the command slots' seven words, the transfer interlock, the generator's
drives, the canonical form of the memory, and the bounds of the event log; and the words that the statements are written in. -/

namespace Sys2Proof.Machine

/-- The transfer interlock: XFR_GCLOSE is asserted only with XFR_MOPEN asserted (R84). -/
def Interlock (x : Xfer) : Prop := x.gclose = .asserted → x.mopen = .asserted

/-- The generator's outputs are those of its state, or all unpowered since a reset (R96, R123). -/
def GenDrives (g : Gen) : Prop :=
  (g.pre, g.run, g.crank) = g.state.outputs ∨ (g.pre, g.run, g.crank) = (.unpowered, .unpowered, .unpowered)

/-- The event log's bounds: 32 pending events, 512 entries held (R177, R178). -/
def LogBounds (l : Log) : Prop := l.queue.length ≤ 32 ∧ l.count ≤ 512

/-- The lengths of the lists that the state holds one entry per string, module, point, condition, channel, input, slot or word in. -/
def shape (s : State) : List Nat :=
  [s.str.recs.length, s.str.iso.length, s.ros.mods.length, s.ros.inh.length, s.alm.points.length, s.alm.copies.length, s.conds.length,
   s.scan.chans.length, s.inp.lines.length, s.inp.levels.length, s.inp.timers.length, s.inp.lastEdge.length, s.inp.lastNamed.length,
   s.inp.shown.length, s.cmd.slots.length, s.settings.length]

/-- Four strings, eight modules, thirty-two points and conditions, sixteen channels, inputs and slots, 640 settings words. -/
abbrev Shape (s : State) : Prop := shape s = [4, 4, 8, 8, 32, 32, 32, 16, 16, 16, 16, 16, 16, 16, 16, 640]

/-- Every command slot shows seven words: word 0 and the six argument words (R170). -/
abbrev SlotsWhole (s : State) : Prop := ∀ c ∈ s.cmd.slots, c.words.length = 7

/-- The invariant of the block. -/
structure Inv (s : State) : Prop where
  shape : Shape s
  slots : SlotsWhole s
  interlock : Interlock s.src.xfer
  genDrives : GenDrives s.gen
  memory : Memory.wf s.path.cells = true
  log : LogBounds s.log

/-! ## Words of the statements -/

/-- Host writes reach the block now: start-up is over and no own word is in progress (R157, R163). -/
abbrev Listens (s : State) : Prop := starting s = false ∧ ownWordActive s = false

/-- The state in which a posted command is judged: the write is a heartbeat, and word 0 is stored and captured (R159, R170, R189). -/
def atPost (slot : Fin 16) (op : Nat) (tag : BitVec 8) (s : State) : State :=
  let v := bytesWord op tag.toNat
  s |> heartbeat |> hostStore (prBase s + (0x100 + 8 * slot.val)) v |> captureWord slot.val 0 v

/-- The state in which the owner of a settings word takes it: the write is a heartbeat, and the word stands in the memory and in the copy (R159,
R160, R189). -/
def stored (o : BitVec 13) (v : Word) (s : State) : State :=
  let u := heartbeat s
  { hostStore (prBase s + o.toNat) v u with settings := setWord u.settings o.toNat v }

/-- A guarded write of v at offset o is stored at once: the block listens, and v passes every check of R160. -/
abbrev Stores (o : BitVec 13) (v : Word) (s : State) : Prop := Shape s ∧ Listens s ∧ guardFails o.toNat v s = none

/-- The settings words that their owners act on in the step in which they are stored: string capacities, the no-battery level, bus min and
max, ratings, reserve and utilisation, the outage start delay, the generator capacity, the exercise settings, the tally quantum, and the class
and latching of a point (R1, R34, R53, R78, R95, R103, R126, R127, R153). -/
def takenAtOnce (o : Nat) : Bool :=
  [0x201, 0x204, 0x207, 0x20A, 0x20C, 0x214, 0x215, 0x22F, 0x232, 0x241].contains o || decide (0x218 ≤ o ∧ o ≤ 0x221) ||
    decide (0x238 ≤ o ∧ o ≤ 0x23B) || decide (0x300 ≤ o ∧ o % 8 < 2)

/-- The two relays and ATTN show the points as they stand (R137). -/
def OutputsFollow (t : State) : Prop :=
  t.alm.urg = (if anyActive t 3 then .deenergized else .energized) ∧
    t.alm.def_ = (if anyActive t 2 then .deenergized else .energized) ∧ t.alm.attn = (if anyUnack t then .asserted else .released)

/-- The result code and the detail that a slot shows (R170). -/
def replyOf (t : State) (slot : Fin 16) : Reply := let c := t.cmd.slots.getD slot.val .cleared; (c.code, c.detail)

/-- An argument word of a slot as a number. -/
def arg (s : State) (slot : Fin 16) (i : Nat) : Nat := (argWord s slot.val i).toNat

/-- A slot that holds the claim v decides among the slots of a class: every other claim of the class has a worse level, or the same level
with a later post, or the same level and time and stands later in the class (R33). -/
def Claims.decides (c : Claims) (better : Int → Int → Prop) (ks : List Slot) (k : Slot) (v : Claim) : Prop :=
  k ∈ ks ∧ c.get k = some v ∧ ∀ j ∈ ks, ∀ w, c.get j = some w → j = k ∨ better v.level w.level ∨
    (v.level = w.level ∧ (v.time < w.time ∨ (v.time = w.time ∧ ks.idxOf k < ks.idxOf j)))

/-- The nine preconditions of an equalize, in the order of R37. -/
def equalizeCases (scheduled : Bool) (s : State) : List Bool :=
  let c := s.str.handed.connected
  [decide (s.bus.eq.running = false), decide (s.bus.test.state ≠ .running), (List.range 4).all fun k => strPhase s k != .reconnecting,
    decide (s.src.xfer.state = .onMains ∧ s.src.mains.state = .present), decide (c ≠ []), decide (∀ h ∈ c, h.phase = .full),
    decide (∀ h ∈ c, profWord s.settings h.profile 3 = 1 ∧ 0 < profWord s.settings h.profile 16),
    decide (pointActive s Pt.battOvertemp = false), decide (scheduled = true → attended s = false)]

/-- What TEST_START asks, in the order of R44: the three ranges of its arguments, then the eight cases of its table. -/
def testCases (minutes volts : Nat) (s : State) : List Bool :=
  let c := s.str.handed.connected
  [decide (10 ≤ minutes ∧ minutes ≤ 600), decide (42000 ≤ volts ∧ volts ≤ 50000), decide (testLevel s.settings ≤ volts),
    decide (s.bus.eq.running = false), decide (s.bus.test.state ≠ .running), (List.range 4).all fun k => strPhase s k != .reconnecting,
    decide (s.src.xfer.state = .onMains ∧ s.src.mains.state = .present), decide (s.gen.state = .standby ∨ s.gen.state = .disabled),
    decide (c ≠ []), decide (∀ h ∈ c, h.phase = .full), decide (anyActive s 3 = false)]

/-- Every case of a list holds. -/
abbrev AllHold (l : List Bool) : Prop := ∀ b ∈ l, b = true

/-- Case n of a list, counted from 0, is the first that does not hold. -/
abbrev FirstFails (l : List Bool) (n : Nat) : Prop := (∀ j < n, l[j]? = some true) ∧ l[n]? = some false

/-- The refusals of EQUALIZE_START by the first failed precondition, in the order of R37. -/
def equalizeReplies : List Reply :=
  [(.refusedBusy, 1), (.refusedBusy, 2), (.refusedBusy, 3), (.refusedState, 1), (.refusedState, 5), (.refusedState, 2), (.refusedState, 3),
    (.refusedState, 4)]

/-- The refusals of TEST_START by the first case that does not hold, in the order of R44. -/
def testReplies : List Reply :=
  [(.refusedRange, 1), (.refusedRange, 2), (.refusedRange, 3), (.refusedBusy, 1), (.refusedBusy, 2), (.refusedBusy, 3), (.refusedState, 1),
    (.refusedState, 2), (.refusedState, 4), (.refusedState, 3), (.refusedState, 5)]

/-- A string's record as a reset that does not keep the String Supervisor has it rebuilt, but for what its counter record gives: no phase, no
valid temperature, UNKNOWN_CHARGE, residues, spans and strikes 0, and the lists empty (R2, R29). -/
def StringRec.fresh (profile : Nat) : StringRec :=
  { profile := profile, phase := .absent, stage := .none, priorFault := false, reconnectStart := 0, inrushTimer := false, deficit := 0,
    dischargeResidue := 0, chargeResidue := 0, throughputResidue := 0, temp := 250, tempValid := false, tempFromRoom := false,
    tempChan := none, settleSpan := 0, boostTimer := 0, incomplete := false, chargeRequest := 0, baseline := 0, baselineList := [],
    baselineMinute := 0, baselineSum := 0, baselineSeen := 0, tempHistory := [], tempMinute := 0, runaway := 0, stage1Level := 0,
    runawaySpan := 0, returnSpan := 0, overtempSpan := 0, strikes := 0, outcome := .none, lastFull := 0, lastEqualize := 0,
    throughputIn := 0, throughputOut := 0, unknownCharge := true }

/-- The levels that the two parts of R15 ask of THERMAL: the stage-1 levels, and while BATT_OVERTEMP is active the float level of the warmest
connected string less its runaway step. -/
def thermalAsks (t : State) : List Int :=
  (t.str.recs.filterMap fun r => r.bind fun r => if r.runaway = 1 then some r.stage1Level else none) ++
    (if pointActive t Pt.battOvertemp then
      ((warmestString t).map fun p => levelOf t.settings 0 p.2 - profWord t.settings p.2.profile 12).toList else [])

/-- A claim after its poster wishes a level: as it stands when it has that level, else of the level and the clock's time (R15, R21, R32). -/
def wished (t : Nat) (level : Int) (c : Option Claim) : Option Claim := if c.map (·.level) = some level then c else some ⟨level, t⟩

/-- No module is to be judged at an evaluation made now: none is STARTING or STOPPING, no FAILED hold has run, and no ONLINE module has lost
its MOD_OK under a live source (R56 to R58, R60). -/
abbrev ModulesSettled (s : State) : Prop :=
  ∀ m < 8, modState s m ≠ .starting ∧ modState s m ≠ .stopping ∧ (modState s m = .failed → inStateFor s m < 300) ∧
    (modState s m = .online → s.ros.cap.dead = true ∨ modOk s m = true)

/-- The roster calls for one more module with the load l: the demand exceeds the effective capacity, or the ONLINE count lies below
1 + reserve (R68). -/
abbrev WantsModule (l : Nat) (s : State) : Prop :=
  effectiveCapacity s < l + s.ros.requestTotal ∨ onlineCount s < 1 + reserve s.settings

/-- A scheduled swap of an incoming and an outgoing module is due, the run hours being those of u (R70). -/
abbrev SwapDue (s u : State) (p : Nat × Nat) : Prop :=
  s.ros.swap.inProgress = false ∧ swapTimely s = true ∧ attended s = false ∧ s.ros.cap = .unlimited ∧ swapPair u = some p ∧
    hoursOf u p.1 + rotationMargin u.settings ≤ hoursOf u p.2

/-- A generator that has left a state for one in which no engine runs: the timers and marks that end with the state left are clear (R96, R117,
R118). -/
def Gen.standing (g : Gen) (st : GenState) (t : Nat) : Gen :=
  { g with
    state := st, entered := t, timer := true, oilTimer := false, oilArmed := false, warmupDue := false, rundownWatch := false,
    rundownDue := false, loadCheckBegun := false, droopSpan := 0 }

/-- The slot, the opcode and the tag of a command posted in the window. -/
def postOf : Instr → Option (Fin 16 × Nat × BitVec 8)
  | .softReset k g => some (k, Op.softReset, g)
  | .unknownCommand k op g => some (k, op.toNat, g)
  | .setClock k g => some (k, Op.setClock, g)
  | .ackPoint k g => some (k, Op.ackPoint, g)
  | .ackAll k g => some (k, Op.ackAll, g)
  | .genRun k g => some (k, Op.genRun, g)
  | .genStop k g => some (k, Op.genStop, g)
  | .genReset k g => some (k, Op.genReset, g)
  | .genService k g => some (k, Op.genService, g)
  | .transferRetry k g => some (k, Op.transferRetry, g)
  | .moduleService k g => some (k, Op.moduleService, g)
  | .moduleReturn k g => some (k, Op.moduleReturn, g)
  | .rotateNow k g => some (k, Op.rotateNow, g)
  | .stringIsolate k g => some (k, Op.stringIsolate, g)
  | .stringReconnect k g => some (k, Op.stringReconnect, g)
  | .equalizeStart k g => some (k, Op.equalizeStart, g)
  | .equalizeCancel k g => some (k, Op.equalizeCancel, g)
  | .testStart k g => some (k, Op.testStart, g)
  | .testAbort k g => some (k, Op.testAbort, g)
  | .loadPreset k g => some (k, Op.loadPreset, g)
  | .settingsLock k g => some (k, Op.settingsLock, g)
  | .resume k g => some (k, Op.resume, g)
  | .logNote k g => some (k, Op.logNote, g)
  | _ => none

/-- The address that a host write or a post goes to before redirection. -/
def hostAddr (s : State) (c : Instr) : Option Nat :=
  match c with
  | .hostWrite a _ => some a.toNat
  | .guardedWrite o _ => some (prBase s + o.toNat)
  | .descriptorWrite w _ => some (s.path.size - 64 + w.val)
  | c => (postOf c).map fun p => prBase s + (0x100 + 8 * p.1.val)

/-- The own write that a reset finds in progress: its address and value. -/
def ownWriteInProgress (s : State) : Option (Nat × Word) :=
  s.path.busy.bind fun b => if b.word then ownWrite s b.request b.next else none

/-- The memory of t is that of s after a reset: with no own write in progress as it was; with one, every word but the one written as it was,
and that one, if it is sound, as written (R169). -/
def MemoryCut (s t : State) : Prop :=
  (ownWriteInProgress s = none → ∀ x, readCells t.path.cells x = readCells s.path.cells x) ∧
    ∀ a v, ownWriteInProgress s = some (a, v) → Memory.wf s.path.cells = true →
      (∀ x, x ≠ s.path.redirect a → readCells t.path.cells x = readCells s.path.cells x) ∧
        (s.path.faulty.contains (s.path.redirect a) = false → readCells t.path.cells (s.path.redirect a) = v)

/-- The rows that write no memory word: all but the host's writes and posts, the own words, and the resets and the ends of the start-up
states that read the memory, which complete or release writes. -/
def storesNothing : Instr → Bool
  | .hostWrite .. | .guardedWrite .. | .descriptorWrite .. | .ownWordComplete .. | .powerOn .. | .pinReset .. | .loadAnchorEnd
  | .loadSettingsEnd | .loadCountersEnd | .logScanEnd => false
  | c => (postOf c).isNone

/-- The rows of the jobs: String Supervisor, Bus Regulator, Rectifier Roster, Source Controller, Generator Controller and Alarm Unit. -/
def jobRow : Instr → Bool
  | .stringSupervisorEvaluation | .settleSpanComplete .. | .boostMaximumReached .. | .baselineMinute .. | .temperatureMinute ..
  | .runawaySpanExpiry .. | .runawayReturnSpanExpiry .. | .overtempSpanExpiry .. | .startVoltageSpanExpiry | .reconnectTimeout
  | .inrushTimerExpiry | .busRegulatorEvaluation | .equalizeScheduleCheck | .equalizeDurationReached | .testDurationReached
  | .rosterEvaluation | .moduleStartExpiry .. | .stopUnconfirmed .. | .watchSpanExpiry .. | .retryHoldEnd .. | .shedSpanExpiry
  | .sourceControllerEvaluation | .outageDelayReached | .retransferSpanReached | .dipToleranceExpiry | .mainsQualified
  | .qualitySpanReached | .confirmTimerExpiry | .mismatchWatchExpiry | .deadTimeExpiry | .mainsReleaseExpiry | .generatorEvaluation
  | .requestEndTime | .runLimit | .exerciseSlotReached | .prestartExpiry | .crankTimerExpiry | .crankRestExpiry | .barEnd
  | .warmupExpiry | .oilArmingExpiry | .loadCheckStart | .derate | .underspeedSpanReached | .shutdownRundownExpiry | .cooldownExpiry
  | .stopTimerExpiry | .alarmEvaluation | .raiseTimerExpiry .. | .clearTimerExpiry .. => true
  | _ => false

/-- The rows of the scanner, the inputs and the pulse meters. -/
def measureRow : Instr → Bool
  | .scanCompletion .. | .dinLineChange .. | .debounceExpiry .. | .inputConditionerEvaluation | .edgeAlarmClear .. | .pin1RisingEdge
  | .tallyQuantum | .pm0FrequencyResult .. | .pm2FrequencyResult .. | .mainsSenseLoss | .mainsSenseReturn .. | .pm3LongResult => true
  | _ => false

end Sys2Proof.Machine
end

