-- ==== Sys2Proof/Certificates/Slice0/Obligations.lean ====
section
/-! DEFINITION. The statements for the provers. A statement about a row names the state the row answers; `next` is its own effect. -/

section

open Sys2Proof Sys2Proof.Machine

/-! ## Steps, invariants and frames -/

/-- A step takes the command at the front of the queue and runs it on the state with the queue's rest; on an empty queue the block idles
(log 4: the model's choice). -/
def Obligations.StepRunsFront : Prop :=
  (∀ (c : Instr) (s : State), step { s with pending := c :: s.pending } = exec c s) ∧
    ∀ s : State, s.pending = [] → step s = .next s

/-- Every command answers a next state and leaves the queue as it is. That a row that is not due answers a next state is log 5, and that a
command leaves the queue of commands alone, POWER_ON among them, is log 47: the model's choices. -/
def Obligations.EveryCommandAnswers : Prop :=
  ∀ (c : Instr) (s : State), ∃ t, exec c s = .next t ∧ t.pending = s.pending

/-- The machine right after a power-on: start-up in LOAD_ANCHOR, clock 0 and UNSET, RESET logged, every plant drive unpowered, VREF and ILIM
released; no string or module record and no claim or request; the equalize, test and swap records empty, their outcomes NONE and no condition
set; every slot's copies 0 and its result NONE; the scanner stopped with every channel empty and not failed, no debounce timer running,
the pulse tally 0, the refusal record empty, and the Silence Monitor SUPERVISED (R29, R48, R50, R75, R92, R123, R141, R155, R162, R170,
R174, R177, R183, R188, R190; that the swap record has no retry-not-before time: log 75, the model's choice). -/
def Obligations.ResetState : Prop :=
  State.reset.st.state = .loadAnchor ∧ State.reset.st.kind = .powerOn ∧ State.reset.st.lock = false ∧
    State.reset.clk.value = 0 ∧ State.reset.clk.state = .unset ∧
    State.reset.log.queue = [⟨.reset, 1, 0, 0, 0, false⟩] ∧
    State.reset.str.iso = List.replicate 4 .unpowered ∧ State.reset.ros.inh = List.replicate 8 .unpowered ∧
    (State.reset.src.xfer.mopen, State.reset.src.xfer.gclose) = (.unpowered, .unpowered) ∧
    (State.reset.gen.pre, State.reset.gen.run, State.reset.gen.crank) = (.unpowered, .unpowered, .unpowered) ∧
    (State.reset.alm.urg, State.reset.alm.def_, State.reset.alm.attn) = (.unpowered, .unpowered, .unpowered) ∧
    State.reset.bus.claims = .empty ∧ State.reset.bus.vref = none ∧ State.reset.bus.ilim = none ∧
    State.reset.gen.requests.isEmpty = true ∧ State.reset.sil.state = .supervised ∧
    State.reset.path.refusal.reason = 0 ∧ State.reset.path.refusal.count = 0 ∧ State.reset.pending = [] ∧
    State.reset.str.recs = List.replicate 4 none ∧ State.reset.ros.mods = List.replicate 8 none ∧ State.reset.ros.queue = [] ∧
    (State.reset.bus.eq.running, State.reset.bus.eq.outcome, State.reset.bus.eq.schedule) = (false, .none, .notDue) ∧
    State.reset.bus.test.state = .none ∧ State.reset.conds = List.replicate 32 false ∧
    (State.reset.ros.swap.inProgress, State.reset.ros.swap.outcome, State.reset.ros.swap.retry) = (false, .none, none) ∧
    (State.reset.src.mains.dips, State.reset.src.mains.outages, State.reset.src.xfer.transfers, State.reset.src.xfer.cause) =
      (0, 0, 0, .none) ∧
    (State.reset.gen.attempts, State.reset.gen.firstFailure, State.reset.gen.service) = ([], none, false) ∧
    State.reset.cmd.slots = List.replicate 16 ⟨List.replicate 7 0, .none, 0⟩ ∧
    State.reset.scan.chans.length = 16 ∧
    (∀ c ∈ State.reset.scan.chans, c.samples = [] ∧ c.invalid = 0 ∧ c.valid = 0 ∧ c.failed = false) ∧
    State.reset.scan.lastFailed = none ∧ State.reset.scan.on = false ∧
    State.reset.inp.timers = List.replicate 16 none ∧ State.reset.inp.levels = State.reset.inp.lines ∧
    (State.reset.pm.tally, State.reset.pm.counting, State.reset.pm.pm2Last) = (0, false, none)

/-- The invariant of Safety.lean holds at reset: the lists' lengths, seven words in every command slot, the transfer interlock, the generator's
drives, the memory's canonical form and the log's bounds. -/
def Obligations.InvAtReset : Prop := Inv State.reset

/-- Every step keeps the whole invariant (the lists' lengths, seven words in every command slot, the transfer interlock, the generator's
drives, the memory's canonical form and the log's bounds), so that it holds in every state a run from reset reaches. -/
def Obligations.StepKeepsInv : Prop := ∀ s t : State, Inv s → step s = .next t → Inv t

/-- A row that is no host write, own word, reset or end of a start-up state that reads the memory leaves every word of it as it is; so does
such an end while no host access is held. -/
def Obligations.RowsThatStoreNothing : Prop :=
  (∀ (c : Instr) (s t : State), storesNothing c = true → exec c s = .next t →
      ∀ a, readCells t.path.cells a = readCells s.path.cells a) ∧
  ∀ (c : Instr) (s t : State), c = .loadAnchorEnd ∨ c = .loadSettingsEnd ∨ c = .loadCountersEnd ∨ c = .logScanEnd → s.path.held = [] →
    exec c s = .next t → ∀ a, readCells t.path.cells a = readCells s.path.cells a

/-- A host write or a post changes at most the word it addresses, at the address that the remap table redirects it to (R157, R159; an address at
or above the memory size is an address like any other: log 20, the model's choice). -/
def Obligations.HostWriteFrame : Prop :=
  ∀ (c : Instr) (s t : State) (a : Nat), Memory.wf s.path.cells = true → hostAddr s c = some a → exec c s = .next t →
    ∀ b, b ≠ s.path.redirect a → readCells t.path.cells b = readCells s.path.cells b

/-- A row of a job leaves the clock, the memory, the settings, the scanner, the inputs, the pulse meters, the command window, the silence
state, the start-up record and the log's head and count as they are. A measurement row leaves the clock, the memory, the settings, the
command window, the silence state, the start-up state and the log's head and count as they are. -/
def Obligations.RowFrames : Prop :=
  (∀ (c : Instr) (s t : State), jobRow c = true → exec c s = .next t →
      t.clk = s.clk ∧ t.path.cells = s.path.cells ∧ t.path.refusal = s.path.refusal ∧ t.settings = s.settings ∧ t.scan = s.scan ∧
        t.inp = s.inp ∧ t.pm = s.pm ∧ t.cmd = s.cmd ∧ t.sil = s.sil ∧ t.st = s.st ∧ t.log.head = s.log.head ∧ t.log.count = s.log.count) ∧
  (∀ (c : Instr) (s t : State), measureRow c = true → exec c s = .next t →
      t.clk = s.clk ∧ t.path.cells = s.path.cells ∧ t.path.refusal = s.path.refusal ∧ t.settings = s.settings ∧ t.cmd = s.cmd ∧
        t.sil = s.sil ∧ t.st.state = s.st.state ∧ t.st.lock = s.st.lock ∧ t.log.head = s.log.head ∧ t.log.count = s.log.count)

/-- The Settings Lock: no command but a power-on or a pin reset clears it (R188). -/
def Obligations.LockHolds : Prop :=
  ∀ (c : Instr) (s t : State), s.st.lock = true → (∀ m d p, c ≠ .powerOn m d p) → (∀ m, c ≠ .pinReset m) → exec c s = .next t →
    t.st.lock = true

/-! ## Start-up -/

/-- POWER_ON: from any state the machine right after a power-on, on the straps and levels given (R29, R48, R50, R75, R92, R123, R141, R155,
R162, R170, R173, R174, R177, R183, R188, R190; the values of registers that the spec gives none, the accesses held over the reset and the queue
of waiting commands are the model's choice: logs 3, 8 and 47). PIN_RESET: start-up begins anew with the clock kept, the lock cleared, RESET (2)
logged alone (that no SILENCE_STATE entry is made of a silence state that ends here: log 91, the model's choice), a running equalize
CANCELLED_RESET and a running test ABORTED_RESET, their entries left for RUN and the rest of both records kept (R50); the refusal record
cleared, the freeze released, the Silence Monitor SUPERVISED with count 0, and every plant drive unpowered (R29, R48, R75, R92, R123, R141,
R162, R173, R183, R188, R190). Every slot's copies are 0 and its result NONE (R170); every point is NORMAL, every condition copy withdrawn and
of the conditions TEST_FAILED alone kept (R50, R141); the scanner is stopped with every channel empty and not failed, no debounce timer runs,
the debounced levels are the line levels, and the tally is 0 (R155). A swap in progress ends ABANDONED_RESET, its retry-not-before time cleared,
and else its last outcome stands (R75); the dips, outages and transfers are 0, the fault cause NONE and MAINS_FAIL not held (R92); the Start
Attempt List, the bar hold, the acknowledgement mark, the first failure time, the shutdown latch and the service mark are cleared and DEPTH is
not held, its spent mark clear (R26, R123). At both an own write in progress is completed, so that a sound word holds what was written, and
every other word of the memory stays; with none in progress all of it stays (R169). -/
def Obligations.HardResets : Prop :=
  (∀ (msz : BitVec 2) (din : BitVec 16) (pin3 : Bool) (s : State), ∃ t, exec (.powerOn msz din pin3) s = .next t ∧
      t = { State.afterPowerOn msz ((List.range 16).map din.getLsbD) pin3 t.path.cells t.path.faulty t.path.writes s.path.held with
        pending := s.pending } ∧
      (ownWordActive s = false → t.path.cells = s.path.cells) ∧ MemoryCut s t) ∧
  (∀ (msz : BitVec 2) (s : State), ∃ t, exec (.pinReset msz) s = .next t ∧
      t.clk = s.clk ∧ t.st.state = .loadAnchor ∧ t.st.kind = .pin ∧ t.st.resetTime = now s ∧ t.st.lock = false ∧
      t.log.queue = [⟨.reset, 2, 0, 0, now s, false⟩] ∧ t.log.gap = false ∧
      t.str.recs = List.replicate 4 none ∧ t.str.iso = List.replicate 4 .unpowered ∧
      t.ros.mods = List.replicate 8 none ∧ t.ros.inh = List.replicate 8 .unpowered ∧
      (t.src.xfer.mopen, t.src.xfer.gclose) = (.unpowered, .unpowered) ∧
      (t.gen.pre, t.gen.run, t.gen.crank) = (.unpowered, .unpowered, .unpowered) ∧ t.gen.requests.isEmpty = true ∧
      (t.alm.urg, t.alm.def_, t.alm.attn) = (.unpowered, .unpowered, .unpowered) ∧
      t.bus.claims = .empty ∧ t.bus.vref = none ∧ t.bus.ilim = none ∧
      t.bus.eq.running = false ∧ (s.bus.eq.running = true → t.bus.eq.outcome = .cancelledReset ∧ t.bus.eq.endTime = now s) ∧
      (s.bus.test.state = .running → t.bus.test.state = .ended .abortedReset ∧ t.bus.test.endTime = now s) ∧
      (s.bus.test.state ≠ .running → t.bus.test = s.bus.test) ∧
      (t.bus.eq.schedule = .notDue ∧ t.bus.eq.elapsed = s.bus.eq.elapsed ∧ t.st.late = s.st.late ++ lateEntries s ∧
        (s.bus.eq.running = false → (t.bus.eq.outcome, t.bus.eq.endTime) = (s.bus.eq.outcome, s.bus.eq.endTime)) ∧
        (s.bus.test.state = .running → t.bus.test = { s.bus.test with state := .ended .abortedReset, endTime := now s })) ∧
      t.path.refusal = ⟨0, 0, 0, 0, 0⟩ ∧ t.cmd.freeze = .released ∧ t.sil = ⟨.supervised, 0⟩ ∧
      t.cmd.slots = List.replicate 16 ⟨List.replicate 7 0, .none, 0⟩ ∧
      (t.alm.points = List.replicate 32 ⟨.normal, none, false, 0, 0⟩ ∧ t.alm.copies = List.replicate 32 false ∧
        ∀ p, condOf t p = (p == Pt.testFailed && condOf s p)) ∧
      (t.scan.on = false ∧ t.scan.lastFailed = none ∧ t.scan.chans.length = s.scan.chans.length ∧
        ∀ c ∈ t.scan.chans, c.samples = [] ∧ c.invalid = 0 ∧ c.valid = 0 ∧ c.failed = false) ∧
      (t.inp.timers = List.replicate 16 none ∧ t.inp.lines = s.inp.lines ∧ t.inp.levels = s.inp.lines ∧
        t.inp.lastNamed = List.replicate 16 none ∧ (t.pm.tally, t.pm.counting, t.pm.sense) = (0, false, s.pm.sense)) ∧
      (t.ros.swap.inProgress = false ∧ t.ros.swap.retry = none ∧
        t.ros.swap.outcome = if s.ros.swap.inProgress then .abandonedReset else s.ros.swap.outcome) ∧
      (t.src.mains.dips, t.src.mains.outages, t.src.mains.failHeld, t.src.xfer.transfers, t.src.xfer.cause) = (0, 0, false, 0, .none) ∧
      (t.gen.attempts, t.gen.firstFailure, t.gen.barHold, t.gen.ackTaken, t.gen.cause, t.gen.service) =
        ([], none, false, false, .none, false) ∧
      (t.str.depthHeld, t.str.depthSpent) = (false, false) ∧ MemoryCut s t)

/-- SOFT_RESET posted where it is taken: argument words above 1 are refused; else start-up begins anew, RESET (3) and then COMMAND stand
in the log, the lock stays, and with the power train kept the roster, the source and the generator stand as they were (R76, R93, R124,
R171, R183, R188). With the strings kept, a reconnect is abandoned: the string is back in its prior phase with its contactor open, the
outcome ABANDONED_RESET, STRING_ISOLATED and, from FAULT, STRING_FAULT set in the same step, and its two entries follow COMMAND (R8, R24,
R30; their place: log 32; the outcome in value A of RECONNECT_RESULT, with subject 0: log 23). Every soft reset ends a running equalize
CANCELLED_RESET and a running test ABORTED_RESET at its time, their entries left for RUN and the rest of the two records and TEST_FAILED kept
(R50); it clears the refusal record and restarts the Memory Path on the memory as it stands, MEMORY_WORN withdrawn (R162, R169); it empties the
slots (R170), releases the freeze (R173), makes the Silence Monitor SUPERVISED with count 0 and HOST_SILENT withdrawn (R190), brings every point
to NORMAL with the relays and ATTN unpowered (R141), and stops the scanner, the debounce timers and the tally (R155). With the power train kept
the claim table less EQUALIZE, TEST and MATCH, the setpoint, VREF and ILIM stay, and the target with them, worked out anew when one of the three
stood; without it the table is empty and VREF and ILIM are released (R48, R49). No SILENCE_STATE entry is made (log 91), and detail 0 in the
COMMAND entry is that of log 82: the model's choices. A post while accesses are held or in start-up is
that of Posts. -/
def Obligations.SoftReset : Prop :=
  ∀ (slot : Fin 16) (tag : BitVec 8) (s : State), Shape s → Listens s → dispatchRefusal Op.softReset s = none →
    let u := atPost slot Op.softReset tag s
    let entries : List LogEvent := [⟨.reset, 3, wordOf (arg u slot 1 + 2 * arg u slot 2), 0, now s, false⟩,
      ⟨.command, wordOf slot.val, bytesWord 0x42 1, bytesWord 0 tag.toNat, now s, false⟩]
    ∃ t, exec (.softReset slot tag) s = .next t ∧
      (1 < arg u slot 1 → replyOf t slot = (.refusedRange, 1)) ∧
      (arg u slot 1 ≤ 1 → 1 < arg u slot 2 → replyOf t slot = (.refusedRange, 2)) ∧
      (arg u slot 1 ≤ 1 → arg u slot 2 ≤ 1 →
        t.st.state = .loadAnchor ∧ t.st.kind = .soft ∧ t.st.lock = s.st.lock ∧ t.clk = s.clk ∧
        (arg u slot 2 = 0 ∨ inRun s = false ∨ reconnecting u = none → t.log.queue = entries) ∧
        (∀ k r, arg u slot 2 = 1 → inRun s = true → reconnecting u = some k → strRec u k = some r →
          t.log.queue = entries ++ [⟨.phaseChange, wordOf k, 2, if r.priorFault then 7 else 1, now s, false⟩,
            ⟨.reconnectResult, 0, 7, 0, now s, false⟩] ∧
          strRec t k = some { r with
            phase := if r.priorFault then .fault else .isolated, tempMinute := 0, stage := .none, inrushTimer := false,
            outcome := .abandonedReset } ∧
          t.str.iso = u.str.iso.set k .asserted ∧ t.bus.claims.matching = none ∧ condOf t Pt.stringIsolated = true ∧
          (r.priorFault = true → condOf t Pt.stringFault = true)) ∧
        (t.bus.eq.running = false ∧ t.bus.eq.schedule = .notDue ∧ t.bus.eq.elapsed = u.bus.eq.elapsed ∧
          (u.bus.eq.running = true → t.bus.eq.outcome = .cancelledReset ∧ t.bus.eq.endTime = now s) ∧
          (u.bus.eq.running = false → (t.bus.eq.outcome, t.bus.eq.endTime) = (u.bus.eq.outcome, u.bus.eq.endTime)) ∧
          (u.bus.test.state = .running → t.bus.test = { u.bus.test with state := .ended .abortedReset, endTime := now s }) ∧
          (u.bus.test.state ≠ .running → t.bus.test = u.bus.test) ∧ condOf t Pt.testFailed = condOf u Pt.testFailed ∧
          t.st.late = u.st.late ++ lateEntries u) ∧
        (t.path.refusal = ⟨0, 0, 0, 0, 0⟩ ∧ t.path.cells = u.path.cells ∧ t.path.busy = none ∧ t.path.spareFailed = [] ∧
          condOf t Pt.memoryWorn = false) ∧
        (t.cmd.slots = List.replicate 16 ⟨List.replicate 7 0, .none, 0⟩ ∧ t.cmd.freeze = .released ∧ t.sil = ⟨.supervised, 0⟩ ∧
          condOf t Pt.hostSilent = false) ∧
        (t.alm.points = List.replicate 32 ⟨.normal, none, false, 0, 0⟩ ∧
          (t.alm.urg, t.alm.def_, t.alm.attn) = (.unpowered, .unpowered, .unpowered)) ∧
        (t.scan.on = false ∧ t.inp.timers = List.replicate 16 none ∧ (t.pm.tally, t.pm.counting) = (0, false)) ∧
        (arg u slot 1 = 1 → inRun s = true →
          t.ros = u.ros ∧ t.src = u.src ∧ t.gen = u.gen ∧
          t.bus.claims = { u.bus.claims with equalize := none, test := none, matching := none } ∧
          (t.bus.setpoint, t.bus.vref, t.bus.ilim) = (u.bus.setpoint, u.bus.vref, u.bus.ilim) ∧
          (t.bus.claims = u.bus.claims → (t.bus.target, t.bus.governing) = (u.bus.target, u.bus.governing)) ∧
          (t.bus.claims ≠ u.bus.claims →
            let g := targetOf s.settings t.bus.claims
            (t.bus.target, t.bus.governing) = (some g.1, g.2))) ∧
        (arg u slot 1 = 0 ∨ inRun s = false → t.ros.mods = List.replicate 8 none ∧ (t.src.xfer.mopen, t.src.xfer.gclose) = (.unpowered, .unpowered) ∧
          (t.gen.pre, t.gen.run, t.gen.crank) = (.unpowered, .unpowered, .unpowered) ∧ t.bus.claims = .empty ∧
          (t.bus.target, t.bus.setpoint, t.bus.vref, t.bus.ilim) = (none, none, none, none)) ∧
        (arg u slot 2 = 1 → inRun s = true → reconnecting u = none → t.str.recs = u.str.recs ∧ t.str.iso = u.str.iso) ∧
        (arg u slot 2 = 0 ∨ inRun s = false → t.str.recs = List.replicate 4 none ∧ t.str.iso = List.replicate 4 .unpowered))

/-- LOAD_ANCHOR_END: a usable descriptor comes into force, an unusable one heads start-up for COMMISSIONING, and the remap table is the
one the anchor words spell (R168, R184). The load is judged from the memory at the row that ends it (log 7), by the CRC of log 16, and the
table takes its entries in the order of log 43: the model's choices. -/
def Obligations.LoadAnchorEnd : Prop :=
  ∀ s : State, s.st.state = .loadAnchor → ∃ t, exec .loadAnchorEnd s = .next t ∧
    t.st.state = .loadSettings ∧
    (∀ d, usableDescriptor s.path.size (readWords s (s.path.size - 64) 16) = some d →
      t.st.desc = some d ∧ t.st.forCommissioning = s.st.forCommissioning) ∧
    (usableDescriptor s.path.size (readWords s (s.path.size - 64) 16) = none → t.st.desc = s.st.desc ∧ t.st.forCommissioning = true) ∧
    t.path.remap = remapTableOf s.path.size (readWords s (s.path.size - 48) 32)

/-- LOAD_SETTINGS_END: the copies are the words read with every word out of its range or ordering at its default, and the defaulted words are
counted, each word once (R185; log 44). LOAD_COUNTERS_END: after a power-on a good clock record sets the clock ESTIMATED, a bad one leaves it; a
bad record sets COUNTERS_LOST (R174, R181, R186). The records that the reset did not keep are rebuilt, those it kept stand: a present module's
run hours and starts, a fitted generator's run hours, starts, fuel used and last run end, and a configured string's deficit, throughputs, last
full and last equalize times and float baseline come from a good counter record; a bad one gives 0 for each, but a last equalize time of the
clock and a float baseline of the profile's end current, not below 5 dA; the rest of a module's and a string's record starts at 0, empty or
clear, with no phase and no state until RUN and UNKNOWN_CHARGE set (R2, R29, R31, R75, R77, R123, R181; the deficit of a good record not above
the capacity: log 45; the clock restored first: log 26, the model's choices). At the end of the settings load the scanner scans and the pulse
meters count (R155). The load is judged from the memory at the row that ends it (log 7), a record by the CRC of log 16: the model's choices. -/
def Obligations.StartUpLoads : Prop :=
  (∀ s : State, s.st.state = .loadSettings → ∃ t, exec .loadSettingsEnd s = .next t ∧
      t.st.state = .loadCounters ∧ t.settings = loadedSettings (readWords s (prBase s + 0x180) 640) ∧
      t.scan.on = true ∧ t.pm.counting = true ∧
      (∀ o l, replacedOffsets (readWords s (prBase s + 0x180) 640) = o :: l →
        t.st.defaulted = l.length + 1 ∧ t.st.firstDefaulted = o) ∧
      (replacedOffsets (readWords s (prBase s + 0x180) 640) = [] →
        t.st.defaulted = s.st.defaulted ∧ t.st.firstDefaulted = s.st.firstDefaulted)) ∧
  (∀ s : State, Shape s → s.st.state = .loadCounters →
      let w := readWords s (recordAddr s 13) 16
      ∃ t, exec .loadCountersEnd s = .next t ∧ t.st.state = .logScan ∧
        (s.st.kind = .powerOn → goodRecord 13 w = true →
          t.clk.value = pairNat (w.getD 1 0) (w.getD 2 0) ∧ t.clk.state = .estimated) ∧
        (s.st.kind ≠ .powerOn ∨ goodRecord 13 w = false → t.clk = s.clk) ∧
        (∀ m : Fin 8,
          let w := readWords s (recordAddr s (1 + m.val)) 16
          let good := goodRecord (1 + m.val) w
          (s.st.forCommissioning = false → modulePresent s m.val = true → modRec s m.val = none → modRec t m.val = some
            ⟨.absent, false, if good then pairNat (w.getD 1 0) (w.getD 2 0) else 0, 0, if good then (w.getD 3 0).toNat else 0, [], 0, 0⟩) ∧
          (s.st.forCommissioning = true ∨ modulePresent s m.val = false ∨ (modRec s m.val).isSome → modRec t m.val = modRec s m.val)) ∧
        (let w := readWords s (recordAddr s 0) 16
          let restored := s.st.forCommissioning = false ∧ s.st.keepTrain = false ∧ genFitted s = true
          (restored → goodRecord 0 w = true → t.gen = { s.gen with
            hours := pairNat (w.getD 1 0) (w.getD 2 0), starts := (w.getD 3 0).toNat, fuelUsed := pairNat (w.getD 4 0) (w.getD 5 0),
            lastRunEnd := pairNat (w.getD 6 0) (w.getD 7 0) }) ∧
          (restored → goodRecord 0 w = false → t.gen = { s.gen with hours := 0, starts := 0, fuelUsed := 0, lastRunEnd := 0 }) ∧
          (¬ restored → t.gen = s.gen)) ∧
        (∀ k : Fin 4,
          let w := readWords s (recordAddr s (9 + k.val)) 16
          let p := strProfile s.settings k.val
          let restored := s.st.forCommissioning = false ∧ k.val < stringCount s ∧ strRec s k.val = none
          (restored → goodRecord (9 + k.val) w = true → strRec t k.val = some { StringRec.fresh p with
            deficit := min (w.getD 1 0).toNat (strCapacity s.settings k.val), throughputIn := (w.getD 3 0).toNat,
            throughputOut := (w.getD 4 0).toNat, lastFull := pairNat (w.getD 5 0) (w.getD 6 0),
            lastEqualize := pairNat (w.getD 7 0) (w.getD 8 0), baseline := (w.getD 9 0).toInt }) ∧
          (restored → goodRecord (9 + k.val) w = false → strRec t k.val = some { StringRec.fresh p with
            lastEqualize := t.clk.value, baseline := max 5 (percentC s.settings k.val (profWord s.settings p 6) : Int) }) ∧
          (¬ restored → strRec t k.val = strRec s k.val)) ∧
        ((∃ n ∈ recordsToRead s, goodRecord n (readWords s (recordAddr s n) 16) = false) → condOf t Pt.countersLost = true))

/-- LOG_SCAN_END: the head follows the highest valid sequence and the count the entries held before it; start-up goes on to SETTLE, or to
COMMISSIONING with every plant drive unpowered but ATTN asserted (R143, R186, R187). The ring is judged from the memory at the row that ends
the scan (log 7: the model's choice). -/
def Obligations.LogScanEnd : Prop :=
  ∀ s : State, s.st.state = .logScan → ∃ t, exec .logScanEnd s = .next t ∧ t.log.ready = true ∧
    (highestSeq (ringSeqs s) = none → t.log.head = 0 ∧ t.log.count = 0) ∧
    (∀ h, highestSeq (ringSeqs s) = some h → t.log.head = h + 1 ∧ t.log.count = countBack (ringSeqs s) 512 h) ∧
    (s.st.forCommissioning = false → t.st.state = .settle ∧ t.st.settleScans = 0) ∧
    (s.st.forCommissioning = true →
      t.st.state = .commissioning ∧ t.st.outcome = 2 ∧ t.alm.attn = .asserted ∧ (t.alm.urg, t.alm.def_) = (.unpowered, .unpowered) ∧
      t.str.iso = List.replicate 4 .unpowered ∧ t.ros.inh = List.replicate 8 .unpowered ∧
      (t.src.xfer.mopen, t.src.xfer.gclose) = (.unpowered, .unpowered) ∧
      (t.gen.pre, t.gen.run, t.gen.crank) = (.unpowered, .unpowered, .unpowered) ∧ t.bus.vref = none ∧ t.bus.ilim = none)

/-- SETTLE_END: after ten scan completions the part is in RUN with outcome RUN; before, nothing changes (R187). What RUN derives after a
reset that did not keep the power train: the transfer from the two feedbacks, both drives released; the mains from the sense and the last
PM2 result since the reset; the generator from whether it is fitted and whether PM0 has seen it turn, a STANDBY one starting a series when
the first evaluation of the strings posts DEPTH (R31, R94, R104, R125). That a row not due changes nothing is the model's choice (log 5),
and so is the order of the blocks in the step (log 19). -/
def Obligations.SettleEnd : Prop :=
  (∀ (ms : Nat) (s : State), s.st.state = .settle →
      (10 ≤ s.st.settleScans → ∃ t, exec (.settleEnd ms) s = .next t ∧ t.st.state = .run ∧ t.st.outcome = 1 ∧ t.cmd.interval = 0 ∧
        t.clk = s.clk ∧ t.settings = s.settings ∧ t.st.late = []) ∧
      (s.st.settleScans < 10 → exec (.settleEnd ms) s = .next s)) ∧
  (∀ (ms : Nat) (s : State), Shape s → s.st.state = .settle → 10 ≤ s.st.settleScans → s.st.keepTrain = false →
      ∃ t, exec (.settleEnd ms) s = .next t ∧ t.src.xfer.entered = now s ∧ t.src.mains.entered = now s ∧
        (t.src.xfer.mopen, t.src.xfer.gclose) = (.released, .released) ∧
        (feedbacks s = (true, false) → t.src.xfer.state = .onMains) ∧
        (feedbacks s ≠ (true, false) → t.src.xfer.state = .fault ∧ t.src.xfer.cause = .resetMismatch ∧
          (t.src.xfer.faultMains, t.src.xfer.faultGen) = feedbacks s ∧ t.src.xfer.releasePending = false ∧
          condOf t Pt.transferFault = true) ∧
        t.src.mains.sense = s.pm.sense ∧
        (∀ f, s.pm.sense = true → s.pm.pm2Last = some f → inFreqWindow s f = true → t.src.mains.state = .present) ∧
        (s.pm.sense = false ∨ s.pm.pm2Last = none ∨ (∃ f, s.pm.pm2Last = some f ∧ inFreqWindow s f = false) →
          t.src.mains.state = .absent ∧ t.src.mains.outageStart = now s ∧ condOf t Pt.mainsAbsent = true) ∧
        (genFitted s = false → t.gen.state = .disabled ∧ (t.gen.pre, t.gen.run, t.gen.crank) = (.released, .released, .released)) ∧
        (genFitted s = true → s.pm.pm0Seen = true → t.gen.state = .stopping ∧ t.gen.destDisabled = false ∧ t.gen.run = .released) ∧
        (genFitted s = true → s.pm.pm0Seen = false → s.gen.requests.isEmpty = true → testRunning s = false →
          t.gen.state = if requested t .depth then .prestart else .standby))

/-- SITE_CLOCK_SECOND: the clock counts one second, going on from 4,294,967,295 to 0; the seconds of a LONG absence count with it; nothing
else changes (R154, R174). -/
def Obligations.SiteClockSecond : Prop :=
  ∀ s : State, ∃ t, exec .siteClockSecond s = .next t ∧
    t.clk.value = (s.clk.value + 1) % 4294967296 ∧ t.clk.state = s.clk.state ∧
    t.pm = (if s.pm.sense = false ∧ s.pm.long = true then { s.pm with width := min 65535 (s.pm.width + 1) } else s.pm) ∧
    { t with clk := s.clk, pm := s.pm } = s

/-! ## Measurement -/

/-- SCAN_COMPLETION: each channel takes its sample, none for codes 0 and 4,095, and its list, counts, failed flag and mean follow; SETTLE counts
the scan; a scanner that is not on changes nothing (R144 to R146, R187). A channel after a scan: ten invalid samples in a row fail a used
channel and ten valid ones restore it; the mean is that of the list, whose oldest sample leaves at eleven, and a failed channel's mean stays
(R145, R146). A channel that fails becomes the last failed channel, and one that recovers leaves it; each that fails or recovers logs
CHANNEL_STATE with its number, 1 or 0, and its raw code; SENSOR_FAIL stands when a channel is failed (R146; the channels of one scan in rising
number, so that of several the highest is the last failed: log 104; SENSOR_FAIL judged once for all of them: log 79; the model's choices). That
a row not due changes nothing is the model's choice (log 5). -/
def Obligations.ScanUpdatesChannels : Prop :=
  (∀ (raw : Vector (BitVec 12) 16) (s : State), Shape s →
      (s.scan.on = true → ∃ t, exec (.scanCompletion raw) s = .next t ∧
        (∀ c : Fin 16, chan t c.val = (chan s c.val).step (channelUsed s c.val) (sampleOf s.settings c.val raw[c].toNat)) ∧
        (s.st.state = .settle → t.st.settleScans = s.st.settleScans + 1) ∧
        condOf t Pt.sensorFail = t.scan.chans.any (·.failed) ∧
        ((∀ c : Fin 16, (chan t c.val).failed = true → (chan s c.val).failed = true) → t.scan.lastFailed = s.scan.lastFailed) ∧
        (∀ c : Fin 16, (chan s c.val).failed = false → (chan t c.val).failed = true →
          (∀ d : Fin 16, c < d → (chan t d.val).failed = true → (chan s d.val).failed = true) → t.scan.lastFailed = some c.val) ∧
        (let changed := (List.range 16).filter fun c => (chan t c).failed != (chan s c).failed
         s.log.queue.length + changed.length ≤ 32 → s.log.queue ++ (changed.map fun c =>
            ⟨.channelState, wordOf c, wordOfBool (chan t c).failed, wordOf (raw.toList.getD c 0).toNat, now s,
              s.log.gap && decide (changed.head? = some c)⟩) <+: t.log.queue)) ∧
      (s.scan.on = false → exec (.scanCompletion raw) s = .next s)) ∧
  ((∀ ss c, sampleOf ss c 0 = none ∧ sampleOf ss c 4095 = none) ∧
      (∀ (x : Int) (c : Channel), c.failed = false → (c.step true (some x)).failed = false ∧
        (c.step true (some x)).samples = pushLast 10 c.samples x ∧ (c.step true (some x)).mean = listMean (pushLast 10 c.samples x) ∧
        (c.step true (some x)).invalid = 0) ∧
      (∀ c : Channel, c.failed = false → c.invalid = 9 → (c.step true none).failed = true ∧ (c.step true none).mean = c.mean) ∧
      (∀ c : Channel, c.failed = false → c.invalid < 9 → (c.step true none).failed = false) ∧
      (∀ (x : Int) (c : Channel), c.failed = true → c.valid = 9 → (c.step true (some x)).failed = false) ∧
      (∀ (x : Int) (c : Channel), c.failed = true → c.valid < 9 → (c.step true (some x)).failed = true ∧ (c.step true (some x)).mean = c.mean) ∧
      (∀ (x : Option Int) (c : Channel), (c.step false x).invalid = c.invalid ∧ (c.step false x).valid = c.valid))

/-- SCAN_COMPLETION in RUN: a string whose contactor is closed accrues the sample of its current channel: −20 dA or below into the
discharge residue, with a deficit and a throughput step at each 36,000; above 0 into the charge residue, weighted by the charge factor;
between them nothing (R3, R4). -/
def Obligations.ScanAccruesCharge : Prop :=
  ∀ (raw : Vector (BitVec 12) 16) (s : State) (k : Fin 4) (r : StringRec), Shape s → s.scan.on = true → inRun s = true →
    strRec s k.val = some r → r.closed = true →
    let cap := strCapacity s.settings k.val
    let factor := r.prof s.settings 9
    let x := sampleOf s.settings (6 + k.val) raw[6 + k.val].toNat
    ∃ t, exec (.scanCompletion raw) s = .next t ∧
      (∀ i, x = some i → i ≤ -20 → r.dischargeResidue + i.natAbs < 36000 →
        strRec t k.val = some { r with dischargeResidue := r.dischargeResidue + i.natAbs }) ∧
      (∀ i, x = some i → i ≤ -20 → 36000 ≤ r.dischargeResidue + i.natAbs →
        strRec t k.val = some { r with
          dischargeResidue := r.dischargeResidue + i.natAbs - 36000, deficit := if r.deficit = cap then r.deficit else r.deficit + 1,
          throughputOut := (r.throughputOut + 1) % 65536 }) ∧
      (∀ i, x = some i → 0 < i → ∃ r', strRec t k.val = some r' ∧
        (r.chargeResidue + i.toNat * 100 < 36000 * factor → r'.chargeResidue = r.chargeResidue + i.toNat * 100 ∧ r'.deficit = r.deficit) ∧
        (36000 * factor ≤ r.chargeResidue + i.toNat * 100 →
          r'.chargeResidue = r.chargeResidue + i.toNat * 100 - 36000 * factor ∧ r'.deficit = r.deficit - 1) ∧
        (r.throughputResidue + i.toNat < 36000 →
          r'.throughputResidue = r.throughputResidue + i.toNat ∧ r'.throughputIn = r.throughputIn) ∧
        (36000 ≤ r.throughputResidue + i.toNat →
          r'.throughputResidue = r.throughputResidue + i.toNat - 36000 ∧ r'.throughputIn = (r.throughputIn + 1) % 65536)) ∧
      (∀ i, x = some i → -20 < i → i ≤ 0 → strRec t k.val = some r) ∧
      (x = none → strRec t k.val = some r)

/-- DIN_LINE_CHANGE: a line that returns to the debounced level cancels the timer, one that leaves it starts the timer, or makes the edge at
once with a debounce time of 0; a line already at the level changes nothing (R148). DEBOUNCE_EXPIRY: the debounced level takes the line's
level and the timer ends; with no timer running nothing changes (R148). INPUT_CONDITIONER_EVALUATION: the debounced levels of all sixteen
inputs are brought to the live area (R151). EDGE_ALARM_CLEAR: the condition of an edge alarm is withdrawn once its input has been quiet for
the clear delay of its point, counted in the part's seconds (log 11); before, nothing changes (R150). That a row not due changes nothing is
the model's choice (log 5), and that the row of a moment inside an evaluation makes that part alone (log 6). -/
def Obligations.InputRows : Prop :=
  (∀ (n : Fin 16) (high : Bool) (s : State), Shape s →
      (s.inp.lines.getD n.val false = high → exec (.dinLineChange n high) s = .next s) ∧
      (s.inp.lines.getD n.val false ≠ high → ∃ t, exec (.dinLineChange n high) s = .next t ∧ t.inp.lines = s.inp.lines.set n.val high ∧
        (dinLevel s n.val = high → t.inp.timers = s.inp.timers.set n.val none ∧ t.inp.levels = s.inp.levels) ∧
        (dinLevel s n.val ≠ high → debounceOf s.settings n.val ≠ 0 →
          t.inp.timers = s.inp.timers.set n.val (some (debounceOf s.settings n.val)) ∧ t.inp.levels = s.inp.levels) ∧
        (dinLevel s n.val ≠ high → debounceOf s.settings n.val = 0 → dinLevel t n.val = high ∧ t.inp.timers = s.inp.timers.set n.val none))) ∧
  (∀ (n : Fin 16) (s : State), Shape s →
      (∀ d, s.inp.timers.getD n.val none = some d → ∃ t, exec (.debounceExpiry n) s = .next t ∧
        t.inp.levels = s.inp.levels.set n.val (s.inp.lines.getD n.val false) ∧ t.inp.timers = s.inp.timers.set n.val none) ∧
      (s.inp.timers.getD n.val none = none → exec (.debounceExpiry n) s = .next s)) ∧
  (∀ s : State, ∃ t, exec .inputConditionerEvaluation s = .next t ∧ t.inp = { s.inp with shown := s.inp.levels } ∧
      (summaryWords t).getD 1 0 = markMap fun n => s.inp.levels.getD n false) ∧
  (∀ (n : Fin 16) (p : Nat) (s : State), Shape s → edgePoint n.val = some p →
      (condOf s p = true → inputQuiet s n.val (pointWord s.settings p 3) = true →
        ∃ t, exec (.edgeAlarmClear n) s = .next t ∧ condOf t p = false ∧ copyOf t p = false ∧ t.inp = s.inp) ∧
      (condOf s p = false ∨ inputQuiet s n.val (pointWord s.settings p 3) = false → exec (.edgeAlarmClear n) s = .next s))

/-- PIN1_RISING_EDGE and TALLY_QUANTUM: an edge adds 1 to the tally count; the edge that reaches the quantum empties the count and gives the
Generator Controller one quantum, which raises the fuel used (R120, R153). That a row not due changes nothing is the model's choice (log 5),
and that TALLY_QUANTUM is the edge that completes the quantum (log 6). A tally quantum stored is taken at once: one quantum for each whole
new quantum that the count holds, and the remainder stays (R153). -/
def Obligations.TallyEdge : Prop :=
  (∀ s : State, s.pm.counting = true →
    (s.pm.tally + 1 < tallyQuantumOf s.settings →
      exec .pin1RisingEdge s = .next { s with pm := { s.pm with tally := s.pm.tally + 1 } } ∧ exec .tallyQuantum s = .next s) ∧
    (tallyQuantumOf s.settings ≤ s.pm.tally + 1 → exec .tallyQuantum s = exec .pin1RisingEdge s ∧
      ∃ t, exec .tallyQuantum s = .next t ∧ t.pm = { s.pm with tally := 0 } ∧
        (inRun s = true → t.gen.fuelUsed = (s.gen.fuelUsed + 1) % 4294967296) ∧
        (trainRuns s = false → { t with pm := s.pm } = s))) ∧
  (∀ (v : Word) (s : State), Stores 0x241 v s →
      let u := stored 0x241 v s
      let n := u.pm.tally / v.toNat
      ∃ t, exec (.guardedWrite 0x241 v) s = .next t ∧ t.pm = { u.pm with tally := u.pm.tally % v.toNat } ∧
        (n = 0 → t = u) ∧ (0 < n → t.gen.fuelUsed = (u.gen.fuelUsed + n) % 4294967296))

/-- PM0_FREQUENCY_RESULT in RUN: the last frequency is taken; below crank cut the cranking goes on with its peak; a result of 0 withdraws
GEN_FAIL_STOP in CRANKING and in every state in which no engine runs or stops (R117 for SHUTDOWN; in the others log 38: the model's choice),
where the rest of the generator's record stands but the rundown's watch; from crank cut up to below overspeed the engine is in WARMUP with
GEN_CRANK released, the attempt entered as STARTED, the starts raised and the first failure time cleared (R106, R107, R152); a crank cut at or
above overspeed shuts the engine down with cause OVERSPEED (R117). In STOPPING a result of 0 confirms the stop: DISABLED, or STANDBY with the
last run end stamped, the capacity in force back at its setting, the derates 0 and GEN_OVERLOAD withdrawn, and a standing request starts a
series at once unless a test runs (R97, R104, R105, R116); a result above 0 is recorded alone, as it is in every state in which no engine cranks
or runs. While the engine runs, a result at or above overspeed shuts it down with cause OVERSPEED, whatever else it completes (R117; before a
due warm-up and before underspeed: log 67, the model's choice). Below overspeed a LOADED engine counts the underspeed span, which shuts it down
at 10, and, with the load check running and the span short of that, the droop span, which derates at 5 (R117, R118; no derate by the result that
completes the underspeed span: log 68; the smallest present rating also where the capacity was below it: log 35; the derates stop at 65,535: log
70; all the model's choices); a WARMUP whose judgement start-up left due is judged on the result (R113, R124); in the other running states the
result is recorded alone. The frequency of a second's edges: 0 for fewer than two, else (edges − 1) × 100,000,000 / span in µs, at most 10,000
(R152; the span of 0 µs is a free value, log 13, of which only the clamp is stated). -/
def Obligations.Pm0Result : Prop :=
  (∀ (e u : Nat) (s : State), inRun s = true →
      let f := frequencyOf e u
      ∃ t, exec (.pm0FrequencyResult e u) s = .next t ∧ t.gen.lastFreq = f ∧
        (s.gen.state = .cranking → f < crankCut s.settings → 0 < f →
          t = { s with
            pm := { s.pm with pm0Seen := s.pm.pm0Seen || decide (0 < f) },
            gen := { s.gen with lastFreq := f, peak := max s.gen.peak f } }) ∧
        (s.gen.state = .cranking → f < crankCut s.settings → f = 0 →
          t = setCond Pt.genFailStop false { s with gen := { s.gen with lastFreq := 0 } } ∧ condOf t Pt.genFailStop = false) ∧
        (s.gen.state ≠ .cranking → s.gen.state ≠ .stopping → s.gen.state.running = false → f = 0 →
          t.gen = { s.gen with
            lastFreq := 0, rundownWatch := s.gen.rundownWatch && s.gen.state != .shutdown,
            rundownDue := s.gen.rundownDue && s.gen.state != .shutdown } ∧ t.pm = s.pm ∧ condOf t Pt.genFailStop = false) ∧
        (s.gen.state = .cranking → crankCut s.settings ≤ f → f < overspeed s.settings → dinLevel s 11 = false →
          t.gen.state = .warmup ∧ (t.gen.pre, t.gen.run, t.gen.crank) = (.released, .asserted, .released) ∧
          t.gen.starts = (s.gen.starts + 1) % 65536 ∧ t.gen.firstFailure = none ∧ t.gen.oilTimer = true ∧ t.gen.timer = true ∧
          t.gen.attempts = pushLast 8 s.gen.attempts ⟨now s, s.gen.series, s.gen.attempt, .started, max s.gen.peak f⟩) ∧
        (s.gen.state = .cranking → crankCut s.settings ≤ f → overspeed s.settings ≤ f → dinLevel s 11 = false →
          t.gen.state = .shutdown ∧ t.gen.cause = .overspeed)) ∧
  (∀ (e u : Nat) (s : State), Shape s → inRun s = true →
      let f := frequencyOf e u
      let alone := { s with pm := { s.pm with pm0Seen := s.pm.pm0Seen || decide (0 < f) }, gen := { s.gen with lastFreq := f } }
      ∃ t, exec (.pm0FrequencyResult e u) s = .next t ∧
        (s.gen.state = .stopping → f = 0 → condOf t Pt.genFailStop = false ∧ t.gen.requests = s.gen.requests ∧
          (s.gen.destDisabled = true → t.gen.state = .disabled ∧ (t.gen.pre, t.gen.run, t.gen.crank) = (.released, .released, .released)) ∧
          (s.gen.destDisabled = false → t.gen.lastRunEnd = now s ∧ t.gen.capacity = genCapacity s.settings ∧ t.gen.derates = 0 ∧
            condOf t Pt.genOverload = false ∧
            (s.gen.requests.isEmpty = true ∨ testRunning s = true →
              t.gen.state = .standby ∧ (t.gen.pre, t.gen.run, t.gen.crank) = (.released, .released, .released)) ∧
            (s.gen.requests.isEmpty = false → testRunning s = false →
              t.gen.state = .prestart ∧ t.gen.attempt = 1 ∧ t.gen.series = (s.gen.series + 1) % 65536))) ∧
        (s.gen.state ≠ .cranking → s.gen.state.running = false → 0 < f → t = alone) ∧
        (s.gen.state.running = true → overspeed s.settings ≤ f →
          t.gen.state = .shutdown ∧ t.gen.cause = .overspeed ∧ (t.gen.pre, t.gen.run, t.gen.crank) = (.released, .released, .released) ∧
          t.gen.requests = s.gen.requests ∧ condOf t Pt.genShutdown = true) ∧
        (s.gen.state = .loaded → f < overspeed s.settings →
          let span := if f < underspeed s.settings then s.gen.underspeedSpan + 1 else 0
          let droop := if loadChecking s then (if f < droopLimit s.settings then s.gen.droopSpan + 1 else 0) else s.gen.droopSpan
          let derates := loadChecking s = true ∧ f < droopLimit s.settings ∧ 5 ≤ droop
          (f < underspeed s.settings → 10 ≤ span →
            t.gen.state = .shutdown ∧ t.gen.cause = .underspeed ∧ (t.gen.pre, t.gen.run, t.gen.crank) = (.released, .released, .released) ∧
            t.gen.requests = s.gen.requests ∧ condOf t Pt.genShutdown = true) ∧
          (¬ (f < underspeed s.settings ∧ 10 ≤ span) →
            (¬ derates → t.gen = { s.gen with lastFreq := f, underspeedSpan := span, droopSpan := droop } ∧
              (0 < f → t = { alone with gen := t.gen })) ∧
            (derates → condOf t Pt.genOverload = true ∧ t.gen = { s.gen with
              lastFreq := f, underspeedSpan := span, droopSpan := 0, derates := satInc s.gen.derates,
              capacity := max (s.gen.capacity - largestOnline s) (smallestPresent s) }))) ∧
        (s.gen.state.running = true → s.gen.state ≠ .loaded → f < overspeed s.settings →
          (s.gen.state ≠ .warmup ∨ s.gen.warmupDue = false → t.gen = alone.gen ∧ (0 < f → t = alone)) ∧
          (s.gen.state = .warmup → s.gen.warmupDue = true →
            (inFreqWindow s f = true → t.gen.state = .ready ∧ t.gen.runStart = some (now s) ∧ t.gen.run = .asserted) ∧
            (inFreqWindow s f = false → t.gen.state = .shutdown ∧ t.gen.cause = .warmupFreq ∧ t.gen.run = .released ∧
              condOf t Pt.genShutdown = true)))) ∧
  ((∀ e u, e < 2 → frequencyOf e u = 0) ∧
      (∀ e u, 2 ≤ e → 0 < u → frequencyOf e u = min 10000 ((e - 1) * 100000000 / u)) ∧ ∀ e u, frequencyOf e u ≤ 10000)

/-- PM2_FREQUENCY_RESULT in RUN: the last frequency is taken; a result in the window counts toward the qualify time in QUALIFYING and sets the
quality span to 0 in PRESENT; an ABSENT mains with its sense begins to qualify; a result outside fails a qualify span, which leaves the outage
start as it was and sets MAINS_QUALITY, as it does in ABSENT while the sense reads PRESENT (R79). A result outside in PRESENT adds 1 to the
quality span, and the one with which the span reaches the quality time begins an outage: ABSENT, the outage start stamped, the outages raised,
the qualify failures and the retransfer span 0, MAINS_ABSENT and MAINS_QUALITY set (R81). In DIP, and in ABSENT while the sense reads LOST, a
result is recorded as the last frequency and nothing more (R79, R80). In a start-up that kept the power train a result is recorded as the last
frequency and decides nothing; in another start-up and in COMMISSIONING only PM2 notes it (R80, R93, R94, R152, R156). The qualify failures stop
at 65,535: log 57, the model's choice. A result outside the window ends the span also where it already stands at or above a qualify time lowered
since the last result, for which R78 makes the mains PRESENT at the next result: log 62, the model's choice. -/
def Obligations.Pm2Result : Prop :=
  (∀ (e u : Nat) (s : State),
      (trainKept s = true → exec (.pm2FrequencyResult e u) s = .next { s with
        pm := { s.pm with pm2Last := some (frequencyOf e u) },
        src := { s.src with mains := { s.src.mains with lastFreq := frequencyOf e u } } }) ∧
      (trainRuns s = false → exec (.pm2FrequencyResult e u) s = .next { s with
        pm := { s.pm with pm2Last := some (frequencyOf e u) } })) ∧
  ∀ (e u : Nat) (s : State), inRun s = true →
    let f := frequencyOf e u
    ∃ t, exec (.pm2FrequencyResult e u) s = .next t ∧ t.src.mains.lastFreq = f ∧ t.pm = { s.pm with pm2Last := some f } ∧
      (s.src.mains.state = .qualifying → inFreqWindow s f = true → s.src.mains.qualifySpan + 1 < qualifyTime s.settings →
        t = { s with
          pm := { s.pm with pm2Last := some f },
          src := { s.src with mains := { s.src.mains with lastFreq := f, qualifySpan := s.src.mains.qualifySpan + 1 } } }) ∧
      (s.src.mains.state = .qualifying → inFreqWindow s f = true → qualifyTime s.settings ≤ s.src.mains.qualifySpan + 1 →
        t.src.mains.state = .present ∧ t.src.mains.qualifyFailures = 0 ∧ t.src.mains.qualitySpan = 0 ∧ t.src.mains.retransferSpan = 0) ∧
      (s.src.mains.state = .qualifying → inFreqWindow s f = false →
        t.src.mains.state = .absent ∧ t.src.mains.qualifyFailures = satInc s.src.mains.qualifyFailures ∧
        t.src.mains.outageStart = s.src.mains.outageStart ∧ (Shape s → condOf t Pt.mainsQuality = true)) ∧
      (s.src.mains.state = .present → inFreqWindow s f = true →
        t = { s with
          pm := { s.pm with pm2Last := some f },
          src := { s.src with mains := { s.src.mains with lastFreq := f, qualitySpan := 0 } } }) ∧
      (s.src.mains.state = .present → inFreqWindow s f = false → s.src.mains.qualitySpan + 1 < qualityTime s.settings →
        t = { s with
          pm := { s.pm with pm2Last := some f },
          src := { s.src with mains := { s.src.mains with lastFreq := f, qualitySpan := s.src.mains.qualitySpan + 1 } } }) ∧
      (s.src.mains.state = .present → inFreqWindow s f = false → qualityTime s.settings ≤ s.src.mains.qualitySpan + 1 →
        t.src.mains.state = .absent ∧ t.src.mains.outageStart = now s ∧ t.src.mains.outages = satInc s.src.mains.outages ∧
        t.src.mains.qualifyFailures = 0 ∧ t.src.mains.retransferSpan = 0 ∧
        (Shape s → condOf t Pt.mainsAbsent = true ∧ condOf t Pt.mainsQuality = true)) ∧
      (s.src.mains.state = .absent → s.src.mains.sense = true → inFreqWindow s f = true →
        t.src.mains.state = .qualifying ∧ t.src.mains.qualifySpan = 0) ∧
      (s.src.mains.state = .absent → s.src.mains.sense = true → inFreqWindow s f = false →
        t.src.mains = { s.src.mains with lastFreq := f } ∧ (Shape s → condOf t Pt.mainsQuality = true)) ∧
      (s.src.mains.state = .dip ∨ (s.src.mains.state = .absent ∧ s.src.mains.sense = false) →
        t = { s with
          pm := { s.pm with pm2Last := some f },
          src := { s.src with mains := { s.src.mains with lastFreq := f } } })

/-- MAINS_SENSE_LOSS in RUN: PRESENT becomes DIP with the dip-tolerance timer started and the retransfer span 0; QUALIFYING becomes ABSENT with
one more qualify failure, up to 65,535 (R79, R80, R154; the stop there: log 57, the model's choice). MAINS_SENSE_RETURN in RUN, of an absence
below 65,535 ms that was not LONG: a dip whose absence lies within the tolerance ends in PRESENT, counted, with its width; a longer one has
ended the mains (R80, R154). The return of a LONG absence, or of one of 65,535 ms or more, has the seconds as its width, from 65 to 65,535
(R154; LONG also where no PM3_LONG_RESULT came before: log 41), and a dip of at most that tolerance has ended. PM3_LONG_RESULT: an absence that
reaches 65,535 ms is LONG and counts on in seconds from 65 (R154). -/
def Obligations.SenseRows : Prop :=
  (∀ s : State, inRun s = true → s.pm.sense = true → ∃ t, exec .mainsSenseLoss s = .next t ∧
      t.pm.sense = false ∧ t.pm.long = false ∧ t.src.mains.sense = false ∧
      (s.src.mains.state = .present →
        t.src.mains.state = .dip ∧ t.src.mains.dipTimer = some (dipTolerance s.settings) ∧ t.src.mains.retransferSpan = 0) ∧
      (s.src.mains.state = .qualifying →
        t.src.mains.state = .absent ∧ t.src.mains.qualifyFailures = satInc s.src.mains.qualifyFailures)) ∧
  (∀ (ms : Nat) (s : State), inRun s = true → s.pm.sense = false → s.pm.long = false → ms < 65535 →
      ∃ t, exec (.mainsSenseReturn ms) s = .next t ∧ t.pm = { s.pm with sense := true, long := false, width := ms } ∧
        t.src.mains.sense = true ∧ t.src.mains.absenceWidth = ms ∧
        (∀ tol, s.src.mains.dipTimer = some tol → s.src.mains.state = .dip → ms ≤ tol →
          t.src.mains.state = .present ∧ t.src.mains.dips = satInc s.src.mains.dips ∧ t.src.mains.lastDipWidth = ms) ∧
        (∀ tol, s.src.mains.dipTimer = some tol → s.src.mains.state = .dip → tol < ms →
          t.src.mains.state = .absent ∧ t.src.mains.outages = satInc s.src.mains.outages ∧ t.src.mains.outageStart = now s)) ∧
  (∀ (ms : Nat) (s : State), inRun s = true → s.pm.sense = false → s.pm.long = true ∨ 65535 ≤ ms →
      let width := min 65535 (max 65 (ms / 1000))
      ∃ t, exec (.mainsSenseReturn ms) s = .next t ∧ t.pm = { s.pm with sense := true, long := false, width := width } ∧
        t.src.mains.sense = true ∧ t.src.mains.absenceWidth = width ∧ t.src.mains.absenceSeconds = true ∧
        (s.src.mains.state ≠ .dip → t.src.mains = { s.src.mains with sense := true, absenceWidth := width, absenceSeconds := true }) ∧
        (∀ tol, s.src.mains.dipTimer = some tol → s.src.mains.state = .dip → tol < 65535 →
          t.src.mains.state = .absent ∧ t.src.mains.outages = satInc s.src.mains.outages ∧ t.src.mains.outageStart = now s)) ∧
  (∀ s : State, s.pm.sense = false → s.pm.long = false → ∃ t, exec .pm3LongResult s = .next t ∧
      t.pm = { s.pm with long := true, width := 65 } ∧
      (inRun s = true → t.src.mains = { s.src.mains with absenceWidth := 65535, absenceSeconds := false }) ∧
      { t with pm := s.pm, src := s.src } = s)

/-! ## Strings -/

/-- STRING_SUPERVISOR_EVALUATION in RUN: afterwards the mode and the level of the STRINGS claim, the values handed on and the sum of the
charge requests are those of the string records (R9, R11, R12), and THERMAL holds the lower of the two parts of R15, as last posted when the level
is the same, and nothing when neither is present; outside RUN nothing changes. That a row not due changes nothing is the model's choice
(log 5). The phase of a connected string, where the evaluation does not put it into FAULT, is that of the first case of R6 that applies, on the
profile, the capacity and the settle span of the evaluation; with its current channel failed the phase is held and the settle span is 0 (R1, R6).
A string whose runaway and over-temperature spans do not complete is not put into FAULT (R14, R16, R17). The reconnecting string in its MATCHING
stage: the MATCH level follows a string voltage that is not failed; a match that holds closes the contactor, however much time has passed, into
CHECKING with the inrush timer; else 180 s end the reconnect TIMEOUT; else the string goes on MATCHING (R21; the level follows the string voltage
also while the bus voltage channel alone is failed: log 49, the model's choice). -/
def Obligations.StringEvaluation : Prop :=
  (∀ s : State,
    (inRun s = true → ∃ t, exec .stringSupervisorEvaluation s = .next t ∧
      t.str.boost = (!(connectedStrings t).isEmpty && boostWanted t) ∧
      (t.bus.claims.strings).map (·.level) = some ((lowestLevel t (if t.str.boost then 1 else 0)).getD (noBattery t.settings)) ∧
      t.str.handed = handedNow t ∧
      t.ros.requestTotal = (t.str.recs.map fun r => (r.map (·.chargeRequest)).getD 0).sum ∧
      (thermalAsks t = [] → t.bus.claims.thermal = none) ∧
      (∀ l ∈ thermalAsks t, (∀ x ∈ thermalAsks t, l ≤ x) → t.bus.claims.thermal = wished (now s) l s.bus.claims.thermal)) ∧
    (inRun s = false → exec .stringSupervisorEvaluation s = .next s)) ∧
  (∀ (k : Fin 4) (r : StringRec) (s : State), Shape s → inRun s = true → strRec s k.val = some r → r.phase.connected = true →
      let i := strCurrent s k.val
      let p := strProfile s.settings k.val
      let settle := profWord s.settings p 7
      let tail := decide (-20 < i ∧ i ≤ percentC s.settings k.val (profWord s.settings p 6)) && (r.deficit == 0 || r.unknownCharge)
      let span := if tail then min (r.settleSpan + 1) settle else 0
      ∃ t, exec .stringSupervisorEvaluation s = .next t ∧
        (r.runaway = 0 → r.runawaySpan + 1 < 600 → r.overtempSpan + 1 < 60 → strPhase t k.val ≠ .fault) ∧
        (strPhase t k.val ≠ .fault →
          (currentBad s k.val = true → strPhase t k.val = r.phase ∧ strGet t k.val 1 (·.settleSpan) = 0) ∧
          (currentBad s k.val = false →
            (i ≤ -20 → strPhase t k.val = .discharging ∧ (r.phase ≠ .full → strGet t k.val 1 (·.settleSpan) = 0)) ∧
            (-20 < i → r.phase = .full →
              strPhase t k.val = if strCapacity s.settings k.val / 100 < r.deficit then .charging else .full) ∧
            (-20 < i → r.phase ≠ .full →
              (span = settle → strPhase t k.val = .full ∧ strGet t k.val 1 (·.settleSpan) = 0) ∧
              (span ≠ settle → strGet t k.val 0 (·.settleSpan) = span ∧
                (0 < r.deficit ∨ r.unknownCharge = true → strPhase t k.val = .charging) ∧
                (r.deficit = 0 → r.unknownCharge = false → strPhase t k.val = .topping)))))) ∧
  (∀ (k : Nat) (r : StringRec) (s : State), Shape s → inRun s = true → reconnecting s = some k → strRec s k = some r →
      r.stage = .matching →
      let matched := chanBad s (2 + k) = false ∧ chanBad s 0 = false ∧ meanOf s 0 - meanOf s (2 + k) ≤ matchWindow s.settings
      let claim := if chanBad s (2 + k) then s.bus.claims.matching
        else wished (now s) (meanOf s (2 + k) + matchWindow s.settings / 2) s.bus.claims.matching
      ∃ t, exec .stringSupervisorEvaluation s = .next t ∧
        (matched → strPhase t k = .reconnecting ∧ strGet t k .none (·.stage) = ReconnectStage.checking ∧
          strGet t k false (·.inrushTimer) = true ∧ t.str.iso.getD k .unpowered = .released ∧ t.bus.claims.matching = claim) ∧
        (¬ matched → 180 ≤ since s r.reconnectStart → strPhase t k = (if r.priorFault then .fault else .isolated) ∧
          strGet t k .matching (·.stage) = ReconnectStage.none ∧ strGet t k .none (·.outcome) = ReconnectOutcome.timeout ∧
          t.str.iso.getD k .unpowered = .asserted ∧ t.bus.claims.matching = none ∧ condOf t Pt.reconnectFailed = true) ∧
        (¬ matched → since s r.reconnectStart < 180 → strPhase t k = .reconnecting ∧
          strGet t k .none (·.stage) = ReconnectStage.matching ∧ t.str.iso.getD k .unpowered = s.str.iso.getD k .unpowered ∧
          t.bus.claims.matching = claim))

/-- SETTLE_SPAN_COMPLETE: the string enters FULL: last full time stamped, an unknown charge taken as full, boost timer 0, incomplete flag
clear, baseline list emptied, settle span 0 (R6, R7). BOOST_MAXIMUM_REACHED: the string is flagged incomplete, and CHARGE_INCOMPLETE is set
(R10). A capacity stored below a string's deficit lowers the deficit to it at once (R1). A row that names a moment inside an evaluation makes
that part of it alone (log 6: the model's choice). -/
def Obligations.ChargeRows : Prop :=
  (∀ (k : Fin 4) (r : StringRec) (s : State), Shape s → inRun s = true → strRec s k.val = some r → settleDue s k.val = true →
      ∃ t, exec (.settleSpanComplete k) s = .next t ∧
        strRec t k.val = some { r with
          phase := .full, lastFull := now s, deficit := if r.unknownCharge then 0 else r.deficit,
          chargeResidue := if r.unknownCharge then 0 else r.chargeResidue, unknownCharge := false, boostTimer := 0, incomplete := false,
          baselineList := [], baselineMinute := 0, baselineSum := 0, baselineSeen := 0, settleSpan := 0 } ∧
        t.str.iso = s.str.iso.set k.val .released) ∧
  (∀ (k : Fin 4) (r : StringRec) (s : State), Shape s → inRun s = true → strRec s k.val = some r → boostDue s k.val = true →
      ∃ t, exec (.boostMaximumReached k) s = .next t ∧ (∃ r', strRec t k.val = some r' ∧
        r' = { r with incomplete := true, boostTimer := r'.boostTimer } ∧ r.prof s.settings 8 ≤ r'.boostTimer) ∧
        condOf t Pt.chargeIncomplete = true) ∧
  (∀ (k : Fin 4) (o : BitVec 13) (v : Word) (s : State), o.toNat = 0x201 + 3 * k.val → Stores o v s →
      let u := stored o v s
      ∃ t, exec (.guardedWrite o v) s = .next t ∧ { t with str := u.str } = u ∧ (strRec u k.val = none → t = u) ∧
        (∀ r, strRec u k.val = some r → strRec t k.val = some { r with deficit := min r.deficit v.toNat }) ∧
        (∀ j, j ≠ k.val → strRec t j = strRec u j))

/-- BASELINE_MINUTE: the minute's mean joins the list of at most thirty, and the float baseline is the least positive entry, at least 5 dA;
a minute without a valid mean adds none (R13). TEMPERATURE_MINUTE: a valid temperature joins the history of at most thirty; a string in
stage 1 whose current and temperature rise call for stage 2 goes to FAULT, another one stays as it was (R16, R18; a failed current channel keeps a
string out of stage 2: log 48, the model's choice). A row that names a moment inside an evaluation makes that part of it alone (log 6: the
model's choice). -/
def Obligations.StringMinutes : Prop :=
  (∀ (k : Fin 4) (r : StringRec) (s : State), Shape s → inRun s = true → strRec s k.val = some r → baselineDue s k.val = true →
      let seen := r.baselineSeen + (if currentBad s k.val then 0 else 1)
      let sum := r.baselineSum + (if currentBad s k.val then 0 else strCurrent s k.val)
      let l := pushLast 30 r.baselineList (sum.tdiv seen)
      ∃ t, exec (.baselineMinute k) s = .next t ∧
        (seen = 0 → strRec t k.val = some { r with baselineMinute := 0, baselineSum := 0, baselineSeen := 0 }) ∧
        (seen ≠ 0 → strRec t k.val = some { r with
          baselineMinute := 0, baselineSum := 0, baselineSeen := 0, baselineList := l, baseline := baselineOf r.baseline l })) ∧
  (∀ (k : Fin 4) (r : StringRec) (s : State), Shape s → inRun s = true → strRec s k.val = some r → temperatureDue s k.val = true →
      let h := if r.tempValid then pushLast 30 r.tempHistory r.temp else r.tempHistory
      let stage2 := r.runaway = 1 ∧ currentBad s k.val = false ∧ 4 * r.baseline < strCurrent s k.val ∧ 30 ≤ temperatureRise h
      ∃ t, exec (.temperatureMinute k) s = .next t ∧
        (¬ stage2 → strRec t k.val = some { r with tempMinute := 0, tempHistory := h }) ∧
        (stage2 → strPhase t k.val = .fault ∧ t.str.iso = s.str.iso.set k.val .asserted ∧
          strRec t k.val = some { { r with tempHistory := h, phase := .fault }.leaveBus with runaway := 2 }))

/-- RUNAWAY_SPAN_EXPIRY: the string enters stage 1, with the STRINGS level less the runaway step as its stage-1 level (R14).
RUNAWAY_RETURN_SPAN_EXPIRY: the string returns to stage 0 (R14). OVERTEMP_SPAN_EXPIRY: the string goes to FAULT: STR_ISO asserted, stage 0,
spans and history emptied, no charge request, STRING_FAULT and STRING_ISOLATED set; deficit, residues, baseline and throughputs stay (R17,
R18). A row that names a moment inside an evaluation makes that part of it alone (log 6: the model's choice). -/
def Obligations.StringFaultRows : Prop :=
  (∀ (k : Fin 4) (r : StringRec) (s : State), Shape s → inRun s = true → strRec s k.val = some r → runawayDue s k.val = true →
      ∃ t, exec (.runawaySpanExpiry k) s = .next t ∧
        strRec t k.val = some { r with
          runaway := 1, runawaySpan := 0, returnSpan := 0, stage1Level := stringsLevel s - r.prof s.settings 12 } ∧
        condOf t Pt.runawaySuspect = true) ∧
  (∀ (k : Fin 4) (r : StringRec) (s : State), Shape s → inRun s = true → strRec s k.val = some r → returnDue s k.val = true →
      ∃ t, exec (.runawayReturnSpanExpiry k) s = .next t ∧
        strRec t k.val = some { r with runaway := 0, returnSpan := 0, runawaySpan := 0 }) ∧
  (∀ (k : Fin 4) (r : StringRec) (s : State), Shape s → inRun s = true → strRec s k.val = some r → overtempDue s k.val = true →
      ∃ t, exec (.overtempSpanExpiry k) s = .next t ∧
        strRec t k.val = some { { r with phase := .fault }.leaveBus with runaway := 0 } ∧
        t.str.iso = s.str.iso.set k.val .asserted ∧ condOf t Pt.stringFault = true ∧ condOf t Pt.stringIsolated = true)

/-- START_VOLTAGE_SPAN_EXPIRY: the bus mean has stood at or below the start voltage for its span: DEPTH is posted and held (R25). A row that
names a moment inside an evaluation makes that part of it alone (log 6: the model's choice). -/
def Obligations.StartVoltageSpan : Prop :=
  ∀ s : State, inRun s = true → busSpanDue s = true → s.src.mains.state ≠ .present → pointActive s Pt.fuelCritical = false →
    depthOver s = false → s.str.depthSpent = false → s.str.depthHeld = false → testRunning s = false →
    ∃ t, exec .startVoltageSpanExpiry s = .next t ∧ t.str.depthHeld = true ∧ requested t .depth = true ∧ t.str.busSpan = 60 ∧
      t.str.recs = s.str.recs

/-- RECONNECT_TIMEOUT: a reconnect still MATCHING after 180 s, whose match does not hold, ends: the string is back in its prior phase, the
MATCH claim withdrawn, the outcome TIMEOUT, RECONNECT_FAILED set (R21). INRUSH_TIMER_EXPIRY: an inrush within the limit closes the
reconnect: strikes 0, outcome CLOSED, the phase of R6; one beyond it, or a failed current channel, is a strike: FAULT on the second or from
FAULT, else ISOLATED (R23). A row that names a moment inside an evaluation makes that part of it alone (log 6: the model's choice). -/
def Obligations.ReconnectRows : Prop :=
  (∀ (k : Nat) (r : StringRec) (s : State), Shape s → inRun s = true → reconnecting s = some k → strRec s k = some r →
      r.stage = .matching → reconnectOverdue s k = true → matchHolds s k = false →
      ∃ t, exec .reconnectTimeout s = .next t ∧ strPhase t k = (if r.priorFault then .fault else .isolated) ∧
        strGet t k .none (·.stage) = ReconnectStage.none ∧ strGet t k .none (·.outcome) = ReconnectOutcome.timeout ∧
        t.bus.claims.matching = none ∧ condOf t Pt.reconnectFailed = true) ∧
  (∀ (k : Nat) (r : StringRec) (s : State), Shape s → inRun s = true → reconnecting s = some k → strRec s k = some r →
      r.stage = .checking → r.inrushTimer = true →
      let ok := currentBad s k = false ∧ (strCurrent s k).natAbs ≤ percentC s.settings k (r.prof s.settings 13)
      ∃ t, exec .inrushTimerExpiry s = .next t ∧ t.bus.claims.matching = none ∧
        strGet t k .checking (·.stage) = ReconnectStage.none ∧
        (ok → strPhase t k = phaseCase s k r 0 ∧ strGet t k 9 (·.strikes) = 0 ∧ strGet t k .none (·.outcome) = ReconnectOutcome.closed ∧
          condOf t Pt.reconnectFailed = false) ∧
        (¬ ok → strPhase t k = (if min 2 (r.strikes + 1) = 2 ∨ r.priorFault = true then .fault else .isolated) ∧
          strGet t k 9 (·.strikes) = min 2 (r.strikes + 1) ∧ strGet t k .none (·.outcome) = ReconnectOutcome.inrush ∧
          condOf t Pt.reconnectFailed = true))

/-- STRING_ISOLATE and STRING_RECONNECT: a connected string named by argument word 1 is ISOLATED and DONE answered; an open one begins its
reconnect, MATCHING, with MATCH posted at the string's voltage and half the match window, and STARTED answered; refusals in their order
(R19, R20, R21; detail 0 of DONE and STARTED: log 82, the model's choice). -/
def Obligations.StringCommands : Prop :=
  ∀ (slot : Fin 16) (tag : BitVec 8) (s : State), Shape s → Listens s →
    (dispatchRefusal Op.stringIsolate s = none →
      let u := atPost slot Op.stringIsolate tag s
      let k := arg u slot 1
      ∃ t, exec (.stringIsolate slot tag) s = .next t ∧
        (strRec u k = none → replyOf t slot = (.refusedRange, 1)) ∧
        (∀ r, strRec u k = some r → r.phase = .isolated → replyOf t slot = (.refusedState, 1)) ∧
        (∀ r, strRec u k = some r → r.phase = .fault → replyOf t slot = (.refusedState, 2)) ∧
        (∀ r, strRec u k = some r → r.phase = .reconnecting → replyOf t slot = (.done, 0) ∧
          strPhase t k = (if r.priorFault then .fault else .isolated) ∧ strGet t k .none (·.outcome) = ReconnectOutcome.abandonedCmd) ∧
        (∀ r, strRec u k = some r → r.phase.connected = true → replyOf t slot = (.done, 0) ∧
          strRec t k = some { r with phase := .isolated }.leaveBus ∧ t.str.iso = s.str.iso.set k .asserted ∧
          condOf t Pt.stringIsolated = true)) ∧
    (dispatchRefusal Op.stringReconnect s = none →
      let u := atPost slot Op.stringReconnect tag s
      let k := arg u slot 1
      ∃ t, exec (.stringReconnect slot tag) s = .next t ∧
        (strRec u k = none → replyOf t slot = (.refusedRange, 1)) ∧
        (∀ r, strRec u k = some r → r.phase.connected = true → replyOf t slot = (.refusedState, 1)) ∧
        (∀ r, strRec u k = some r → r.phase.open = true →
          ((reconnecting u).isSome → replyOf t slot = (.refusedBusy, 1)) ∧
          (reconnecting u = none → u.bus.eq.running = true → replyOf t slot = (.refusedBusy, 2)) ∧
          (reconnecting u = none → u.bus.eq.running = false → testRunning u = true → replyOf t slot = (.refusedBusy, 3)) ∧
          (reconnecting u = none → u.bus.eq.running = false → testRunning u = false →
            (chanBad u (2 + k) = true ∨ chanBad u 0 = true → replyOf t slot = (.refusedState, 3)) ∧
            (chanBad u (2 + k) = false → chanBad u 0 = false → meanOf u (2 + k) < r.prof u.settings 14 →
              replyOf t slot = (.refusedState, 2) ∧ condOf t Pt.reconnectFailed = true) ∧
            (chanBad u (2 + k) = false → chanBad u 0 = false → (r.prof u.settings 14 : Int) ≤ meanOf u (2 + k) →
              replyOf t slot = (.started, 0) ∧ strPhase t k = .reconnecting ∧
              strGet t k .none (·.stage) = ReconnectStage.matching ∧ strGet t k false (·.priorFault) = (r.phase == .fault) ∧
              t.bus.claims.matching = some ⟨meanOf u (2 + k) + matchWindow u.settings / 2, now s⟩))))

/-! ## Bus Regulator -/

/-- The target of a claim table: the claim that decides a class is the one of the deciding level, the earliest posted of several at it, and
of those the one standing first in the table; the highest raising claim, or the no-battery level with none, decides unless a ceiling lies
below it, and then the lowest ceiling does; the level is brought into the load window, and the governing slot is the one that decided, or
WINDOW when the window changed the level (R33; that no slot governs at the no-battery level: log 18; that a raising claim and a ceiling at
one level share nothing: log 51). A post makes the table hold the level with the clock's time, a withdrawal empties the slot, a new window or
no-battery level is taken, and each works target and governing slot out at once; a withdrawal from an empty slot changes nothing (R32 to
R34). A bus min or bus max stored brings a setpoint outside the new window to the nearer limit at once, with VREF written from it, and leaves
one within it (R34, R35). -/
def Obligations.TargetRule : Prop :=
  (∀ (ss : List Word) (c : Claims),
      (c.held raisingSlots = [] → (∀ j ∈ ceilingSlots, ∀ w, c.get j = some w → (noBattery ss : Int) ≤ w.level) →
        decidingLevel ss c = ((noBattery ss : Int), none)) ∧
      (∀ k v, c.decides (· > ·) raisingSlots k v → (∀ j ∈ ceilingSlots, ∀ w, c.get j = some w → v.level ≤ w.level) →
        decidingLevel ss c = (v.level, some k)) ∧
      (∀ k v, c.decides (· < ·) ceilingSlots k v →
        (c.held raisingSlots = [] ∧ v.level < noBattery ss) ∨ (∃ j ∈ raisingSlots, ∃ w, c.get j = some w ∧ v.level < w.level) →
        decidingLevel ss c = (v.level, some k)) ∧
      (targetOf ss c).1 = clampWindow ss (decidingLevel ss c).1 ∧
      ((targetOf ss c).1 = (decidingLevel ss c).1 → (targetOf ss c).2 = (decidingLevel ss c).2.map .slot) ∧
      ((targetOf ss c).1 ≠ (decidingLevel ss c).1 → (targetOf ss c).2 = some .window)) ∧
  (∀ (ss : List Word) (v : Int), busMin ss ≤ busMax ss →
      (v < busMin ss → clampWindow ss v = busMin ss) ∧ ((busMax ss : Int) < v → clampWindow ss v = busMax ss) ∧
      ((busMin ss : Int) ≤ v → v ≤ busMax ss → clampWindow ss v = v)) ∧
  (∀ (k : Slot) (level : Int) (s : State),
      let t := postClaim k level s
      let target := targetOf s.settings t.bus.claims
      t.bus.claims.get k = some ⟨level, now s⟩ ∧ (∀ j, j ≠ k → t.bus.claims.get j = s.bus.claims.get j) ∧
      t = { s with bus := { s.bus with claims := t.bus.claims, target := some target.1, governing := target.2 } }) ∧
  (∀ (k : Slot) (s : State),
      let t := withdrawClaim k s
      let target := targetOf s.settings t.bus.claims
      t.bus.claims.get k = none ∧ (∀ j, j ≠ k → t.bus.claims.get j = s.bus.claims.get j) ∧
      (s.bus.claims.get k = none → t = s) ∧
      ((s.bus.claims.get k).isSome → t = { s with
        bus := { s.bus with claims := t.bus.claims, target := some target.1, governing := target.2 } })) ∧
  (∀ s : State, s.bus.target.isSome →
      let target := targetOf s.settings s.bus.claims
      reclamp s = { s with bus := { s.bus with target := some target.1, governing := target.2 } }) ∧
  (∀ (v : Word) (s : State), Stores 0x20C v s → exec (.guardedWrite 0x20C v) s = .next (reclamp (stored 0x20C v s))) ∧
  (∀ (o : BitVec 13) (v : Word) (s : State), o = 0x214 ∨ o = 0x215 → Stores o v s →
      let u := stored o v s
      let target := targetOf u.settings u.bus.claims
      ∃ t, exec (.guardedWrite o v) s = .next t ∧ { t with bus := u.bus } = u ∧ t.bus.claims = u.bus.claims ∧
        (u.bus.target.isSome → (t.bus.target, t.bus.governing) = (some target.1, target.2)) ∧
        (∀ p, u.bus.setpoint = some p →
          (clampWindow u.settings p = p → (t.bus.setpoint, t.bus.vref) = (some p, u.bus.vref)) ∧
          (clampWindow u.settings p ≠ p →
            (t.bus.setpoint, t.bus.vref) = (some (clampWindow u.settings p), some (vrefCode (clampWindow u.settings p))))))

/-- BUS_REGULATOR_EVALUATION in RUN: the setpoint becomes the target when the two differ by no more than the ramp rate, else it moves
toward it by exactly the ramp rate, and VREF is written from it (R35); ILIM is written from load, charge allowance and online capacity,
over the shelf rating (R36). -/
def Obligations.BusEvaluation : Prop :=
  (∀ (g v : Int) (s : State), inRun s = true → s.bus.target = some g → s.bus.setpoint = some v →
    let r : Int := rampRate s.settings
    ∃ t n, exec .busRegulatorEvaluation s = .next t ∧ t.bus.setpoint = some n ∧
      ((g - v).natAbs ≤ r → n = g) ∧ (r < (g - v).natAbs → v < g → n = v + r) ∧ (r < (g - v).natAbs → g < v → n = v - r) ∧
      (n < 40000 → t.bus.vref = some 0) ∧
      (40000 ≤ n → t.bus.vref = some (min 4095 ((n.toNat - 40000) * 4095 / 20000))) ∧
      (shelfRating s = 0 → t.bus.ilim = none) ∧
      (shelfRating s ≠ 0 → t.bus.ilim = some (min 4095 (ilimLimit s * 4095 / shelfRating s)))) ∧
    vrefCode 43000 = 614 ∧ vrefCode 57600 = 3603

/-- EQUALIZE_SCHEDULE_CHECK, once the clock has reached the next check: an equalize that is due starts by SCHEDULE when every precondition
holds, else it waits with the first that fails; one that is not due shows NOT_DUE; the next check is the next whole hour (R38, R39).
EQUALIZE_DURATION_REACHED: the equalize ends COMPLETE, its claim withdrawn, its end time stamped, and every connected string's last equalize
time stamped (R41, R43). TEST_DURATION_REACHED: the test ends PASSED and withdraws TEST_FAILED, or, with the bus mean at or below its end
voltage, FAILED_EARLY and sets it; the TEST claim is withdrawn (R45, R47). The number of the first failed precondition is that of the first of
the nine that does not hold, in the order of the table of R37, and 0 when all hold; the ninth asks only a scheduled start. A row that names a
moment inside an evaluation makes that part of it alone (log 6: the model's choice). -/
def Obligations.ScheduleAndDuration : Prop :=
  (∀ (scheduled : Bool) (s : State),
      (AllHold (equalizeCases scheduled s) → equalizeFails scheduled s = 0) ∧
      ∀ n < 9, FirstFails (equalizeCases scheduled s) n → equalizeFails scheduled s = n + 1) ∧
  (∀ s : State, inRun s = true → s.bus.recheck = false → s.clk.state ≠ .unset → s.bus.eq.nextCheck ≤ now s →
      ∃ t, exec .equalizeScheduleCheck s = .next t ∧ t.bus.eq.nextCheck = (now s / 3600 + 1) * 3600 ∧
        (scheduleDue s = false → t.bus.eq.schedule = .notDue ∧ t.bus.claims = s.bus.claims) ∧
        (scheduleDue s = true → equalizeFails true s ≠ 0 →
          t.bus.eq.schedule = .dueWaiting ∧ t.bus.eq.firstFailed = equalizeFails true s ∧ t.bus.claims = s.bus.claims) ∧
        (scheduleDue s = true → equalizeFails true s = 0 →
          t.bus.eq.schedule = .dueStarted ∧ t.bus.eq.running = true ∧ t.bus.eq.scheduled = true ∧ t.bus.eq.startTime = now s ∧
          t.bus.claims.equalize = some ⟨s.str.handed.equalizeLevel.getD 0, now s⟩)) ∧
  (∀ s : State, Shape s → inRun s = true → equalizeDue s = true → ∃ t, exec .equalizeDurationReached s = .next t ∧
      t.bus.eq.running = false ∧ t.bus.eq.outcome = .complete ∧ t.bus.eq.endTime = now s ∧ t.bus.eq.elapsed = s.bus.eq.elapsed + 1 ∧
      t.bus.claims.equalize = none ∧
      (∀ k r, strRec s k = some r → r.phase.connected = true → strRec t k = some { r with lastEqualize := now s }) ∧
      (∀ k r, strRec s k = some r → r.phase.connected = false → strRec t k = some r)) ∧
  (∀ s : State, Shape s → inRun s = true → testDue s = true →
      let low := ∃ v, validMean s 0 = some v ∧ v ≤ s.bus.test.endVoltage
      ∃ t, exec .testDurationReached s = .next t ∧ t.bus.claims.test = none ∧ t.bus.test.endTime = now s ∧
        t.bus.test.elapsed = s.bus.test.elapsed + 1 ∧
        (low → t.bus.test.state = .ended .failedEarly ∧ condOf t Pt.testFailed = true) ∧
        (¬ low → t.bus.test.state = .ended .passed ∧ condOf t Pt.testFailed = false))

/-- EQUALIZE_START and EQUALIZE_CANCEL: with every precondition met the equalize runs by COMMAND at the level handed on, STARTED; else the
first failed precondition is answered, each of the eight in the order of R37 with its refusal there: REFUSED_BUSY 1, 2, 3, REFUSED_STATE 1, 5,
2, 3, 4; a cancel ends a running one, DONE, and is refused with none (R37, R39, R42, R43). TEST_START and TEST_ABORT: a test that no refusal
meets runs with its arguments and its TEST claim, STARTED; the first case of R44 that does not hold is answered, the three ranges first, in the
order of R44: REFUSED_RANGE 1, 2, 3, REFUSED_BUSY 1, 2, 3, REFUSED_STATE 1, 2, 4, 3, 5, and when all hold no refusal meets the test; an abort ends
a running one ABORTED_CMD, DONE, and is refused with none (R44, R46, R47). Detail 0 of DONE and STARTED is the model's choice (log 82). -/
def Obligations.EqualizeAndTestCommands : Prop :=
  (∀ (slot : Fin 16) (tag : BitVec 8) (s : State), Shape s → Listens s →
      (dispatchRefusal Op.equalizeStart s = none →
        let u := atPost slot Op.equalizeStart tag s
        ∃ t, exec (.equalizeStart slot tag) s = .next t ∧
          (equalizeFails false u = 0 → replyOf t slot = (.started, 0) ∧ t.bus.eq.running = true ∧ t.bus.eq.scheduled = false ∧
            t.bus.eq.startTime = now s ∧ t.bus.eq.elapsed = 0 ∧
            t.bus.claims.equalize = some ⟨u.str.handed.equalizeLevel.getD 0, now s⟩) ∧
          (equalizeFails false u ≠ 0 → replyOf t slot = equalizeRefusal (equalizeFails false u) ∧ t.bus = u.bus) ∧
          (AllHold (equalizeCases false u) → replyOf t slot = (.started, 0) ∧ t.bus.eq.running = true) ∧
          (∀ n < 8, FirstFails (equalizeCases false u) n → equalizeReplies[n]? = some (replyOf t slot) ∧ t.bus = u.bus)) ∧
      (dispatchRefusal Op.equalizeCancel s = none →
        let u := atPost slot Op.equalizeCancel tag s
        ∃ t, exec (.equalizeCancel slot tag) s = .next t ∧
          (u.bus.eq.running = true → replyOf t slot = (.done, 0) ∧ t.bus.eq.running = false ∧ t.bus.eq.outcome = .cancelledCmd ∧
            t.bus.eq.endTime = now s ∧ t.bus.eq.elapsed = u.bus.eq.elapsed ∧ t.bus.claims.equalize = none) ∧
          (u.bus.eq.running = false → replyOf t slot = (.refusedState, 1) ∧ t.bus = u.bus))) ∧
  (∀ (slot : Fin 16) (tag : BitVec 8) (s : State), Shape s → Listens s →
      (dispatchRefusal Op.testStart s = none →
        let u := atPost slot Op.testStart tag s
        ∃ t, exec (.testStart slot tag) s = .next t ∧
          (testRefusal (arg u slot 1) (arg u slot 2) u = none → replyOf t slot = (.started, 0) ∧ t.bus.test.state = .running ∧
            t.bus.test.duration = arg u slot 1 * 60 ∧ t.bus.test.endVoltage = arg u slot 2 ∧ t.bus.test.startTime = now s ∧
            t.bus.test.minBus = 65535 ∧ t.bus.claims.test = some ⟨testLevel s.settings, now s⟩) ∧
          (∀ r, testRefusal (arg u slot 1) (arg u slot 2) u = some r → replyOf t slot = r ∧ t.bus = u.bus) ∧
          (AllHold (testCases (arg u slot 1) (arg u slot 2) u) → replyOf t slot = (.started, 0) ∧ t.bus.test.state = .running) ∧
          (∀ n < 11, FirstFails (testCases (arg u slot 1) (arg u slot 2) u) n →
            testReplies[n]? = some (replyOf t slot) ∧ t.bus = u.bus)) ∧
      (dispatchRefusal Op.testAbort s = none →
        let u := atPost slot Op.testAbort tag s
        ∃ t, exec (.testAbort slot tag) s = .next t ∧
          (u.bus.test.state = .running → replyOf t slot = (.done, 0) ∧ t.bus.test.state = .ended .abortedCmd ∧
            t.bus.test.endTime = now s ∧ t.bus.claims.test = none) ∧
          (u.bus.test.state ≠ .running → replyOf t slot = (.refusedState, 1) ∧ t.bus = u.bus)))

/-! ## Rectifier Roster -/

/-- ROSTER_EVALUATION in RUN: afterwards the load is the load current's mean, which keeps its last valid value while it is invalid, and 0
while no valid value has been seen since a reset that did not keep the power train (R64, R145; seen by a scan: log 84, the model's choice);
the shortfall flag and its condition say
whether demand exceeds the effective capacity with nothing left to add, and MODULE_FAIL and MODULE_BARRED say whether a module is FAILED
or BARRED (R55, R64, R66, R67). At an evaluation that finds no module to judge: when the load and the requests exceed the effective capacity, or
the ONLINE count lies below 1 + reserve, and the source is not dead and carries the head of the resting queue beside the running modules, the head
is started, its inhibit released and its starts raised, and it leaves the queue (R56, R68). When the add rule starts none and the shed span is
short of its end, a swap that is due starts: the swap record IN_PROGRESS with its two modules, no retry time, the incoming module STARTING and
the outgoing one still ONLINE (R70, R71); and when none is due no module is started, and the queue and the swap record stay. -/
def Obligations.RosterEvaluation : Prop :=
  ∀ s : State, Shape s → inRun s = true → ∃ t, exec .rosterEvaluation s = .next t ∧
    (∀ l, validMean s 1 = some l → t.ros.load = l.toNat) ∧
    (validMean s 1 = none → t.ros.load = if s.ros.loadSeen then (meanOf s 1).toNat else 0) ∧
    t.ros.shortfall = (decide (effectiveCapacity t < demand t) && (t.ros.cap.dead || !headFits t)) ∧
    condOf t Pt.capacityShort = t.ros.shortfall ∧
    condOf t Pt.moduleFail = !(modulesIn t .failed).isEmpty ∧ condOf t Pt.moduleBarred = !(modulesIn t .barred).isEmpty ∧
    (ModulesSettled s →
      let adds := WantsModule t.ros.load s ∧ s.ros.cap.dead = false ∧ headFits s = true
      (∀ h r, s.ros.queue.head? = some h → modRec s h = some r → adds →
        modState t h = .starting ∧ (modRec t h).map (·.starts) = some ((r.starts + 1) % 65536) ∧ t.ros.inh = s.ros.inh.set h .released ∧
        t.ros.queue = s.ros.queue.filter (· != h) ∧ modulesIn t .starting = [h] ∧ t.ros.swap = s.ros.swap) ∧
      (¬ adds → s.ros.shedSpan + 1 < 600 →
        (∀ p, SwapDue s (addRunSeconds s) p → (modRec s p.1).isSome →
          t.ros.swap = { s.ros.swap with inProgress := true, incoming := p.1, outgoing := p.2, retry := none } ∧
          modState t p.1 = .starting ∧ (p.2 ≠ p.1 → modState t p.2 = .online) ∧ t.ros.inh = s.ros.inh.set p.1 .released ∧
          t.ros.queue = s.ros.queue.filter (· != p.1)) ∧
        ((∀ p, ¬ SwapDue s (addRunSeconds s) p) → modulesIn t .starting = [] ∧ t.ros.queue = s.ros.queue ∧ t.ros.inh = s.ros.inh ∧
          t.ros.swap = s.ros.swap)))

/-- MODULE_START_EXPIRY: a STARTING module whose MOD_OK has not come within 30 s takes a strike, FAILED or, on the third within a day,
BARRED; the swap it was started for ends FAILED_START, its retry-not-before time 3,600 s on and its last swap time left, with every other module
as it was and ROTATION logged after MODULE_STATE and STRIKE; any other swap goes on (R55, R59, R73; the place of ROTATION: log 17, the model's
choice). One whose MOD_OK reads OK is confirmed ONLINE, which completes the swap it was started for (R56, R72). STOP_UNCONFIRMED: a
STOPPING module whose MOD_OK still reads OK after 10 s enters its stop destination all the same, and STOP_UNCONFIRMED is logged (R57).
WATCH_SPAN_EXPIRY: an ONLINE module whose MOD_OK has been lost for its watch span under a live source takes a strike: FAILED or BARRED (R58,
R59). A row that names a moment inside an evaluation makes that part of it alone (log 6: the model's choice). -/
def Obligations.ModuleRows : Prop :=
  (∀ (m : Fin 8) (r : ModuleRec) (s : State), Shape s → inRun s = true → modRec s m.val = some r → r.state = .starting →
      30 ≤ since s r.entered →
      let l := freshStrikes s r.strikes ++ [now s]
      ∃ t, exec (.moduleStartExpiry m) s = .next t ∧
        (modOk s m.val = false →
          modRec t m.val = some { r with strikes := l, state := if 3 ≤ l.length then .barred else .failed, entered := now s } ∧
          t.ros.inh = s.ros.inh.set m.val .asserted ∧
          condOf t (if 3 ≤ l.length then Pt.moduleBarred else Pt.moduleFail) = true ∧ (∀ j, j ≠ m.val → modRec t j = modRec s j)) ∧
        (modOk s m.val = false → incoming s m.val = false → t.ros.swap = s.ros.swap) ∧
        (modOk s m.val = false → incoming s m.val = true →
          t.ros.swap = { s.ros.swap with inProgress := false, retry := some (now s + 3600), outcome := .failedStart } ∧
          (s.log.queue.length + 3 ≤ 32 → s.log.queue ++
            [⟨.moduleState, wordOf m.val, 2, if 3 ≤ l.length then 6 else 5, now s, s.log.gap⟩,
              ⟨.strike, wordOf m.val, wordOf l.length, 1, now s, false⟩,
              ⟨.rotation, wordOf m.val, wordOf s.ros.swap.outgoing, 2, now s, false⟩] <+: t.log.queue)) ∧
        (modOk s m.val = true → incoming s m.val = false → modRec t m.val = some { r with watch := 0, state := .online, entered := now s }) ∧
        (modOk s m.val = true → incoming s m.val = true → s.ros.swap.outgoing ≠ m.val → modState s s.ros.swap.outgoing = .online →
          modState t m.val = .online ∧ modState t s.ros.swap.outgoing = .stopping ∧
          t.ros.swap = { s.ros.swap with inProgress := false, lastSwap := now s, outcome := .complete })) ∧
  (∀ (m : Fin 8) (r : ModuleRec) (s : State), Shape s → inRun s = true → modRec s m.val = some r → r.state = .stopping →
      modOk s m.val = true → 10 ≤ since s r.entered →
      ∃ t, exec (.stopUnconfirmed m) s = .next t ∧
        modRec t m.val = some { r with state := if r.destService then .service else .resting, entered := now s } ∧
        t.ros.inh = s.ros.inh.set m.val .asserted ∧ (r.destService = false → m.val ∈ t.ros.queue) ∧
        (s.log.queue.length + 2 ≤ 32 → s.log.queue ++
          [⟨.moduleState, wordOf m.val, 4, if r.destService then 7 else 1, now s, s.log.gap⟩,
            ⟨.stopUnconfirmed, wordOf m.val, if r.destService then 7 else 1, 0, now s, false⟩] <+: t.log.queue)) ∧
  (∀ (m : Fin 8) (r : ModuleRec) (s : State), Shape s → inRun s = true → modRec s m.val = some r → watchDue s m.val = true →
      let l := freshStrikes s r.strikes ++ [now s]
      ∃ t, exec (.watchSpanExpiry m) s = .next t ∧
        modRec t m.val = some { r with
          watch := r.watch + 1, strikes := l, state := if 3 ≤ l.length then .barred else .failed, entered := now s } ∧
        t.ros.inh = s.ros.inh.set m.val .asserted)

/-- RETRY_HOLD_END: a FAILED module whose hold has run enters RESTING, its inhibit asserted, at its place in the resting queue, its strike
list kept, whatever the capacity in force; before 300 s it stays FAILED (R60). That a row not due changes nothing is the model's choice
(log 5), and that the row of a moment inside an evaluation makes that part alone (log 6). -/
def Obligations.RetryHoldEnd : Prop :=
  ∀ (m : Fin 8) (r : ModuleRec) (s : State), Shape s → trainRuns s = true → modRec s m.val = some r → r.state = .failed →
    ∃ t, exec (.retryHoldEnd m) s = .next t ∧
      (300 ≤ since s r.entered → modRec t m.val = some { r with state := .resting, entered := now s } ∧
        t.ros.inh = s.ros.inh.set m.val .asserted ∧
        t.ros.queue = insertQueue s m.val (s.ros.queue.filter (· != m.val))) ∧
      (since s r.entered < 300 → t.ros = s.ros)

/-- SHED_SPAN_EXPIRY: the shed condition has held for its span: the candidate stops toward RESTING and the span restarts (R69). The immediate
shed: with at most one module STARTING the online capacity lies within the capacity in force afterwards (R65). A rating, reserve or utilisation
stored enters the account at once, and the immediate shed follows in the same step when the new figures call for it (R53, R64). A row that names
a moment inside an evaluation makes that part of it alone (log 6: the model's choice). -/
def Obligations.ShedRows : Prop :=
  (∀ (c : Nat) (s : State), Shape s → inRun s = true → shedCandidate s = some c → 600 ≤ s.ros.shedSpan + 1 →
      ∃ t, exec .shedSpanExpiry s = .next t ∧ modState t c = .stopping ∧ stopDestination t c = .resting ∧
        t.ros.inh = s.ros.inh.set c .asserted ∧ t.ros.shedSpan = 0) ∧
  (∀ s : State, Shape s → (modulesIn s .starting).length ≤ 1 →
      (immediateShed s).ros.cap = s.ros.cap ∧ (immediateShed s).ros.cap.holds (onlineCapacity (immediateShed s)) = true) ∧
  (∀ (o : BitVec 13) (v : Word) (s : State), 0x218 ≤ o.toNat → o.toNat ≤ 0x221 → Stores o v s →
      let u := stored o v s
      ∃ t, exec (.guardedWrite o v) s = .next t ∧ t = immediateShed u ∧ (u.ros.cap.holds (onlineCapacity u) = true → t = u) ∧
        ((modulesIn u .starting).length ≤ 1 → t.ros.cap = u.ros.cap ∧ t.ros.cap.holds (onlineCapacity t) = true))

/-- MODULE_SERVICE, MODULE_RETURN and ROTATE_NOW: service stops a running module toward SERVICE or puts a resting one there; return clears
the strikes and brings a SERVICE, BARRED or FAILED one to RESTING; a rotation that may start does, STARTED (R61, R62, R71, R74; detail 0 of
DONE and STARTED: log 82, the model's choice). -/
def Obligations.ModuleCommands : Prop :=
  ∀ (slot : Fin 16) (tag : BitVec 8) (s : State), Shape s → Listens s →
    (dispatchRefusal Op.moduleService s = none →
      let u := atPost slot Op.moduleService tag s
      let m := arg u slot 1
      ∃ t, exec (.moduleService slot tag) s = .next t ∧
        (modRec u m = none → replyOf t slot = (.refusedRange, 1)) ∧
        (∀ r, modRec u m = some r → r.state = .service ∨ (r.state = .stopping ∧ r.destService = true) →
          replyOf t slot = (.refusedState, 1)) ∧
        (∀ r, modRec u m = some r → r.state = .online ∨ r.state = .starting → replyOf t slot = (.done, 0) ∧
          modRec t m = some { r with destService := true, state := .stopping, entered := now s }) ∧
        (∀ r, modRec u m = some r → r.state = .stopping → r.destService = false → replyOf t slot = (.done, 0) ∧
          modRec t m = some { r with destService := true }) ∧
        (∀ r, modRec u m = some r → r.state = .resting ∨ r.state = .failed ∨ r.state = .barred → replyOf t slot = (.done, 0) ∧
          modRec t m = some { r with state := .service, entered := now s } ∧ m ∉ t.ros.queue)) ∧
    (dispatchRefusal Op.moduleReturn s = none →
      let u := atPost slot Op.moduleReturn tag s
      let m := arg u slot 1
      ∃ t, exec (.moduleReturn slot tag) s = .next t ∧
        (modRec u m = none → replyOf t slot = (.refusedRange, 1)) ∧
        (∀ r, modRec u m = some r → replyOf t slot = (.done, 0)) ∧
        (∀ r, modRec u m = some r → r.state = .service ∨ r.state = .failed ∨ r.state = .barred →
          modRec t m = some { r with strikes := [], state := .resting, entered := now s } ∧ m ∈ t.ros.queue) ∧
        (∀ r, modRec u m = some r → r.state = .stopping → modRec t m = some { r with strikes := [], destService := false }) ∧
        (∀ r, modRec u m = some r → r.state = .resting ∨ r.state = .starting ∨ r.state = .online →
          modRec t m = some { r with strikes := [] })) ∧
    (dispatchRefusal Op.rotateNow s = none →
      let u := atPost slot Op.rotateNow tag s
      ∃ t, exec (.rotateNow slot tag) s = .next t ∧
        (u.ros.swap.inProgress = true → replyOf t slot = (.refusedBusy, 1)) ∧
        (u.ros.swap.inProgress = false → anyStarting u = true → replyOf t slot = (.refusedBusy, 2)) ∧
        (u.ros.swap.inProgress = false → anyStarting u = false → u.ros.cap ≠ .unlimited → replyOf t slot = (.refusedState, 1)) ∧
        (u.ros.swap.inProgress = false → anyStarting u = false → u.ros.cap = .unlimited → attended u = true →
          replyOf t slot = (.refusedState, 2)) ∧
        (u.ros.swap.inProgress = false → anyStarting u = false → u.ros.cap = .unlimited → attended u = false →
          (swapPair u = none → replyOf t slot = (.refusedState, 3)) ∧
          (∀ p, swapPair u = some p → marginMet u p = false → replyOf t slot = (.refusedState, 4)) ∧
          (∀ p, swapPair u = some p → marginMet u p = true → replyOf t slot = (.started, 0) ∧
            t.ros.swap = { u.ros.swap with inProgress := true, incoming := p.1, outgoing := p.2, retry := none } ∧
            ((modRec u p.1).isSome → modState t p.1 = .starting))))

/-! ## Source Controller -/

/-- SOURCE_CONTROLLER_EVALUATION in RUN checks MAINS_FAIL first and decides the transfer on the state u after the check (log 102: the model's
choice). The check posts MAINS_FAIL when its posting condition holds and it is not held as posted, withdraws it when it is held and the
withdrawal condition holds, and else changes nothing (R83). On the mains with the call for the generator, a MAINS_FAIL standing or just posted
among its grounds, the transfer opens toward the generator, XFR_MOPEN asserted, and the source capacity in force becomes 0; without the call
nothing moves (R86, R91). In OPEN nothing is decided before the dead time has run; then a transfer that heads for the mains, or whose call has
gone, closes the mains side, one that heads for a called generator that carries the running modules closes that side, and else it waits (R87).
ON_GEN the retransfer span counts a PRESENT mains, and the transfer leaves through OPENING toward the mains at the retransfer delay with load not
forced, or on release (R88; the span stops at 65,535: log 33, the model's choice). In FAULT, and in a state whose confirm timer runs, it does
nothing more. A kept state whose confirm timer ran out in start-up is judged at the evaluation on the feedbacks as then read: confirmed, or FAULT
with its cause (R85, R93; log 92 for what comes before: the model's choice). RETRANSFER_SPAN_REACHED: the transfer leaves the generator toward the
mains through OPENING, XFR_GCLOSE released at once, and a LOADED generator goes to COOLDOWN (R88, R114). A row that names a moment inside an
evaluation makes that part of it alone (log 6: the model's choice). -/
def Obligations.SourceRows : Prop :=
  (∀ s : State,
      let u := checkMainsFail s
      u.src.xfer = s.src.xfer ∧
      (s.src.mains.failHeld = false → mainsFailDue s = true →
        u.src.mains = { s.src.mains with failHeld := true } ∧ requested u .mainsFail = true ∧
        (requested s .mainsFail = false → u.gen.requests = { s.gen.requests with mainsFail := some ⟨now s, true, 0⟩ })) ∧
      (s.src.mains.failHeld = true → mainsFailOver s = true →
        u.src.mains = { s.src.mains with failHeld := false } ∧ u.gen.requests = { s.gen.requests with mainsFail := none }) ∧
      ((s.src.mains.failHeld = false → mainsFailDue s = false) → (s.src.mains.failHeld = true → mainsFailOver s = false) → u = s)) ∧
  (∀ s : State, inRun s = true →
      let u := checkMainsFail s
      (s.src.xfer.state = .onMains →
        (callForGen u = true → ∃ t, exec .sourceControllerEvaluation s = .next t ∧
          t.src.xfer.state = (if feedbacks s = (false, false) then .open else .opening) ∧ t.src.xfer.headingGen = true ∧
          t.src.xfer.leftGen = false ∧ t.src.xfer.mopen = .asserted ∧ t.src.xfer.gclose = .released ∧ t.ros.cap = .limited 0 ∧
          t.gen.requests = u.gen.requests ∧ t.src.mains = u.src.mains) ∧
        (callForGen u = false → exec .sourceControllerEvaluation s = .next u)) ∧
      (s.src.xfer.state = .open →
        (s.src.xfer.deadRun = false → exec .sourceControllerEvaluation s = .next u) ∧
        (s.src.xfer.deadRun = true → s.src.xfer.headingGen = false ∨ callForGen u = false →
          ∃ t, exec .sourceControllerEvaluation s = .next t ∧
            t.src.xfer.state = (if feedbacks s = (true, false) then .onMains else .closingMains) ∧ t.src.xfer.headingGen = false ∧
            t.src.xfer.mopen = .released ∧ t.src.xfer.gclose = .released) ∧
        (s.src.xfer.deadRun = true → s.src.xfer.headingGen = true → callForGen u = true →
          (onlineCapacity s ≤ s.gen.capacity → ∃ t, exec .sourceControllerEvaluation s = .next t ∧
            t.src.xfer.state = (if feedbacks s = (false, true) then .onGen else .closingGen) ∧ t.src.xfer.mopen = .asserted ∧
            t.src.xfer.gclose = .asserted) ∧
          (s.gen.capacity < onlineCapacity s → exec .sourceControllerEvaluation s = .next u))) ∧
      (s.src.xfer.state = .onGen →
        let span := if s.src.mains.state = .present then min 65535 (s.src.mains.retransferSpan + 1) else s.src.mains.retransferSpan
        let leaves := (retransferDelay s.settings ≤ span ∧ loadForced u = false) ∨ release u = true
        (leaves → ∃ t, exec .sourceControllerEvaluation s = .next t ∧
          t.src.xfer.state = (if feedbacks s = (false, false) then .open else .opening) ∧ t.src.xfer.headingGen = false ∧
          t.src.xfer.leftGen = true ∧ t.src.xfer.gclose = .released ∧ t.src.xfer.mopen = .asserted ∧
          t.src.mains = { u.src.mains with retransferSpan := span } ∧ (u.gen.state = .loaded → t.gen.state = .cooldown) ∧
          t.bus.claims.generator = none) ∧
        (¬ leaves → exec .sourceControllerEvaluation s = .next { u with
          src := { u.src with mains := { u.src.mains with retransferSpan := span } } })) ∧
      (s.src.xfer.state = .fault ∨ ((s.src.xfer.state.confirms).isSome ∧ s.src.xfer.confirmTimer = true) →
        exec .sourceControllerEvaluation s = .next u)) ∧
  (∀ (st : XferState) (s : State), Shape s → inRun s = true → s.src.xfer.state.confirms = some st → s.src.xfer.confirmTimer = false →
      ∃ t, exec .sourceControllerEvaluation s = .next t ∧
        (feedbacksAgree s = true → t.src.xfer.state = st ∧ t.src.xfer.entered = now s) ∧
        (feedbacksAgree s = false → t.src.xfer.state = .fault ∧ t.src.xfer.cause = s.src.xfer.state.unconfirmed ∧
          t.src.xfer.gclose = .released ∧ condOf t Pt.transferFault = true)) ∧
  (∀ s : State, inRun s = true → s.src.xfer.state = .onGen → retransferDue (countRetransfer s) = true →
      ∃ t, exec .retransferSpanReached s = .next t ∧
        t.src.xfer.state = (if feedbacks s = (false, false) then .open else .opening) ∧ t.src.xfer.headingGen = false ∧
        t.src.xfer.leftGen = true ∧ t.src.xfer.gclose = .released ∧ t.src.xfer.mopen = .asserted ∧
        (s.gen.state = .loaded → t.gen.state = .cooldown) ∧ t.bus.claims.generator = none)

/-- OUTAGE_DELAY_REACHED: MAINS_FAIL, which wants load, stands in the Run Request Set and is held as posted (R83). DIP_TOLERANCE_EXPIRY: a
dip that outlasts its tolerance is an outage: ABSENT, the outage start stamped, the outages raised, MAINS_ABSENT set (R80). MAINS_QUALIFIED
and QUALITY_SPAN_REACHED: the result that completes the qualify span makes the mains PRESENT and withdraws MAINS_ABSENT and MAINS_QUALITY;
the one that completes the quality span makes it ABSENT and sets both (R79, R81). An outage start delay stored as 0 withdraws a MAINS_FAIL held
as posted, and another value does nothing at once (R78, R83); R78 lets a new delay be used from the next evaluation, and that the withdrawal
comes in the step of the write is the model's choice (log 36, DEDUCED). A row that names a moment inside an evaluation makes that
part of it alone (log 6: the model's choice). -/
def Obligations.MainsRows : Prop :=
  (∀ s : State, inRun s = true → mainsFailDue s = true → s.src.mains.failHeld = false →
      ∃ t, exec .outageDelayReached s = .next t ∧ t.src.mains.failHeld = true ∧ requested t .mainsFail = true ∧
        (requested s .mainsFail = false → t.gen.requests.mainsFail = some ⟨now s, true, 0⟩) ∧
        t.gen.requests.depth = s.gen.requests.depth ∧ t.gen.requests.exercise = s.gen.requests.exercise ∧
        t.gen.requests.manual = s.gen.requests.manual) ∧
  (∀ s : State, Shape s → trainRuns s = true → s.src.mains.state = .dip → ∃ t, exec .dipToleranceExpiry s = .next t ∧
      t.src.mains.state = .absent ∧ t.src.mains.entered = now s ∧ t.src.mains.outageStart = now s ∧
      t.src.mains.outages = satInc s.src.mains.outages ∧ t.src.mains.retransferSpan = 0 ∧ condOf t Pt.mainsAbsent = true) ∧
  (∀ s : State, Shape s → inRun s = true →
      (qualifyDue s = true → inFreqWindow s s.src.mains.lastFreq = true → ∃ t, exec .mainsQualified s = .next t ∧
        t.src.mains.state = .present ∧ t.src.mains.entered = now s ∧ t.src.mains.qualifyFailures = 0 ∧ t.src.mains.retransferSpan = 0 ∧
        condOf t Pt.mainsAbsent = false ∧ condOf t Pt.mainsQuality = false) ∧
      (qualityDue s = true → inFreqWindow s s.src.mains.lastFreq = false → ∃ t, exec .qualitySpanReached s = .next t ∧
        t.src.mains.state = .absent ∧ t.src.mains.outageStart = now s ∧ t.src.mains.outages = satInc s.src.mains.outages ∧
        t.src.mains.qualifyFailures = 0 ∧ condOf t Pt.mainsAbsent = true ∧ condOf t Pt.mainsQuality = true)) ∧
  (∀ (v : Word) (s : State), Stores 0x22F v s →
      let u := stored 0x22F v s
      ∃ t, exec (.guardedWrite 0x22F v) s = .next t ∧ (v ≠ 0 ∨ u.src.mains.failHeld = false → t = u) ∧
        (v = 0 → u.src.mains.failHeld = true → t.src.mains = { u.src.mains with failHeld := false } ∧
          requested t .mainsFail = false ∧ t.gen.requests.depth = u.gen.requests.depth ∧
          t.gen.requests.exercise = u.gen.requests.exercise ∧ t.gen.requests.manual = u.gen.requests.manual))

/-- CONFIRM_TIMER_EXPIRY in RUN: feedbacks that show what the state expects confirm it; else the transfer enters FAULT with the state's cause,
XFR_GCLOSE released, TRANSFER_FAULT set (R84, R85, R89); outside RUN the expiry is noted alone (R93). MISMATCH_WATCH_EXPIRY in RUN: a
disagreement that has lasted its second puts the transfer into FAULT with cause MISMATCH; a generator that was LOADED goes back to READY (R85,
R89, R114). DEAD_TIME_EXPIRY: in OPEN the dead time has run; heading for the mains the transfer closes it in RUN, XFR_MOPEN released; heading
for a generator that is called and carries the running modules it closes that one, both drives asserted; outside RUN only the dead time is noted
(R84, R87, R93). MAINS_RELEASE_EXPIRY: a release left pending in FAULT is made; nothing else changes (R84). That a row not due changes nothing
is the model's choice (log 5). -/
def Obligations.TransferTimers : Prop :=
  (∀ (st : XferState) (s : State), Shape s → inRun s = true → s.src.xfer.state.confirms = some st → s.src.xfer.confirmTimer = true →
      ∃ t, exec .confirmTimerExpiry s = .next t ∧
        (feedbacksAgree s = true → t.src.xfer.state = st ∧ t.src.xfer.entered = now s) ∧
        (feedbacksAgree s = false → t.src.xfer.state = .fault ∧ t.src.xfer.cause = s.src.xfer.state.unconfirmed ∧
          t.src.xfer.gclose = .released ∧ (t.src.xfer.faultMains, t.src.xfer.faultGen) = feedbacks s ∧ condOf t Pt.transferFault = true)) ∧
  (∀ s : State, inRun s = false → s.src.xfer.state.confirms.isSome = true → s.src.xfer.confirmTimer = true →
      exec .confirmTimerExpiry s = .next { s with src := { s.src with xfer := { s.src.xfer with confirmTimer := false } } }) ∧
  (∀ s : State, Shape s → inRun s = true → s.src.xfer.mismatchWatch = true → feedbacksAgree s = false →
      ∃ t, exec .mismatchWatchExpiry s = .next t ∧ t.src.xfer.state = .fault ∧ t.src.xfer.cause = .mismatch ∧
        t.src.xfer.gclose = .released ∧ condOf t Pt.transferFault = true ∧
        (s.src.xfer.state = .onGen → s.gen.state = .loaded → t.gen.state = .ready)) ∧
  (∀ s : State, s.src.xfer.state = .open → s.src.xfer.deadTimer = true →
      ∃ t, exec .deadTimeExpiry s = .next t ∧
        (inRun s = true → s.src.xfer.headingGen = false →
          t.src.xfer.state = (if feedbacks s = (true, false) then .onMains else .closingMains) ∧ t.src.xfer.mopen = .released ∧
          t.src.xfer.gclose = .released) ∧
        (inRun s = true → s.src.xfer.headingGen = true → callForGen s = true → onlineCapacity s ≤ s.gen.capacity →
          t.src.xfer.state = (if feedbacks s = (false, true) then .onGen else .closingGen) ∧ t.src.xfer.mopen = .asserted ∧
          t.src.xfer.gclose = .asserted) ∧
        (inRun s = true → s.src.xfer.headingGen = true → callForGen s = false →
          t.src.xfer.state = (if feedbacks s = (true, false) then .onMains else .closingMains) ∧ t.src.xfer.gclose = .released) ∧
        (inRun s = false → t = { s with src := { s.src with xfer := { s.src.xfer with deadTimer := false, deadRun := true } } })) ∧
  (∀ s : State,
      (s.src.xfer.state = .fault → s.src.xfer.releasePending = true → exec .mainsReleaseExpiry s = .next { s with
        src := { s.src with xfer := { s.src.xfer with releasePending := false, mopen := .released, gclose := .released } } }) ∧
      (s.src.xfer.state ≠ .fault ∨ s.src.xfer.releasePending = false → exec .mainsReleaseExpiry s = .next s))

/-- TRANSFER_RETRY: outside FAULT, with a release pending, or with other feedbacks than the mains closed it is refused; else the transfer
is ON_MAINS, both drives released, and TRANSFER_FAULT withdrawn (R89; detail 0 of DONE: log 82, the model's choice). -/
def Obligations.TransferRetry : Prop :=
  ∀ (slot : Fin 16) (tag : BitVec 8) (s : State), Shape s → Listens s → dispatchRefusal Op.transferRetry s = none →
    let u := atPost slot Op.transferRetry tag s
    ∃ t, exec (.transferRetry slot tag) s = .next t ∧
      (u.src.xfer.state ≠ .fault → replyOf t slot = (.refusedState, 1) ∧ t.src = u.src) ∧
      (u.src.xfer.state = .fault → u.src.xfer.releasePending = true → replyOf t slot = (.refusedBusy, 1) ∧ t.src = u.src) ∧
      (u.src.xfer.state = .fault → u.src.xfer.releasePending = false → feedbacks u ≠ (true, false) →
        replyOf t slot = (.refusedState, 2) ∧ t.src.xfer.state = .fault ∧ (t.src.xfer.faultMains, t.src.xfer.faultGen) = feedbacks u) ∧
      (u.src.xfer.state = .fault → u.src.xfer.releasePending = false → feedbacks u = (true, false) →
        replyOf t slot = (.done, 0) ∧ t.src.xfer.state = .onMains ∧ t.src.xfer.mopen = .released ∧ t.src.xfer.gclose = .released ∧
        t.src.xfer.cause = .none ∧ condOf t Pt.transferFault = false)

/-! ## Generator Controller -/

/-- GENERATOR_EVALUATION in RUN: run seconds are counted, the fuel level is the AIN15 mean, which keeps its last valid value while it is
invalid (R120, R145), FUEL_FLOW_IDLE follows the
idle quanta, and no request is left standing in STANDBY without a series but under a test (R97, R104, R120; the run hours stop
at 4,294,967,295: log 65, the model's choice). -/
def Obligations.GeneratorEvaluation : Prop :=
  ∀ s : State, Shape s → inRun s = true → ∃ t, exec .generatorEvaluation s = .next t ∧
    (s.gen.state.running = true → s.gen.residue < 359 → t.gen.residue = s.gen.residue + 1 ∧ t.gen.hours = s.gen.hours) ∧
    (s.gen.state.running = true → 359 ≤ s.gen.residue → t.gen.residue = 0 ∧ t.gen.hours = min 4294967295 (s.gen.hours + 1)) ∧
    (s.gen.state.running = false → t.gen.residue = s.gen.residue ∧ t.gen.hours = s.gen.hours) ∧
    t.gen.fuelLevel = (meanOf s 15).toNat ∧
    condOf t Pt.fuelFlowIdle = s.gen.idleQuanta ∧
    (t.gen.state = .standby → t.gen.requests.isEmpty = true ∨ testRunning t = true)

/-- REQUEST_END_TIME in RUN: MANUAL and EXERCISE leave the set at their end times; the other requests stay (R99). RUN_LIMIT: at the maximum
run DEPTH leaves the set, the limit acted mark is set, and the String Supervisor marks its depth spent and holds DEPTH no longer (R26,
R102). EXERCISE_SLOT_REACHED: a reached slot posts EXERCISE with its end time, or is skipped with its reason logged, and the next slot lies
a week on, or, where that one has passed too, is the first after the clock, of the exercise day and time; there is none with day 7 (R103; a
slot equal to the clock has passed: log 94, the model's choice). An exercise setting stored is worked into the schedule at the next evaluation
(R95, R103). A row that names a moment inside an evaluation makes that part of it alone (log 6: the model's choice). -/
def Obligations.RequestRows : Prop :=
  (∀ s : State, inRun s = true → ∃ t, exec .requestEndTime s = .next t ∧
      requested t .manual = (requested s .manual && !requestEnded s .manual) ∧
      requested t .exercise = (requested s .exercise && !requestEnded s .exercise) ∧
      t.gen.requests.mainsFail = s.gen.requests.mainsFail ∧ t.gen.requests.depth = s.gen.requests.depth) ∧
  (∀ s : State, inRun s = true → runLimitDue s = true → ∃ t, exec .runLimit s = .next t ∧
      requested t .depth = false ∧ t.gen.limitActed = true ∧ t.str.depthHeld = false ∧ t.str.depthSpent = true ∧
      t.gen.requests.mainsFail = s.gen.requests.mainsFail) ∧
  (∀ (slot : Nat) (s : State), inRun s = true → s.gen.slotStale = false → s.gen.nextSlot = some slot → slot ≤ now s →
      ∃ t, exec .exerciseSlotReached s = .next t ∧ (now s < slot + 604800 → t.gen.nextSlot = some (slot + 604800)) ∧
        (slot + 604800 ≤ now s →
          (7 ≤ exerciseDay s.settings → t.gen.nextSlot = none) ∧
          (exerciseDay s.settings < 7 → exerciseTime s.settings < 1440 → ∃ n, t.gen.nextSlot = some n ∧ now s < n ∧ n ≤ now s + 604800 ∧
            dayOfWeek n = exerciseDay s.settings ∧ timeOfDay n = exerciseTime s.settings * 60)) ∧
        (skipReason slot s = 0 → requested s .exercise = false →
          t.gen.requests.exercise = some ⟨now s, exerciseLoaded s.settings, now s + exerciseDuration s.settings⟩) ∧
        (skipReason slot s ≠ 0 → t.gen.requests = s.gen.requests ∧
          (s.log.queue.length < 32 →
            t.log.queue = s.log.queue ++ [⟨.exerciseSkipped, 0, wordOf (skipReason slot s), 0, now s, s.log.gap⟩]))) ∧
  (∀ (o : BitVec 13) (v : Word) (s : State), 0x238 ≤ o.toNat → o.toNat ≤ 0x23B → Stores o v s →
      let u := stored o v s
      exec (.guardedWrite o v) s = .next { u with gen := { u.gen with slotStale := true } }) ∧
  (∀ s : State, inRun s = true → s.gen.slotStale = true →
      exec .exerciseSlotReached s =
        exec .exerciseSlotReached { s with gen := { s.gen with nextSlot := slotFrom s.settings (now s), slotStale := false } })

/-- PRESTART_EXPIRY and CRANK_TIMER_EXPIRY: PRESTART goes on to CRANKING with the peak 0, GEN_PRE released, GEN_RUN and GEN_CRANK asserted;
a crank that expires rests, with all three released and the attempt entered as NO_FIRE; the state's timer starts anew, the timers and marks
of an engine that runs or stops are clear, the rest of the generator's record stands, and nothing outside that record and the log changes (R96,
R105, R106, R108; in a start-up that kept the power train also after a result at or above crank cut: log 78, the model's choice).
CRANK_REST_EXPIRY: the next attempt begins while the setting allows one; else the series has failed: BARRED, held when the first failure
lies within the day, GEN_FAIL_START set (R109, R110). BAR_END: after 1,800 s a bar without a hold, or with the acknowledgement taken, ends
in STANDBY, from where a standing request starts a series at once unless a test runs; the capacity in force and the derates are restored;
before, nothing changes (R104, R110, R116). That a row not due changes nothing is the model's choice (log 5), and that BAR_END, a moment
inside the evaluation, makes that part alone (log 6). -/
def Obligations.StartRows : Prop :=
  (∀ s : State, s.gen.timer = true →
      (s.gen.state = .prestart → ∃ t, exec .prestartExpiry s = .next t ∧
        t.gen = { s.gen.standing .cranking (now s) with peak := 0, pre := .released, run := .asserted, crank := .asserted } ∧
        { t with gen := s.gen, log := s.log } = s) ∧
      (s.gen.state = .cranking → ∃ t, exec .crankTimerExpiry s = .next t ∧
        t.gen = { s.gen.standing .crankRest (now s) with
          pre := .released, run := .released, crank := .released,
          attempts := pushLast 8 s.gen.attempts ⟨now s, s.gen.series, s.gen.attempt, .noFire, s.gen.peak⟩ } ∧
        { t with gen := s.gen, log := s.log } = s)) ∧
  (∀ s : State, Shape s → s.gen.state = .crankRest → s.gen.timer = true → ∃ t, exec .crankRestExpiry s = .next t ∧
      (s.gen.attempt < startAttempts s.settings →
        t.gen.state = .prestart ∧ t.gen.attempt = s.gen.attempt + 1 ∧ t.gen.pre = .asserted ∧ t.gen.series = s.gen.series) ∧
      (startAttempts s.settings ≤ s.gen.attempt → t.gen.state = .barred ∧ t.gen.barStart = now s ∧ condOf t Pt.genFailStart = true ∧
        (s.gen.firstFailure = none → t.gen.barHold = false ∧ t.gen.firstFailure = some (now s)) ∧
        (∀ f, s.gen.firstFailure = some f → since s f < 86400 → t.gen.barHold = true ∧ t.gen.ackTaken = false ∧
          t.gen.firstFailure = some f) ∧
        (∀ f, s.gen.firstFailure = some f → 86400 ≤ since s f → t.gen.barHold = false ∧ t.gen.firstFailure = some (now s)))) ∧
  (∀ s : State, inRun s = true →
      (barOver s = true → ∃ t, exec .barEnd s = .next t ∧ t.gen.barHold = false ∧ t.gen.ackTaken = false ∧
        t.gen.capacity = genCapacity s.settings ∧ t.gen.derates = 0 ∧
        (s.gen.requests.isEmpty = true → t.gen.state = .standby) ∧
        (s.gen.requests.isEmpty = false → testRunning s = false → t.gen.state = .prestart ∧ t.gen.attempt = 1 ∧
          t.gen.series = (s.gen.series + 1) % 65536)) ∧
      (barOver s = false → exec .barEnd s = .next s))

/-- WARMUP_EXPIRY in RUN: a last frequency in the window makes the engine READY, the run start stamped; another shuts it down with cause
WARMUP_FREQ (R113, R117). OIL_ARMING_EXPIRY in RUN: the oil-pressure protection arms; a switch that reads faulty then shuts the engine down with
cause OIL, the coolant switch with COOLANT; else nothing but the arming changes (R117; OIL when both read faulty: log 67, the model's choice).
LOAD_CHECK_START and DERATE: the load check begins 20 s into LOADED, in a start-up that kept the power train not before RUN (R118, R124); the
low result that completes the droop span takes the largest ONLINE module's rating off the capacity in force, down to the smallest present
rating, and sets GEN_OVERLOAD (R118; the smallest present rating also where the capacity was below it: log 35, and the derates stop at 65,535:
log 70, the model's choices). UNDERSPEED_SPAN_REACHED: the low result that completes the span shuts the engine down with cause UNDERSPEED and
counts in the span (R117). A generator capacity stored is in force at once while no derate is, and the roster takes it ON_GEN, shedding to it in
the same step; under a derate it waits (R65, R95). That a row not due changes nothing is the model's choice (log 5). A row that names a moment
inside an evaluation makes that part of it alone (log 6: the model's choice). -/
def Obligations.RunningRows : Prop :=
  (∀ s : State, Shape s → inRun s = true → s.gen.state = .warmup → s.gen.timer = true → ∃ t, exec .warmupExpiry s = .next t ∧
      (inFreqWindow s s.gen.lastFreq = true → t.gen.state = .ready ∧ t.gen.runStart = some (now s) ∧ t.gen.fuelAtStart = s.gen.fuelUsed ∧
        t.gen.limitActed = false ∧ t.gen.run = .asserted) ∧
      (inFreqWindow s s.gen.lastFreq = false → t.gen.state = .shutdown ∧ t.gen.cause = .warmupFreq ∧ t.gen.run = .released ∧
        condOf t Pt.genShutdown = true)) ∧
  (∀ s : State, Shape s → inRun s = true → s.gen.oilTimer = true → s.gen.state.running = true → ∃ t, exec .oilArmingExpiry s = .next t ∧
      (dinLevel s 10 = true → t.gen.state = .shutdown ∧ t.gen.cause = .oil ∧ t.gen.run = .released ∧ condOf t Pt.genShutdown = true) ∧
      (dinLevel s 10 = false → dinLevel s 11 = true → t.gen.state = .shutdown ∧ t.gen.cause = .coolant) ∧
      (dinLevel s 10 = false → dinLevel s 11 = false → t = { s with gen := { s.gen with oilTimer := false, oilArmed := true } })) ∧
  (∀ s : State, Shape s →
      (inRun s = true → loadChecking s = true → exec .loadCheckStart s = .next { s with gen := { s.gen with loadCheckBegun := true } }) ∧
      (inRun s = false ∨ loadChecking s = false → exec .loadCheckStart s = .next s) ∧
      (inRun s = true → derateDue s = true → s.gen.lastFreq < droopLimit s.settings → ∃ t, exec .derate s = .next t ∧
        t.gen.capacity = max (s.gen.capacity - largestOnline s) (smallestPresent s) ∧ t.gen.derates = satInc s.gen.derates ∧
        t.gen.droopSpan = 0 ∧ condOf t Pt.genOverload = true ∧
        (s.src.xfer.state = .onGen → t.ros.cap = .limited (max (s.gen.capacity - largestOnline s) (smallestPresent s))))) ∧
  (∀ s : State, Shape s → inRun s = true → underspeedDue s = true → s.gen.lastFreq < underspeed s.settings →
      ∃ t, exec .underspeedSpanReached s = .next t ∧ t.gen.state = .shutdown ∧ t.gen.cause = .underspeed ∧
        t.gen.underspeedSpan = s.gen.underspeedSpan + 1 ∧
        (t.gen.pre, t.gen.run, t.gen.crank) = (.released, .released, .released) ∧ condOf t Pt.genShutdown = true) ∧
  (∀ (v : Word) (s : State), Stores 0x232 v s →
      let u := stored 0x232 v s
      ∃ t, exec (.guardedWrite 0x232 v) s = .next t ∧ (u.gen.derates ≠ 0 → t = u) ∧
        (u.gen.derates = 0 → t.gen.capacity = v.toNat ∧
          (u.src.xfer.state ≠ .onGen → u.ros.cap = sourceCapacity u → t = { u with gen := { u.gen with capacity := v.toNat } }) ∧
          (u.src.xfer.state = .onGen → t.ros.cap = .limited v.toNat ∧
            (u.ros.cap ≠ .limited v.toNat → (modulesIn u .starting).length ≤ 1 → t.ros.cap.holds (onlineCapacity t) = true))))

/-- SHUTDOWN_RUNDOWN_EXPIRY, COOLDOWN_EXPIRY and STOP_TIMER_EXPIRY: an engine still turning 30 s after SHUTDOWN sets GEN_FAIL_STOP, and
in a start-up that kept the power train the judgement is left for RUN (R117, R124; log 69); a
cooldown ends in READY with a request standing or a run under 1,800 s, else in STOPPING toward STANDBY; a stop unconfirmed at its timer
sets GEN_FAIL_STOP and stays in STOPPING (R115 to R117; so at once in a start-up that kept the power train: log 86, the model's choice). -/
def Obligations.EndTimers : Prop :=
  ∀ s : State, Shape s →
    (inRun s = true → s.gen.state = .shutdown → s.gen.rundownWatch = true → 0 < s.gen.lastFreq →
      ∃ t, exec .shutdownRundownExpiry s = .next t ∧ t.gen.state = .shutdown ∧ condOf t Pt.genFailStop = true) ∧
    (trainKept s = true → s.gen.state = .shutdown → s.gen.rundownWatch = true →
      exec .shutdownRundownExpiry s = .next { s with gen := { s.gen with rundownDue := true } }) ∧
    (s.gen.state = .cooldown → s.gen.timer = true → ∃ t, exec .cooldownExpiry s = .next t ∧
      (s.gen.requests.isEmpty = false ∨ ranFor s 1800 = false → t.gen.state = .ready ∧ t.gen.run = .asserted) ∧
      (s.gen.requests.isEmpty = true → ranFor s 1800 = true →
        t.gen.state = .stopping ∧ t.gen.destDisabled = false ∧ t.gen.run = .released ∧ t.gen.timer = true)) ∧
    (s.gen.state = .stopping → s.gen.timer = true → ∃ t, exec .stopTimerExpiry s = .next t ∧
      t.gen.state = .stopping ∧ t.gen.timer = false ∧ condOf t Pt.genFailStop = true)

/-- GEN_RUN: refusals in their order; else MANUAL is posted with its load wish and its end time, DONE (R98, R100). GEN_RESET: in BARRED
the bar and its history end, GEN_FAIL_START is withdrawn; in SHUTDOWN with a last frequency of 0 the cause and both conditions are
withdrawn; both go on to STANDBY, DONE; else it is refused (R112). GEN_SERVICE: refusals in their order; on, the mark is set and the
generator is DISABLED or stops toward it, a bar's hold and first failure time kept and its acknowledgement mark cleared (R110); off, the mark
is cleared and a DISABLED generator enters STANDBY (R121, R122). Detail 0 of DONE is the model's choice (log 82). -/
def Obligations.GenCommands : Prop :=
  (∀ (slot : Fin 16) (tag : BitVec 8) (s : State), Shape s → Listens s → dispatchRefusal Op.genRun s = none →
      let u := atPost slot Op.genRun tag s
      let n := arg u slot 1
      let l := arg u slot 2
      ∃ t, exec (.genRun slot tag) s = .next t ∧
        (n < 1 ∨ 1440 < n → replyOf t slot = (.refusedRange, 1)) ∧
        (1 ≤ n → n ≤ 1440 →
          (1 < l → replyOf t slot = (.refusedRange, 2)) ∧
          (l ≤ 1 → u.gen.state = .disabled → replyOf t slot = (.refusedState, 1)) ∧
          (l ≤ 1 → u.gen.state ≠ .disabled → pointActive u Pt.fuelCritical = true → replyOf t slot = (.refusedState, 2)) ∧
          (l ≤ 1 → u.gen.state ≠ .disabled → pointActive u Pt.fuelCritical = false → testRunning u = true →
            replyOf t slot = (.refusedBusy, 1)) ∧
          (l ≤ 1 → u.gen.state ≠ .disabled → pointActive u Pt.fuelCritical = false → testRunning u = false →
            (requested u .manual = true → replyOf t slot = (.refusedBusy, 2)) ∧
            (requested u .manual = false → replyOf t slot = (.done, 0) ∧
              t.gen.requests.manual = some ⟨now s, l == 1, now s + n * 60⟩ ∧ t.gen.requests.depth = u.gen.requests.depth ∧
              t.gen.requests.mainsFail = u.gen.requests.mainsFail ∧ t.gen.requests.exercise = u.gen.requests.exercise)))) ∧
  (∀ (slot : Fin 16) (tag : BitVec 8) (s : State), Shape s → Listens s → dispatchRefusal Op.genReset s = none →
      let u := atPost slot Op.genReset tag s
      ∃ t, exec (.genReset slot tag) s = .next t ∧
        (u.gen.state = .barred → replyOf t slot = (.done, 0) ∧ t.gen.barHold = false ∧ t.gen.firstFailure = none ∧
          condOf t Pt.genFailStart = false ∧ (u.gen.requests.isEmpty = true → t.gen.state = .standby)) ∧
        (u.gen.state = .shutdown → u.gen.lastFreq = 0 → replyOf t slot = (.done, 0) ∧ t.gen.cause = .none ∧
          condOf t Pt.genShutdown = false ∧ condOf t Pt.genFailStop = false ∧
          (u.gen.requests.isEmpty = true → t.gen.state = .standby)) ∧
        (u.gen.state = .shutdown → u.gen.lastFreq ≠ 0 → replyOf t slot = (.refusedBusy, 1) ∧ t.gen = u.gen) ∧
        (u.gen.state ≠ .barred → u.gen.state ≠ .shutdown → replyOf t slot = (.refusedState, 1) ∧ t.gen = u.gen)) ∧
  (∀ (slot : Fin 16) (tag : BitVec 8) (s : State), Shape s → Listens s → dispatchRefusal Op.genService s = none →
      let u := atPost slot Op.genService tag s
      let v := arg u slot 1
      ∃ t, exec (.genService slot tag) s = .next t ∧
        (1 < v → replyOf t slot = (.refusedRange, 1)) ∧
        (v ≤ 1 → genFitted u = false → replyOf t slot = (.refusedState, 1)) ∧
        (v = 1 → genFitted u = true → u.gen.service = true → replyOf t slot = (.refusedState, 2)) ∧
        (v = 0 → genFitted u = true → u.gen.service = false → replyOf t slot = (.refusedState, 3)) ∧
        (v = 1 → genFitted u = true → u.gen.service = false → replyOf t slot = (.done, 0) ∧ t.gen.service = true ∧
          (u.gen.state = .standby ∨ u.gen.state = .barred ∨ u.gen.state = .shutdown → t.gen.state = .disabled) ∧
          (u.gen.state = .barred →
            t.gen.barHold = u.gen.barHold ∧ t.gen.firstFailure = u.gen.firstFailure ∧ t.gen.ackTaken = false) ∧
          (u.gen.state.inSeries = true ∨ u.gen.state.running = true ∨ u.gen.state = .stopping →
            t.gen.state = .stopping ∧ t.gen.destDisabled = true)) ∧
        (v = 0 → genFitted u = true → u.gen.service = true → replyOf t slot = (.done, 0) ∧ t.gen.service = false ∧
          (u.gen.state = .disabled → u.gen.requests.isEmpty = true → t.gen.state = .standby) ∧
          (u.gen.state = .stopping → t.gen.state = .stopping ∧ t.gen.destDisabled = false)))

/-- GEN_STOP: refused with REFUSED_STATE, detail 1, when neither MANUAL nor EXERCISE is in the set, and with REFUSED_AUTONOMY in
AUTONOMOUS; else it removes both kinds that are present, DONE with their number, and leaves MAINS_FAIL and DEPTH (R101). -/
def Obligations.GenStop : Prop :=
  ∀ (slot : Fin 16) (tag : BitVec 8) (s : State), Shape s → inRun s = true → ownWordActive s = false →
    let u := atPost slot Op.genStop tag s
    ∃ t, exec (.genStop slot tag) s = .next t ∧
      (s.sil.state = .autonomous → replyOf t slot = (.refusedAutonomy, 0) ∧ t.gen = u.gen) ∧
      (s.sil.state ≠ .autonomous →
        (requested u .manual = false → requested u .exercise = false → replyOf t slot = (.refusedState, 1) ∧ t.gen = u.gen) ∧
        (requested u .manual = true ∨ requested u .exercise = true →
          replyOf t slot = (.done, (if requested u .exercise then 1 else 0) + (if requested u .manual then 1 else 0)) ∧
          requested t .manual = false ∧ requested t .exercise = false ∧
          t.gen.requests.mainsFail = u.gen.requests.mainsFail ∧ t.gen.requests.depth = u.gen.requests.depth))

/-! ## Alarm Unit and Silence Monitor -/

/-- ALARM_EVALUATION in RUN: every threshold point's truth value is the one its sense, limits and hysteresis give for its input, and an
invalid input keeps it (R129, R130). The four senses with their hysteresis (R129): above the high limit, below the low limit, outside both,
within both. That a row not due changes nothing is the model's choice (log 5). -/
def Obligations.AlarmEvaluation : Prop :=
  (∀ s : State, Shape s →
      (inRun s = true → ∃ t, exec .alarmEvaluation s = .next t ∧
        (∀ p ∈ thresholdPoints, copyOf t p = thresholdJudged s p) ∧
        (∀ p ∈ thresholdPoints, thresholdInput s p = none → copyOf t p = copyOf s p) ∧ t.conds = s.conds) ∧
      (inRun s = false → exec .alarmEvaluation s = .next s)) ∧
  (∀ (low high hyst x : Int),
      (thresholdTruth 0 low high hyst x false = true ↔ high < x) ∧ (thresholdTruth 0 low high hyst x true = false ↔ x ≤ high - hyst) ∧
      (thresholdTruth 1 low high hyst x false = true ↔ x < low) ∧ (thresholdTruth 1 low high hyst x true = false ↔ low + hyst ≤ x) ∧
      (thresholdTruth 2 low high hyst x false = true ↔ x < low ∨ high < x) ∧
      (thresholdTruth 2 low high hyst x true = false ↔ low + hyst ≤ x ∧ x ≤ high - hyst) ∧
      (thresholdTruth 3 low high hyst x false = true ↔ low ≤ x ∧ x ≤ high) ∧
      (thresholdTruth 3 low high hyst x true = false ↔ x < low - hyst ∨ high + hyst < x))

/-- RAISE_TIMER_EXPIRY and CLEAR_TIMER_EXPIRY in RUN: a RAISING point is ACTIVE_UNACK with its raise counted; a CLEARING one is NORMAL when
acknowledged or not latching, else CLEARED_UNACK; the relays and ATTN follow the points; in another state nothing changes (R131 to R133,
R137). That a row not due changes nothing is the model's choice (log 5). A class stored: DISABLED brings the point to NORMAL, its raises kept
and the change logged, so that it is not active; a point that was DISABLED is judged, RAISING when its condition stands and no parent holds it
back, or ACTIVE_UNACK at once with a raise delay of 0; between two other classes the point stays as it is, and one that is active and becomes
URGENT aborts a running test; the outputs follow in each case (R127, R131, R133, R137 to R139). A latching setting stored as 0 moves a
CLEARED_UNACK point to NORMAL (R126). -/
def Obligations.PointTimers : Prop :=
  (∀ (p : Fin 32) (s : State), Shape s → inRun s = true →
    ((point s p.val).state = .raising → ∃ t, exec (.raiseTimerExpiry p) s = .next t ∧
      point t p.val = ⟨.activeUnack, none, false, min 65535 ((point s p.val).raises + 1), now s⟩ ∧ OutputsFollow t) ∧
    ((point s p.val).state ≠ .raising → exec (.raiseTimerExpiry p) s = .next s) ∧
    ((point s p.val).state = .clearing → ∃ t, exec (.clearTimerExpiry p) s = .next t ∧
      point t p.val = { point s p.val with
        state := if (point s p.val).acked = true ∨ pointWord s.settings p.val 1 = 0 then .normal else .clearedUnack, timer := none,
        changed := now s } ∧ OutputsFollow t) ∧
    ((point s p.val).state ≠ .clearing → exec (.clearTimerExpiry p) s = .next s)) ∧
  (∀ (p : Fin 32) (o : BitVec 13) (v : Word) (s : State), o.toNat = 0x300 + 8 * p.val → Stores o v s →
      let u := stored o v s
      let r := point u p.val
      let old := pointClass s p.val
      let judged := copyOf u p.val = true ∧ heldBack u p.val = false
      let delay := pointWord u.settings p.val 2
      ∃ t, exec (.guardedWrite o v) s = .next t ∧
        (v.toNat = old → t = u) ∧
        (v = 0 → old ≠ 0 → r.state = .normal → t = u) ∧
        (v = 0 → old ≠ 0 → r.state ≠ .normal → pointActive t p.val = false ∧ OutputsFollow t ∧
          point t p.val = { r with state := .normal, timer := none, changed := now s } ∧
          (u.log.queue.length < 32 → u.log.queue ++
            [⟨.pointChange, wordOf p.val, wordOf r.state.code, wordOf PointState.normal.code, now s, u.log.gap⟩] <+: t.log.queue)) ∧
        (v ≠ 0 → old = 0 → r.state = .normal → OutputsFollow t ∧
          (¬ judged → point t p.val = r) ∧
          (judged → delay ≠ 0 → point t p.val = { r with state := .raising, timer := some delay, changed := now s }) ∧
          (judged → delay = 0 → point t p.val = ⟨.activeUnack, none, false, min 65535 (r.raises + 1), now s⟩)) ∧
        (v ≠ 0 → old ≠ 0 → v.toNat ≠ old → OutputsFollow t ∧ t.alm.points = u.alm.points ∧
          (v = 3 → r.state.active = true → u.bus.test.state = .running → t.bus.test.state = .ended .abortedAlarm) ∧
          (v ≠ 3 ∨ r.state.active = false → { t with alm := u.alm } = u))) ∧
  (∀ (p : Fin 32) (o : BitVec 13) (v : Word) (s : State), o.toNat = 0x301 + 8 * p.val → Stores o v s →
      let u := stored o v s
      let r := point u p.val
      ∃ t, exec (.guardedWrite o v) s = .next t ∧
        (v = 0 → r.state = .clearedUnack → point t p.val = { r with state := .normal, timer := none, changed := now s } ∧ OutputsFollow t) ∧
        (v ≠ 0 ∨ r.state ≠ .clearedUnack → t = u))

/-- ACK_POINT and ACK_ALL: an ACTIVE_UNACK point becomes ACTIVE_ACK and a CLEARED_UNACK one NORMAL; the detail counts the points changed;
a point number above 31 is refused (R134). -/
def Obligations.AckCommands : Prop :=
  ∀ (slot : Fin 16) (tag : BitVec 8) (s : State), Shape s → Listens s →
    (dispatchRefusal Op.ackPoint s = none →
      let u := atPost slot Op.ackPoint tag s
      let p := arg u slot 1
      ∃ t, exec (.ackPoint slot tag) s = .next t ∧
        (31 < p → replyOf t slot = (.refusedRange, 1) ∧ t.alm = u.alm) ∧
        (p ≤ 31 → (point u p).state = .activeUnack → replyOf t slot = (.done, 1) ∧ (point t p).state = .activeAck) ∧
        (p ≤ 31 → (point u p).state = .clearedUnack → replyOf t slot = (.done, 1) ∧ (point t p).state = .normal) ∧
        (p ≤ 31 → (point u p).state ≠ .activeUnack → (point u p).state ≠ .clearedUnack → replyOf t slot = (.done, 0) ∧ t.alm = u.alm)) ∧
    (dispatchRefusal Op.ackAll s = none →
      let u := atPost slot Op.ackAll tag s
      ∃ t, exec (.ackAll slot tag) s = .next t ∧
        replyOf t slot = (.done, ((List.range 32).filter (ackable u)).length) ∧
        (∀ p < 32, (point u p).state = .activeUnack → (point t p).state = .activeAck) ∧
        (∀ p < 32, (point u p).state = .clearedUnack → (point t p).state = .normal) ∧
        (∀ p < 32, (point u p).state ≠ .activeUnack → (point u p).state ≠ .clearedUnack → point t p = point u p))

/-- SILENCE_MONITOR_EVALUATION, SILENCE_LIMIT_REACHED, GRACE_EXPIRY and RESUME: each evaluation in RUN counts a second, and does no more
while SUPERVISED short of the limit, in GRACE with a limit above 0 and in AUTONOMOUS; the one that reaches the limit enters GRACE and sets
HOST_SILENT, and one in GRACE with the limit 0 returns to SUPERVISED and withdraws it. The grace's end enters AUTONOMOUS, where MANUAL, an equalize
and a test have ended; a reconnect in progress is abandoned: the string is back in its prior phase with its contactor open and its inrush timer
cancelled, the outcome ABANDONED_AUTONOMY, the MATCH claim withdrawn, RECONNECT_FAILED as it was, STRING_ISOLATED and, from FAULT, STRING_FAULT set
(R8, R24). RESUME returns to SUPERVISED, DONE (R189, R190; its detail 0: log 82, the model's choice). A row that names a moment inside an evaluation
makes that part of it alone (log 6: the model's choice). -/
def Obligations.Silence : Prop :=
  ∀ s : State, Shape s →
    (inRun s = true → ∃ t, exec .silenceMonitorEvaluation s = .next t ∧ t.sil.count = min 4294967295 (s.sil.count + 1) ∧
      (s.sil.state = .supervised → (silenceLimit s.settings = 0 ∨ t.sil.count < silenceLimit s.settings * 10) →
        t = { s with sil := { s.sil with count := min 4294967295 (s.sil.count + 1) } }) ∧
      (s.sil.state = .supervised → 0 < silenceLimit s.settings → silenceLimit s.settings * 10 ≤ t.sil.count →
        t.sil.state = .grace ∧ condOf t Pt.hostSilent = true) ∧
      (s.sil.state = .grace → silenceLimit s.settings = 0 → t.sil.state = .supervised ∧ condOf t Pt.hostSilent = false) ∧
      ((s.sil.state = .grace ∧ 0 < silenceLimit s.settings) ∨ s.sil.state = .autonomous →
        t = { s with sil := { s.sil with count := min 4294967295 (s.sil.count + 1) } })) ∧
    (silenceDue s = true → s.sil.count < 4294967295 → ∃ t, exec .silenceLimitReached s = .next t ∧ t.sil.state = .grace ∧
      condOf t Pt.hostSilent = true) ∧
    (s.sil.state = .grace → ∃ t, exec .graceExpiry s = .next t ∧ t.sil.state = .autonomous ∧ requested t .manual = false ∧
      t.bus.eq.running = false ∧ testRunning t = false ∧ t.gen.requests.depth = s.gen.requests.depth ∧
      t.gen.requests.mainsFail = s.gen.requests.mainsFail ∧
      (reconnecting s = none → t.str.recs = s.str.recs ∧ t.str.iso = s.str.iso) ∧
      (∀ k r, reconnecting s = some k → strRec s k = some r →
        strRec t k = some { r with
          phase := if r.priorFault then .fault else .isolated, tempMinute := 0, stage := .none, inrushTimer := false,
          outcome := .abandonedAutonomy } ∧
        t.str.iso = s.str.iso.set k .asserted ∧ t.bus.claims.matching = none ∧
        condOf t Pt.reconnectFailed = condOf s Pt.reconnectFailed ∧ condOf t Pt.stringIsolated = true ∧
        (r.priorFault = true → condOf t Pt.stringFault = true))) ∧
    (∀ (slot : Fin 16) (tag : BitVec 8), Listens s → dispatchRefusal Op.resume s = none → ∃ t, exec (.resume slot tag) s = .next t ∧
      (s.sil.state = .autonomous → replyOf t slot = (.done, 0) ∧ t.sil.state = .supervised ∧ condOf t Pt.hostSilent = false) ∧
      (s.sil.state ≠ .autonomous → replyOf t slot = (.refusedState, 1) ∧ t.sil.state = .supervised))

/-! ## Command window, freeze and checkpoints -/

/-- COMMAND_INTERPRETER_EVALUATION and CHECKPOINT_INTERVAL: the page numbers advance in RUN and COMMISSIONING, not in start-up; in RUN the
evaluation is counted, and the 600th asks for every record and counts anew (R172, R180). FREEZE_CONTROL_WRITE and FREEZE_EXPIRY: 1 freezes with
a snapshot of the live area, 0 releases a frozen one, another value is refused RANGE and recorded; 2 s later a freeze that still stands is
EXPIRED (R159, R162, R173; the snapshot is that after the write's heartbeat: log 81, the model's choice). That a row not due changes nothing is
the model's choice (log 5), and that CHECKPOINT_INTERVAL, a moment inside the evaluation, makes that part alone (log 6). -/
def Obligations.WindowRows : Prop :=
  (∀ s : State,
      (starting s = true → exec .commandInterpreterEvaluation s = .next s) ∧
      (starting s = false → ∃ t, exec .commandInterpreterEvaluation s = .next t ∧
        t.cmd.pages = ⟨(s.cmd.pages.summary + 1) % 5, (s.cmd.pages.generator + 1) % 2, (s.cmd.pages.mains + 1) % 2,
          (s.cmd.pages.alarm + 1) % 16⟩) ∧
      (inRun s = true → s.cmd.interval + 1 < 600 → exec .checkpointInterval s = .next s ∧
        exec .commandInterpreterEvaluation s = .next { s with
          cmd := { s.cmd with pages := s.cmd.pages.next, interval := s.cmd.interval + 1 } }) ∧
      (inRun s = true → 600 ≤ s.cmd.interval + 1 → ∃ t, exec .commandInterpreterEvaluation s = .next t ∧
        t.cmd = { s.cmd with pages := s.cmd.pages.next, interval := 0 } ∧
        ∀ n < 14, ∀ f, recordFields s n = some f → OwnRequest.checkpoint n (recordWords n f) ∈ t.path.queue) ∧
      (inRun s = true → 600 ≤ s.cmd.interval + 1 → ∃ t, exec .checkpointInterval s = .next t ∧ t.cmd = { s.cmd with interval := 0 } ∧
        ∀ n < 14, ∀ f, recordFields s n = some f → OwnRequest.checkpoint n (recordWords n f) ∈ t.path.queue)) ∧
  ((∀ (v : Word) (s : State), Listens s → ∃ t, exec (.freezeControlWrite v) s = .next t ∧
      (v = 1 → t.cmd.freeze = .frozen ∧ t.cmd.snapshot = snapshotOf (heartbeat s)) ∧
      (v = 0 → s.cmd.freeze = .frozen → t.cmd.freeze = .released) ∧
      (v = 0 → s.cmd.freeze ≠ .frozen → t.cmd = s.cmd) ∧
      (1 < v.toNat → t.cmd = s.cmd ∧
        t.path.refusal = ⟨prBase s, v, 3, now s, min 65535 (s.path.refusal.count + 1)⟩)) ∧
    (∀ s : State, (s.cmd.freeze = .frozen → exec .freezeExpiry s = .next { s with cmd := { s.cmd with freeze := .expired } }) ∧
      (s.cmd.freeze ≠ .frozen → exec .freezeExpiry s = .next s)))

/-- A command posted while host accesses are held joins them on HWAIT and waits; one posted in start-up is refused START_UP and the refusal
recorded (R157, R162, R163). A command that the checks of R171 turn away changes nothing but the code and the detail of its slot's result and
the log, where its COMMAND entry stands last; a full queue loses the entry and sets the gap flag (R170, R177). An opcode outside the table is
REFUSED_UNKNOWN (UNKNOWN_COMMAND). -/
def Obligations.Posts : Prop :=
  (∀ (c : Instr) (slot : Fin 16) (op : Nat) (tag : BitVec 8) (s : State), postOf c = some (slot, op, tag) →
      (holds s = true → exec c s = .next { s with
        path := { s.path with held := s.path.held ++ [.pr (0x100 + 8 * slot.val) (bytesWord op tag.toNat)] } }) ∧
      (holds s = false → starting s = true → ∃ t, exec c s = .next t ∧ t.cmd = s.cmd ∧ t.path.cells = s.path.cells ∧
        t.path.refusal = ⟨prBase s + (0x100 + 8 * slot.val), bytesWord op tag.toNat, 2, now s,
          min 65535 (s.path.refusal.count + 1)⟩)) ∧
  ((∀ (c : Instr) (slot : Fin 16) (op : Nat) (tag : BitVec 8) (r : Reply) (s : State), Shape s → postOf c = some (slot, op, tag) →
      Listens s → dispatchRefusal op s = some r →
      let u := atPost slot op tag s
      let x := u.cmd.slots.getD slot.val .cleared
      ∃ t, exec c s = .next t ∧ replyOf t slot = r ∧ { t with cmd := u.cmd, log := u.log } = u ∧
        t.cmd = { u.cmd with slots := u.cmd.slots.set slot.val { x with code := r.1, detail := r.2 } } ∧
        (u.log.queue.length < 32 → t.log = { u.log with
          queue := u.log.queue ++
            [⟨.command, wordOf slot.val, bytesWord op r.1.code, bytesWord r.2 tag.toNat, now s, u.log.gap⟩],
          gap := false }) ∧
        (32 ≤ u.log.queue.length → t.log = { u.log with gap := true })) ∧
    (∀ (slot : Fin 16) (op tag : BitVec 8) (s : State), Shape s → Listens s → knownOpcode op.toNat = false →
      ∃ t, exec (.unknownCommand slot op tag) s = .next t ∧ replyOf t slot = (.refusedUnknown, 0)) ∧
    (∀ (op : Nat) (s : State), knownOpcode op = true →
      (s.st.state = .commissioning → takenInCommissioning op = false → dispatchRefusal op s = some (.refusedState, 240)) ∧
      (s.st.state = .run → s.sil.state = .autonomous → takenInAutonomy op = false → dispatchRefusal op s = some (.refusedAutonomy, 0)) ∧
      (s.st.state = .run → s.sil.state ≠ .autonomous → dispatchRefusal op s = none)))

/-- LOG_NOTE: DONE, whatever the queue holds, and the note with its slot and its two argument words joins the pending log queue before its
COMMAND entry, which carries the detail of the slot's result; a full queue loses both (R179). The detail itself and a queue with one place left
are stated in WindowCommands. -/
def Obligations.LogNote : Prop :=
  ∀ (slot : Fin 16) (tag : BitVec 8) (s : State), Shape s → Listens s →
    let u := atPost slot Op.logNote tag s
    ∃ t d, exec (.logNote slot tag) s = .next t ∧ replyOf t slot = (.done, d) ∧
      (u.log.queue.length + 2 ≤ 32 → t.log.queue = u.log.queue ++
        [⟨.logNote, wordOf slot.val, argWord u slot.val 1, argWord u slot.val 2, now s, u.log.gap⟩,
          ⟨.command, wordOf slot.val, bytesWord 0x48 1, bytesWord d tag.toNat, now s, false⟩]) ∧
      (32 ≤ u.log.queue.length → t.log.queue = u.log.queue ∧ t.log.gap = true) ∧
      { t with cmd := u.cmd, log := u.log } = u

/-- SET_CLOCK: the clock takes the two argument words and is SET, CLOCK_SET logged with the old state and value, the clock's checkpoint asked
for, and the schedules that count by the clock set anew at their next evaluation (R38, R103, R176; that every SET_CLOCK marks both schedules,
also one that sets the value the clock had: log 40, DEDUCED, the model's choice). SETTINGS_LOCK and LOAD_PRESET: the lock is set, DONE, detail 1
when it was set before, and a locked LOAD_PRESET is REFUSED_LOCKED. Detail 0 of that refusal, of DONE for SET_CLOCK and LOAD_PRESET, and of DONE
for SETTINGS_LOCK where the lock was clear is the model's choice (log 82). A preset taken puts its words into the profile's copy and asks for
the profile's write, DONE (R28, R188). LOG_NOTE answers detail 0 (log 82, the model's choice); where the pending log queue has one place left
the note takes it and its COMMAND entry is lost, with the gap flag set (R177). -/
def Obligations.WindowCommands : Prop :=
  (∀ (slot : Fin 16) (tag : BitVec 8) (s : State), Shape s → Listens s → dispatchRefusal Op.setClock s = none →
      let u := atPost slot Op.setClock tag s
      ∃ t, exec (.setClock slot tag) s = .next t ∧ replyOf t slot = (.done, 0) ∧
        t.clk.value = pairNat (argWord u slot.val 1) (argWord u slot.val 2) ∧ t.clk.state = .set ∧ t.clk.uptime = s.clk.uptime ∧
        t.bus.recheck = true ∧ t.gen.slotStale = true ∧
        (u.log.queue.length < 32 → ⟨.clockSet, wordOf s.clk.state.code, hiWord s.clk.value, loWord s.clk.value,
          pairNat (argWord u slot.val 1) (argWord u slot.val 2), u.log.gap⟩ ∈ t.log.queue) ∧
        (inRun s = true → ∃ f, recordFields t 13 = some f ∧ OwnRequest.checkpoint 13 (recordWords 13 f) ∈ t.path.queue)) ∧
  (∀ (slot : Fin 16) (tag : BitVec 8) (s : State), Shape s → Listens s →
      (dispatchRefusal Op.settingsLock s = none →
        let u := atPost slot Op.settingsLock tag s
        ∃ t, exec (.settingsLock slot tag) s = .next t ∧ replyOf t slot = (.done, if s.st.lock then 1 else 0) ∧ t.st.lock = true ∧
          { t with st := u.st, cmd := u.cmd, log := u.log } = u) ∧
      (dispatchRefusal Op.loadPreset s = none →
        let u := atPost slot Op.loadPreset tag s
        let p := arg u slot 1
        let n := arg u slot 2
        ∃ t, exec (.loadPreset slot tag) s = .next t ∧
          (3 < p → replyOf t slot = (.refusedRange, 1)) ∧ (p ≤ 3 → 2 < n → replyOf t slot = (.refusedRange, 2)) ∧
          (p ≤ 3 → n ≤ 2 → s.st.lock = true → replyOf t slot = (.refusedLocked, 0) ∧ t.settings = s.settings) ∧
          (p ≤ 3 → n ≤ 2 → s.st.lock = false → profileInUse u p = true → replyOf t slot = (.refusedState, 1)) ∧
          (p ≤ 3 → n ≤ 2 → s.st.lock = false → profileInUse u p = false → profileWriteStands u = true →
            replyOf t slot = (.refusedBusy, 1)) ∧
          (∀ c, chemistryOf n = some c → p ≤ 3 → s.st.lock = false → profileInUse u p = false → profileWriteStands u = false →
            replyOf t slot = (.done, 0) ∧ t.path.queue = u.path.queue ++ [.profileWrite p] ∧
            (∀ w < 17, wordIn t.settings (0x180 + 32 * p + w) = wordOfInt (c.words.getD w 0)) ∧
            (∀ o, 0x180 ≤ o → (o < 0x180 + 32 * p ∨ 0x180 + 32 * p + 32 ≤ o) → wordIn t.settings o = wordIn s.settings o)))) ∧
  (∀ (slot : Fin 16) (tag : BitVec 8) (s : State), Shape s → Listens s →
      let u := atPost slot Op.logNote tag s
      ∃ t, exec (.logNote slot tag) s = .next t ∧ replyOf t slot = (.done, 0) ∧
        (u.log.queue.length = 31 → t.log.gap = true ∧ t.log.queue = u.log.queue ++
          [⟨.logNote, wordOf slot.val, argWord u slot.val 1, argWord u slot.val 2, now s, u.log.gap⟩]))

/-! ## Memory Path -/

/-- HOST_WRITE: while accesses are held it waits; outside every area the word is passed to the memory, redirected, and a sound word holds the
data after it, also at or above the memory size (log 20: the model's choice); the remap table and the spares are PROTECTED; a descriptor word
and a PR word are what DESCRIPTOR_WRITE and GUARDED_WRITE of them are (R157, R159, R162, R163). DESCRIPTOR_WRITE: locked, it is refused LOCKED
and recorded; else it is stored and captured by no block (R160, R162). GUARDED_WRITE: in start-up every PR write is refused START_UP (R157); a
settings word that every check passes is stored, in the memory and in the copy; one that fails a check leaves both and is recorded with the
first failed check's reason: LOCKED, START_UP, RANGE, ORDER, IN_USE (R160 to R162, R188; LOCKED before START_UP also in COMMISSIONING: log 25).
An offset that is no settings word is a write of that PR word (log 21): counter and log words and slot word 7 are PROTECTED, ordinary words
stored, argument words stored and captured, word 0 is a post, and offset 0 the freeze control (R159, R170, R173). A settings word that no rule
takes at once is stored and nothing more: its owner reads it at its next use (R1, R34, R53, R78, R95, R126). That an argument word is captured
is stated for states whose slots have seven words each: the part of the invariant that InvAtReset and StepKeepsInv state. -/
def Obligations.HostWrites : Prop :=
  (∀ (a : BitVec 19) (v : Word) (s : State), Memory.wf s.path.cells = true →
      let area := areaOf s.path.size (prBase s) a.toNat
      (holds s = true → exec (.hostWrite a v) s = .next { s with path := { s.path with held := s.path.held ++ [.addr a v] } }) ∧
      (holds s = false →
        (area = .other ∨ area = .anchorRest → ∃ t, exec (.hostWrite a v) s = .next t ∧
          { t with path := s.path } = s ∧
          (s.path.faulty.contains (s.path.redirect a.toNat) = false →
            t.path = { s.path with cells := t.path.cells } ∧ memRead t a.toNat = v)) ∧
        (area = .remapTable ∨ area = .spare → ∃ t, exec (.hostWrite a v) s = .next t ∧
          t.path = { s.path with refusal := ⟨a.toNat, v, 6, now s, min 65535 (s.path.refusal.count + 1)⟩ } ∧
          { t with path := s.path, log := s.log } = s) ∧
        (∀ w : Fin 16, area = .descriptor w.val → exec (.hostWrite a v) s = exec (.descriptorWrite w v) s) ∧
        (∀ o : BitVec 13, area = .pr o.toNat → exec (.hostWrite a v) s = exec (.guardedWrite o v) s))) ∧
  (∀ (w : Fin 16) (v : Word) (s : State), Memory.wf s.path.cells = true →
      (holds s = true → exec (.descriptorWrite w v) s = .next { s with
        path := { s.path with held := s.path.held ++ [.anchor w.val v] } }) ∧
      (holds s = false → ∃ t, exec (.descriptorWrite w v) s = .next t ∧
        (s.st.lock = false → { t with path := s.path } = s ∧
          (s.path.faulty.contains (s.path.redirect (s.path.size - 64 + w.val)) = false →
            t.path = { s.path with cells := t.path.cells } ∧ memRead t (s.path.size - 64 + w.val) = v)) ∧
        (s.st.lock = true → t.path = { s.path with
          refusal := ⟨s.path.size - 64 + w.val, v, 1, now s, min 65535 (s.path.refusal.count + 1)⟩ } ∧
          { t with path := s.path, log := s.log } = s))) ∧
  (∀ (o : BitVec 13) (v : Word) (s : State),
      (holds s = true → exec (.guardedWrite o v) s = .next { s with
        path := { s.path with held := s.path.held ++ [.pr o.toNat v] } }) ∧
      (holds s = false → starting s = true → ∃ t, exec (.guardedWrite o v) s = .next t ∧ t.settings = s.settings ∧ t.cmd = s.cmd ∧
        t.path.cells = s.path.cells ∧
        t.path.refusal = ⟨prBase s + o.toNat, v, 2, now s, min 65535 (s.path.refusal.count + 1)⟩)) ∧
  (∀ (o : BitVec 13) (v : Word) (s : State), Shape s → Memory.wf s.path.cells = true → 0x180 ≤ o.toNat → o.toNat < 0x400 → Listens s →
      (∃ t, exec (.guardedWrite o v) s = .next t ∧
        (guardFails o.toNat v s = none → wordIn t.settings o.toNat = v ∧
          (∀ p, 0x180 ≤ p → p ≠ o.toNat → wordIn t.settings p = wordIn s.settings p) ∧
          (s.path.faulty.contains (s.path.redirect (prBase s + o.toNat)) = false → memRead t (prBase s + o.toNat) = v)) ∧
        (∀ n, guardFails o.toNat v s = some n → t.settings = s.settings ∧ t.path.cells = s.path.cells ∧
          t.path.refusal = ⟨prBase s + o.toNat, v, n, now s, min 65535 (s.path.refusal.count + 1)⟩)) ∧
      (s.st.lock = true → guardFails o.toNat v s = some 1) ∧
      (s.st.lock = false → s.st.state ≠ .run → guardFails o.toNat v s = some 2) ∧
      (s.st.lock = false → s.st.state = .run →
        let inUse := o.toNat < 0x200 ∧ profileInUse s ((o.toNat - 0x180) / 32) = true
        (inRange s.settings o.toNat v = false → guardFails o.toNat v s = some 3) ∧
        (inRange s.settings o.toNat v = true → keepsOrder s.settings o.toNat v = false → guardFails o.toNat v s = some 4) ∧
        (inRange s.settings o.toNat v = true → keepsOrder s.settings o.toNat v = true →
          (inUse → guardFails o.toNat v s = some 5) ∧ (¬ inUse → guardFails o.toNat v s = none)))) ∧
  (∀ (o : BitVec 13) (v : Word) (s : State), Shape s → Memory.wf s.path.cells = true → Listens s →
      (prArea o.toNat = .counter ∨ prArea o.toNat = .logRing ∨ (prArea o.toNat = .live ∧ o ≠ 0) ∨
          (∃ k, prArea o.toNat = .command k 7) →
        ∃ t, exec (.guardedWrite o v) s = .next t ∧ t.settings = s.settings ∧ t.cmd = s.cmd ∧ t.path.cells = s.path.cells ∧
          t.path.refusal = ⟨prBase s + o.toNat, v, 6, now s, min 65535 (s.path.refusal.count + 1)⟩) ∧
      (prArea o.toNat = .ordinary → ∃ t, exec (.guardedWrite o v) s = .next t ∧ t.settings = s.settings ∧ t.cmd = s.cmd ∧
        t.path.refusal = s.path.refusal ∧
        (s.path.faulty.contains (s.path.redirect (prBase s + o.toNat)) = false → memRead t (prBase s + o.toNat) = v)) ∧
      (∀ (slot : Fin 16) (i : Nat), SlotsWhole s → 1 ≤ i → i < 7 → prArea o.toNat = .command slot.val i →
        ∃ t, exec (.guardedWrite o v) s = .next t ∧ t.settings = s.settings ∧ argWord t slot.val i = v ∧ replyOf t slot = replyOf s slot ∧
          (s.path.faulty.contains (s.path.redirect (prBase s + o.toNat)) = false → memRead t (prBase s + o.toNat) = v)) ∧
      exec (.guardedWrite 0 v) s = exec (.freezeControlWrite v) s ∧
      (∀ (slot : Fin 16) (op tag : BitVec 8), prArea o.toNat = .command slot.val 0 →
        exec (.guardedWrite o (bytesWord op.toNat tag.toNat)) s = exec (.unknownCommand slot op tag) s)) ∧
  (∀ (o : BitVec 13) (v : Word) (s : State), 0x180 ≤ o.toNat → o.toNat < 0x400 → takenAtOnce o.toNat = false → Stores o v s →
      exec (.guardedWrite o v) s = .next (stored o v s))

/-- OWN_CYCLE_BEGIN: with no request begun the oldest leaves the queue and its first word is in progress, the others staying in their order; a
pending log event with no entry write standing joins behind them, or is begun at once as the entry of the head's sequence when the queue is
empty; with a request begun its next word is in progress, if it has one (R163, R164, R178). OWN_WORD_COMPLETE: the held host accesses proceed on
the state in which a word that reads back as written stands in the memory and the request goes on, and one that does not is moved to the lowest
free spare, its entry added, its anchor write queued; with no spare left, or a spare that fails too, MEMORY_WORN is set; no word of the memory
changes but the one written and the spare tried (R163, R165 to R167). OWN_REQUEST_COMPLETE: a whole request is done; a whole log entry raises
the head and, up to 512, the entries held; a request that is not whole goes on (R165, R178). That a row not due changes nothing is the model's
choice (log 5). The moment at which the oldest event is placed: log 9. -/
def Obligations.OwnCycleRows : Prop :=
  (∀ s : State,
      let places := s.log.ready = true ∧ entryStanding s = false ∧ s.log.queue ≠ []
      (∀ r q, s.path.busy = none → s.path.queue = r :: q →
        (¬ places → exec .ownCycleBegin s = .next { s with path := { s.path with queue := q, busy := some ⟨r, 0, true⟩ } }) ∧
        (∀ e l, places → s.log.queue = e :: l → exec .ownCycleBegin s = .next { s with
          path := { s.path with queue := q ++ [.logEntry s.log.head e], busy := some ⟨r, 0, true⟩ }, log := { s.log with queue := l } })) ∧
      (∀ e l, s.path.busy = none → s.path.queue = [] → s.log.ready = true → s.log.queue = e :: l →
        exec .ownCycleBegin s = .next { s with
          path := { s.path with busy := some ⟨.logEntry s.log.head e, 0, true⟩ }, log := { s.log with queue := l } }) ∧
      (s.path.busy = none → s.path.queue = [] → s.log.ready = false ∨ s.log.queue = [] → exec .ownCycleBegin s = .next s) ∧
      (∀ b, s.path.busy = some b →
        let b' := if b.next < b.request.total then { b with word := true } else b
        (¬ places → exec .ownCycleBegin s = .next { s with path := { s.path with busy := some b' } }) ∧
        (∀ e l, places → s.log.queue = e :: l → exec .ownCycleBegin s = .next { s with
          path := { s.path with queue := s.path.queue ++ [.logEntry s.log.head e], busy := some b' },
          log := { s.log with queue := l } }))) ∧
  (∀ (back spareBack : Word) (s : State), Shape s → Memory.wf s.path.cells = true →
      ((∀ b, s.path.busy = some b → b.word = false) → exec (.ownWordComplete back spareBack) s = .next (releaseHeld s)) ∧
      (∀ b, s.path.busy = some b → b.word = true →
        ∃ u, exec (.ownWordComplete back spareBack) s = .next (releaseHeld u) ∧ u.path.held = s.path.held ∧
          u.path.busy = some { b with next := b.next + 1, word := false } ∧
          (ownWrite s b.request b.next = none → u = { s with
            path := { s.path with busy := some { b with next := b.next + 1, word := false } } }) ∧
          (∀ a v, ownWrite s b.request b.next = some (a, v) →
            (∀ x, x ≠ s.path.redirect a → (∀ i, s.path.freeSpare = some i → x ≠ s.path.spareAddr i) →
              readCells u.path.cells x = readCells s.path.cells x) ∧
            (back = v ∨ b.request.isRemapWrite = true ∨ (s.path.entryFor a).isSome ∨ s.path.freeSpare = none ∨ s.path.freeEntry = none →
              ∀ x, x ≠ s.path.redirect a → readCells u.path.cells x = readCells s.path.cells x) ∧
            (back = v → memRead u a = v ∧ u.path.remap = s.path.remap ∧ u.path.queue = s.path.queue) ∧
            (∀ i, s.path.freeSpare = some i → ∀ e, s.path.freeEntry = some e →
              back ≠ v → b.request.isRemapWrite = false → s.path.entryFor a = none → spareBack = v →
              u.path.remap = s.path.remap.set e (some ⟨a, i⟩) ∧ memRead u a = v ∧
              u.path.queue = s.path.queue ++ [.remapWrite e (remapWords a i).1 (remapWords a i).2]) ∧
            (back ≠ v → b.request.isRemapWrite = true ∨ (s.path.entryFor a).isSome ∨ s.path.freeSpare = none ∨
                s.path.freeEntry = none ∨ spareBack ≠ v →
              u.path.remap = s.path.remap ∧ condOf u Pt.memoryWorn = true)))) ∧
  (∀ u : State, u.path.held = [] → releaseHeld u = u) ∧
  (∀ s : State,
      (s.path.busy = none → exec .ownRequestComplete s = .next s) ∧
      (∀ b, s.path.busy = some b →
        (b.word = false → b.request.total ≤ b.next → ∃ t, exec .ownRequestComplete s = .next t ∧ t.path.busy = none ∧
          t.path.cells = s.path.cells ∧ s.path.queue <+: t.path.queue ∧
          (b.request.isLogEntry = true → t.log.head = (s.log.head + 1) % 4294967296 ∧ t.log.count = min 512 (s.log.count + 1)) ∧
          (b.request.isLogEntry = false → t.log.head = s.log.head ∧ t.log.count = s.log.count)) ∧
        (b.word = true ∨ b.next < b.request.total → exec .ownRequestComplete s = .next s)))

end
end

