-- ==== Sys2Proof/Laws/State.lean ====
section
/-! SUPPORT. What each named update of State leaves and writes: one lemma per field per update, true by rfl. -/

namespace Sys2Proof.Machine

variable (s : State)

section SetstrFields
variable (k : Nat) (f : StringRec → StringRec)

@[simp] theorem setStr_pending : (setStr k f s).pending = s.pending := rfl
@[simp] theorem setStr_clk : (setStr k f s).clk = s.clk := rfl
@[simp] theorem setStr_path : (setStr k f s).path = s.path := rfl
@[simp] theorem setStr_cmd : (setStr k f s).cmd = s.cmd := rfl
@[simp] theorem setStr_log : (setStr k f s).log = s.log := rfl
@[simp] theorem setStr_st : (setStr k f s).st = s.st := rfl
@[simp] theorem setStr_settings : (setStr k f s).settings = s.settings := rfl
@[simp] theorem setStr_sil : (setStr k f s).sil = s.sil := rfl
@[simp] theorem setStr_scan : (setStr k f s).scan = s.scan := rfl
@[simp] theorem setStr_inp : (setStr k f s).inp = s.inp := rfl
@[simp] theorem setStr_pm : (setStr k f s).pm = s.pm := rfl
@[simp] theorem setStr_str : (setStr k f s).str = { s.str with recs := updAt k (Option.map f) s.str.recs } := rfl
@[simp] theorem setStr_bus : (setStr k f s).bus = s.bus := rfl
@[simp] theorem setStr_ros : (setStr k f s).ros = s.ros := rfl
@[simp] theorem setStr_src : (setStr k f s).src = s.src := rfl
@[simp] theorem setStr_gen : (setStr k f s).gen = s.gen := rfl
@[simp] theorem setStr_alm : (setStr k f s).alm = s.alm := rfl
@[simp] theorem setStr_conds : (setStr k f s).conds = s.conds := rfl

end SetstrFields

section SetmodFields
variable (m : Nat) (f : ModuleRec → ModuleRec)

@[simp] theorem setMod_pending : (setMod m f s).pending = s.pending := rfl
@[simp] theorem setMod_clk : (setMod m f s).clk = s.clk := rfl
@[simp] theorem setMod_path : (setMod m f s).path = s.path := rfl
@[simp] theorem setMod_cmd : (setMod m f s).cmd = s.cmd := rfl
@[simp] theorem setMod_log : (setMod m f s).log = s.log := rfl
@[simp] theorem setMod_st : (setMod m f s).st = s.st := rfl
@[simp] theorem setMod_settings : (setMod m f s).settings = s.settings := rfl
@[simp] theorem setMod_sil : (setMod m f s).sil = s.sil := rfl
@[simp] theorem setMod_scan : (setMod m f s).scan = s.scan := rfl
@[simp] theorem setMod_inp : (setMod m f s).inp = s.inp := rfl
@[simp] theorem setMod_pm : (setMod m f s).pm = s.pm := rfl
@[simp] theorem setMod_str : (setMod m f s).str = s.str := rfl
@[simp] theorem setMod_bus : (setMod m f s).bus = s.bus := rfl
@[simp] theorem setMod_ros : (setMod m f s).ros = { s.ros with mods := updAt m (Option.map f) s.ros.mods } := rfl
@[simp] theorem setMod_src : (setMod m f s).src = s.src := rfl
@[simp] theorem setMod_gen : (setMod m f s).gen = s.gen := rfl
@[simp] theorem setMod_alm : (setMod m f s).alm = s.alm := rfl
@[simp] theorem setMod_conds : (setMod m f s).conds = s.conds := rfl

end SetmodFields

section SetswapFields
variable (f : Swap → Swap)

@[simp] theorem setSwap_pending : (setSwap f s).pending = s.pending := rfl
@[simp] theorem setSwap_clk : (setSwap f s).clk = s.clk := rfl
@[simp] theorem setSwap_path : (setSwap f s).path = s.path := rfl
@[simp] theorem setSwap_cmd : (setSwap f s).cmd = s.cmd := rfl
@[simp] theorem setSwap_log : (setSwap f s).log = s.log := rfl
@[simp] theorem setSwap_st : (setSwap f s).st = s.st := rfl
@[simp] theorem setSwap_settings : (setSwap f s).settings = s.settings := rfl
@[simp] theorem setSwap_sil : (setSwap f s).sil = s.sil := rfl
@[simp] theorem setSwap_scan : (setSwap f s).scan = s.scan := rfl
@[simp] theorem setSwap_inp : (setSwap f s).inp = s.inp := rfl
@[simp] theorem setSwap_pm : (setSwap f s).pm = s.pm := rfl
@[simp] theorem setSwap_str : (setSwap f s).str = s.str := rfl
@[simp] theorem setSwap_bus : (setSwap f s).bus = s.bus := rfl
@[simp] theorem setSwap_ros : (setSwap f s).ros = { s.ros with swap := f s.ros.swap } := rfl
@[simp] theorem setSwap_src : (setSwap f s).src = s.src := rfl
@[simp] theorem setSwap_gen : (setSwap f s).gen = s.gen := rfl
@[simp] theorem setSwap_alm : (setSwap f s).alm = s.alm := rfl
@[simp] theorem setSwap_conds : (setSwap f s).conds = s.conds := rfl

end SetswapFields

section SetmainsFields
variable (f : Mains → Mains)

@[simp] theorem setMains_pending : (setMains f s).pending = s.pending := rfl
@[simp] theorem setMains_clk : (setMains f s).clk = s.clk := rfl
@[simp] theorem setMains_path : (setMains f s).path = s.path := rfl
@[simp] theorem setMains_cmd : (setMains f s).cmd = s.cmd := rfl
@[simp] theorem setMains_log : (setMains f s).log = s.log := rfl
@[simp] theorem setMains_st : (setMains f s).st = s.st := rfl
@[simp] theorem setMains_settings : (setMains f s).settings = s.settings := rfl
@[simp] theorem setMains_sil : (setMains f s).sil = s.sil := rfl
@[simp] theorem setMains_scan : (setMains f s).scan = s.scan := rfl
@[simp] theorem setMains_inp : (setMains f s).inp = s.inp := rfl
@[simp] theorem setMains_pm : (setMains f s).pm = s.pm := rfl
@[simp] theorem setMains_str : (setMains f s).str = s.str := rfl
@[simp] theorem setMains_bus : (setMains f s).bus = s.bus := rfl
@[simp] theorem setMains_ros : (setMains f s).ros = s.ros := rfl
@[simp] theorem setMains_src : (setMains f s).src = { s.src with mains := f s.src.mains } := rfl
@[simp] theorem setMains_gen : (setMains f s).gen = s.gen := rfl
@[simp] theorem setMains_alm : (setMains f s).alm = s.alm := rfl
@[simp] theorem setMains_conds : (setMains f s).conds = s.conds := rfl

end SetmainsFields

section SetxferFields
variable (f : Xfer → Xfer)

@[simp] theorem setXfer_pending : (setXfer f s).pending = s.pending := rfl
@[simp] theorem setXfer_clk : (setXfer f s).clk = s.clk := rfl
@[simp] theorem setXfer_path : (setXfer f s).path = s.path := rfl
@[simp] theorem setXfer_cmd : (setXfer f s).cmd = s.cmd := rfl
@[simp] theorem setXfer_log : (setXfer f s).log = s.log := rfl
@[simp] theorem setXfer_st : (setXfer f s).st = s.st := rfl
@[simp] theorem setXfer_settings : (setXfer f s).settings = s.settings := rfl
@[simp] theorem setXfer_sil : (setXfer f s).sil = s.sil := rfl
@[simp] theorem setXfer_scan : (setXfer f s).scan = s.scan := rfl
@[simp] theorem setXfer_inp : (setXfer f s).inp = s.inp := rfl
@[simp] theorem setXfer_pm : (setXfer f s).pm = s.pm := rfl
@[simp] theorem setXfer_str : (setXfer f s).str = s.str := rfl
@[simp] theorem setXfer_bus : (setXfer f s).bus = s.bus := rfl
@[simp] theorem setXfer_ros : (setXfer f s).ros = s.ros := rfl
@[simp] theorem setXfer_src : (setXfer f s).src = { s.src with xfer := f s.src.xfer } := rfl
@[simp] theorem setXfer_gen : (setXfer f s).gen = s.gen := rfl
@[simp] theorem setXfer_alm : (setXfer f s).alm = s.alm := rfl
@[simp] theorem setXfer_conds : (setXfer f s).conds = s.conds := rfl

end SetxferFields

section SetgenFields
variable (f : Gen → Gen)

@[simp] theorem setGen_pending : (setGen f s).pending = s.pending := rfl
@[simp] theorem setGen_clk : (setGen f s).clk = s.clk := rfl
@[simp] theorem setGen_path : (setGen f s).path = s.path := rfl
@[simp] theorem setGen_cmd : (setGen f s).cmd = s.cmd := rfl
@[simp] theorem setGen_log : (setGen f s).log = s.log := rfl
@[simp] theorem setGen_st : (setGen f s).st = s.st := rfl
@[simp] theorem setGen_settings : (setGen f s).settings = s.settings := rfl
@[simp] theorem setGen_sil : (setGen f s).sil = s.sil := rfl
@[simp] theorem setGen_scan : (setGen f s).scan = s.scan := rfl
@[simp] theorem setGen_inp : (setGen f s).inp = s.inp := rfl
@[simp] theorem setGen_pm : (setGen f s).pm = s.pm := rfl
@[simp] theorem setGen_str : (setGen f s).str = s.str := rfl
@[simp] theorem setGen_bus : (setGen f s).bus = s.bus := rfl
@[simp] theorem setGen_ros : (setGen f s).ros = s.ros := rfl
@[simp] theorem setGen_src : (setGen f s).src = s.src := rfl
@[simp] theorem setGen_gen : (setGen f s).gen = f s.gen := rfl
@[simp] theorem setGen_alm : (setGen f s).alm = s.alm := rfl
@[simp] theorem setGen_conds : (setGen f s).conds = s.conds := rfl

end SetgenFields

section SetbusFields
variable (f : Bus → Bus)

@[simp] theorem setBus_pending : (setBus f s).pending = s.pending := rfl
@[simp] theorem setBus_clk : (setBus f s).clk = s.clk := rfl
@[simp] theorem setBus_path : (setBus f s).path = s.path := rfl
@[simp] theorem setBus_cmd : (setBus f s).cmd = s.cmd := rfl
@[simp] theorem setBus_log : (setBus f s).log = s.log := rfl
@[simp] theorem setBus_st : (setBus f s).st = s.st := rfl
@[simp] theorem setBus_settings : (setBus f s).settings = s.settings := rfl
@[simp] theorem setBus_sil : (setBus f s).sil = s.sil := rfl
@[simp] theorem setBus_scan : (setBus f s).scan = s.scan := rfl
@[simp] theorem setBus_inp : (setBus f s).inp = s.inp := rfl
@[simp] theorem setBus_pm : (setBus f s).pm = s.pm := rfl
@[simp] theorem setBus_str : (setBus f s).str = s.str := rfl
@[simp] theorem setBus_bus : (setBus f s).bus = f s.bus := rfl
@[simp] theorem setBus_ros : (setBus f s).ros = s.ros := rfl
@[simp] theorem setBus_src : (setBus f s).src = s.src := rfl
@[simp] theorem setBus_gen : (setBus f s).gen = s.gen := rfl
@[simp] theorem setBus_alm : (setBus f s).alm = s.alm := rfl
@[simp] theorem setBus_conds : (setBus f s).conds = s.conds := rfl

end SetbusFields

section SeteqFields
variable (f : EqualizeRec → EqualizeRec)

@[simp] theorem setEq_pending : (setEq f s).pending = s.pending := rfl
@[simp] theorem setEq_clk : (setEq f s).clk = s.clk := rfl
@[simp] theorem setEq_path : (setEq f s).path = s.path := rfl
@[simp] theorem setEq_cmd : (setEq f s).cmd = s.cmd := rfl
@[simp] theorem setEq_log : (setEq f s).log = s.log := rfl
@[simp] theorem setEq_st : (setEq f s).st = s.st := rfl
@[simp] theorem setEq_settings : (setEq f s).settings = s.settings := rfl
@[simp] theorem setEq_sil : (setEq f s).sil = s.sil := rfl
@[simp] theorem setEq_scan : (setEq f s).scan = s.scan := rfl
@[simp] theorem setEq_inp : (setEq f s).inp = s.inp := rfl
@[simp] theorem setEq_pm : (setEq f s).pm = s.pm := rfl
@[simp] theorem setEq_str : (setEq f s).str = s.str := rfl
@[simp] theorem setEq_bus : (setEq f s).bus = { s.bus with eq := f s.bus.eq } := rfl
@[simp] theorem setEq_ros : (setEq f s).ros = s.ros := rfl
@[simp] theorem setEq_src : (setEq f s).src = s.src := rfl
@[simp] theorem setEq_gen : (setEq f s).gen = s.gen := rfl
@[simp] theorem setEq_alm : (setEq f s).alm = s.alm := rfl
@[simp] theorem setEq_conds : (setEq f s).conds = s.conds := rfl

end SeteqFields

section SettestFields
variable (f : TestRec → TestRec)

@[simp] theorem setTest_pending : (setTest f s).pending = s.pending := rfl
@[simp] theorem setTest_clk : (setTest f s).clk = s.clk := rfl
@[simp] theorem setTest_path : (setTest f s).path = s.path := rfl
@[simp] theorem setTest_cmd : (setTest f s).cmd = s.cmd := rfl
@[simp] theorem setTest_log : (setTest f s).log = s.log := rfl
@[simp] theorem setTest_st : (setTest f s).st = s.st := rfl
@[simp] theorem setTest_settings : (setTest f s).settings = s.settings := rfl
@[simp] theorem setTest_sil : (setTest f s).sil = s.sil := rfl
@[simp] theorem setTest_scan : (setTest f s).scan = s.scan := rfl
@[simp] theorem setTest_inp : (setTest f s).inp = s.inp := rfl
@[simp] theorem setTest_pm : (setTest f s).pm = s.pm := rfl
@[simp] theorem setTest_str : (setTest f s).str = s.str := rfl
@[simp] theorem setTest_bus : (setTest f s).bus = { s.bus with test := f s.bus.test } := rfl
@[simp] theorem setTest_ros : (setTest f s).ros = s.ros := rfl
@[simp] theorem setTest_src : (setTest f s).src = s.src := rfl
@[simp] theorem setTest_gen : (setTest f s).gen = s.gen := rfl
@[simp] theorem setTest_alm : (setTest f s).alm = s.alm := rfl
@[simp] theorem setTest_conds : (setTest f s).conds = s.conds := rfl

end SettestFields

section SetpathFields
variable (f : Path → Path)

@[simp] theorem setPath_pending : (setPath f s).pending = s.pending := rfl
@[simp] theorem setPath_clk : (setPath f s).clk = s.clk := rfl
@[simp] theorem setPath_path : (setPath f s).path = f s.path := rfl
@[simp] theorem setPath_cmd : (setPath f s).cmd = s.cmd := rfl
@[simp] theorem setPath_log : (setPath f s).log = s.log := rfl
@[simp] theorem setPath_st : (setPath f s).st = s.st := rfl
@[simp] theorem setPath_settings : (setPath f s).settings = s.settings := rfl
@[simp] theorem setPath_sil : (setPath f s).sil = s.sil := rfl
@[simp] theorem setPath_scan : (setPath f s).scan = s.scan := rfl
@[simp] theorem setPath_inp : (setPath f s).inp = s.inp := rfl
@[simp] theorem setPath_pm : (setPath f s).pm = s.pm := rfl
@[simp] theorem setPath_str : (setPath f s).str = s.str := rfl
@[simp] theorem setPath_bus : (setPath f s).bus = s.bus := rfl
@[simp] theorem setPath_ros : (setPath f s).ros = s.ros := rfl
@[simp] theorem setPath_src : (setPath f s).src = s.src := rfl
@[simp] theorem setPath_gen : (setPath f s).gen = s.gen := rfl
@[simp] theorem setPath_alm : (setPath f s).alm = s.alm := rfl
@[simp] theorem setPath_conds : (setPath f s).conds = s.conds := rfl

end SetpathFields

section SetstartFields
variable (f : Startup → Startup)

@[simp] theorem setStart_pending : (setStart f s).pending = s.pending := rfl
@[simp] theorem setStart_clk : (setStart f s).clk = s.clk := rfl
@[simp] theorem setStart_path : (setStart f s).path = s.path := rfl
@[simp] theorem setStart_cmd : (setStart f s).cmd = s.cmd := rfl
@[simp] theorem setStart_log : (setStart f s).log = s.log := rfl
@[simp] theorem setStart_st : (setStart f s).st = f s.st := rfl
@[simp] theorem setStart_settings : (setStart f s).settings = s.settings := rfl
@[simp] theorem setStart_sil : (setStart f s).sil = s.sil := rfl
@[simp] theorem setStart_scan : (setStart f s).scan = s.scan := rfl
@[simp] theorem setStart_inp : (setStart f s).inp = s.inp := rfl
@[simp] theorem setStart_pm : (setStart f s).pm = s.pm := rfl
@[simp] theorem setStart_str : (setStart f s).str = s.str := rfl
@[simp] theorem setStart_bus : (setStart f s).bus = s.bus := rfl
@[simp] theorem setStart_ros : (setStart f s).ros = s.ros := rfl
@[simp] theorem setStart_src : (setStart f s).src = s.src := rfl
@[simp] theorem setStart_gen : (setStart f s).gen = s.gen := rfl
@[simp] theorem setStart_alm : (setStart f s).alm = s.alm := rfl
@[simp] theorem setStart_conds : (setStart f s).conds = s.conds := rfl

end SetstartFields

section SetpointFields
variable (p : Nat) (f : PointRec → PointRec)

@[simp] theorem setPoint_pending : (setPoint p f s).pending = s.pending := rfl
@[simp] theorem setPoint_clk : (setPoint p f s).clk = s.clk := rfl
@[simp] theorem setPoint_path : (setPoint p f s).path = s.path := rfl
@[simp] theorem setPoint_cmd : (setPoint p f s).cmd = s.cmd := rfl
@[simp] theorem setPoint_log : (setPoint p f s).log = s.log := rfl
@[simp] theorem setPoint_st : (setPoint p f s).st = s.st := rfl
@[simp] theorem setPoint_settings : (setPoint p f s).settings = s.settings := rfl
@[simp] theorem setPoint_sil : (setPoint p f s).sil = s.sil := rfl
@[simp] theorem setPoint_scan : (setPoint p f s).scan = s.scan := rfl
@[simp] theorem setPoint_inp : (setPoint p f s).inp = s.inp := rfl
@[simp] theorem setPoint_pm : (setPoint p f s).pm = s.pm := rfl
@[simp] theorem setPoint_str : (setPoint p f s).str = s.str := rfl
@[simp] theorem setPoint_bus : (setPoint p f s).bus = s.bus := rfl
@[simp] theorem setPoint_ros : (setPoint p f s).ros = s.ros := rfl
@[simp] theorem setPoint_src : (setPoint p f s).src = s.src := rfl
@[simp] theorem setPoint_gen : (setPoint p f s).gen = s.gen := rfl
@[simp] theorem setPoint_alm : (setPoint p f s).alm = { s.alm with points := updAt p f s.alm.points } := rfl
@[simp] theorem setPoint_conds : (setPoint p f s).conds = s.conds := rfl

end SetpointFields

end Sys2Proof.Machine
end

