-- ==== Sys2Proof/Laws/Memory.lean ====
section
/-! SUPPORT. The memory's canonical form, kept by every memory operation, and what reads give after writes. -/

namespace Sys2Proof.Machine

theorem Memory.wfFrom_cons (lo a : Nat) (v : Word) (r : List (Nat × Word)) :
    Memory.wfFrom lo ((a, v) :: r) = true ↔ lo ≤ a ∧ v ≠ 0 ∧ Memory.wfFrom (a + 1) r = true := by
  simp [Memory.wfFrom, and_assoc]

theorem Memory.wfFrom_mono {lo lo' : Nat} (h : lo ≤ lo') : ∀ {m : List (Nat × Word)}, Memory.wfFrom lo' m = true → Memory.wfFrom lo m = true
  | [], _ => rfl
  | (a, v) :: r, hm => by
    rw [Memory.wfFrom_cons] at hm ⊢
    exact ⟨Nat.le_trans h hm.1, hm.2⟩

/-- A write keeps the canonical form above a bound that the address respects. -/
theorem writeCells_wfFrom (a : Nat) (v : Word) :
    ∀ (m : List (Nat × Word)) (lo : Nat), lo ≤ a → Memory.wfFrom lo m = true → Memory.wfFrom lo (writeCells m a v) = true
  | [], lo, hlo, _ => by
    unfold writeCells
    split
    · rfl
    · rw [Memory.wfFrom_cons]; exact ⟨hlo, by assumption, rfl⟩
  | (b, w) :: r, lo, hlo, hm => by
    have h := (Memory.wfFrom_cons lo b w r).1 hm
    unfold writeCells
    split
    · split
      · exact hm
      · rw [Memory.wfFrom_cons, Memory.wfFrom_cons]; exact ⟨hlo, by assumption, by omega, h.2⟩
    · split
      · next hab =>
        subst hab
        split
        · exact Memory.wfFrom_mono (by omega) h.2.2
        · rw [Memory.wfFrom_cons]; exact ⟨hlo, by assumption, h.2.2⟩
      · rw [Memory.wfFrom_cons]
        exact ⟨h.1, h.2.1, writeCells_wfFrom a v r (b + 1) (by omega) h.2.2⟩

/-- A write keeps the canonical form. -/
theorem writeCells_wf (m : List (Nat × Word)) (a : Nat) (v : Word) (h : Memory.wf m = true) : Memory.wf (writeCells m a v) = true :=
  writeCells_wfFrom a v m 0 (Nat.zero_le a) h

/-- A canonical memory reads 0 below its bound. -/
theorem readCells_below {m : List (Nat × Word)} {lo a : Nat} (h : Memory.wfFrom lo m = true) (ha : a < lo) : readCells m a = 0 := by
  cases m with
  | nil => rfl
  | cons p r =>
    obtain ⟨b, v⟩ := p
    have h' := (Memory.wfFrom_cons lo b v r).1 h
    simp [readCells, show a ≠ b by omega, show a < b by omega]

/-- What a read gives after a write: the value written at its address, elsewhere what it gave before. -/
theorem readCells_writeCells (a : Nat) (v : Word) (b : Nat) :
    ∀ (m : List (Nat × Word)) (lo : Nat), Memory.wfFrom lo m = true →
      readCells (writeCells m a v) b = if b = a then v else readCells m b
  | [], _, _ => by
    unfold writeCells
    by_cases hv : v = 0 <;> simp only [hv, if_true, if_false] <;> by_cases hb : b = a <;> simp [hb, readCells]
  | (c, w) :: r, lo, hm => by
    have h := (Memory.wfFrom_cons lo c w r).1 hm
    unfold writeCells
    by_cases h1 : a < c
    · by_cases hv : v = 0
      · simp only [h1, hv, if_true]
        by_cases hb : b = a
        · simp [hb, readCells, h1, show a ≠ c by omega]
        · simp [hb]
      · simp only [h1, hv, if_true, if_false]
        by_cases hb : b = a
        · simp [hb, readCells]
        · by_cases hlt : b < a
          · simp [hb, readCells, hlt, show b ≠ c by omega, show b < c by omega]
          · simp [hb, readCells, hlt]
    · by_cases h2 : a = c
      · subst h2
        by_cases hv : v = 0
        · simp only [Nat.lt_irrefl, hv, if_true, if_false]
          by_cases hb : b = a
          · simp [hb, readCells_below h.2.2 (Nat.lt_succ_self a)]
          · by_cases hlt : b < a
            · simp [hb, readCells, hlt, readCells_below h.2.2 (show b < a + 1 by omega)]
            · simp [hb, readCells, hlt]
        · simp only [Nat.lt_irrefl, hv, if_true, if_false]
          by_cases hb : b = a
          · simp [hb, readCells]
          · simp [hb, readCells]
      · simp only [h1, h2, if_false]
        by_cases hb : b = c
        · subst hb
          simp [readCells, show ¬ b = a by omega]
        · by_cases hlt : b < c
          · simp [readCells, hb, hlt, show ¬ b = a by omega]
          · have ih := readCells_writeCells a v b r (c + 1) h.2.2
            simp [readCells, hb, hlt, ih]

/-- A read at the address written. -/
theorem readCells_writeCells_same {m : List (Nat × Word)} (h : Memory.wf m = true) (a : Nat) (v : Word) :
    readCells (writeCells m a v) a = v := by
  simp [readCells_writeCells a v a m 0 h]

/-- A read at another address. -/
theorem readCells_writeCells_other {m : List (Nat × Word)} (h : Memory.wf m = true) {a b : Nat} (v : Word) (hb : b ≠ a) :
    readCells (writeCells m a v) b = readCells m b := by
  simp [readCells_writeCells a v b m 0 h, hb]

/-- A host store keeps the canonical form. -/
theorem Path.store_wf (p : Path) (a : Nat) (v : Word) (h : Memory.wf p.cells = true) : Memory.wf (p.store a v).cells = true := by
  unfold Path.store
  split <;> exact writeCells_wf _ _ _ h

/-- A verified own write keeps the canonical form. -/
theorem Path.kept_wf (p : Path) (a : Nat) (written held : Word) (h : Memory.wf p.cells = true) :
    Memory.wf (p.kept a written held).cells = true := writeCells_wf _ _ _ h

/-- A host write at an address writes that address alone; at a sound word it writes the data. -/
theorem Path.store_read (p : Path) (a b : Nat) (v : Word) (h : Memory.wf p.cells = true) (hf : p.faulty.contains a = false) :
    readCells (p.store a v).cells b = if b = a then v else readCells p.cells b := by
  simp only [Path.store, hf, Bool.false_eq_true, if_false]
  exact readCells_writeCells a v b p.cells 0 h

/-- A host write leaves every other address as it was, at a faulty word too. -/
theorem Path.store_other (p : Path) {a b : Nat} (v : Word) (h : Memory.wf p.cells = true) (hb : b ≠ a) :
    readCells (p.store a v).cells b = readCells p.cells b := by
  unfold Path.store
  split <;> exact readCells_writeCells_other h _ hb

end Sys2Proof.Machine
end

