-- ==== Sys2Proof/Laws/Quiet.lean ====
section
/-! SUPPORT. What the jobs' operations can do, said once: `Quiet s t` says that t differs from s only inside the jobs' blocks, the own-cycle
queue and the pending log queue, and keeps the interlock, the generator's drives and the log's bound. One lemma per operation. -/

namespace Sys2Proof.Machine

/-- The part of the state that no job operation writes. -/
def outside (s : State) : List Instr × Clock × Path × (Nat × Nat × Bool) × Commands × Startup × List Word × Silence × Scanner × Inputs ×
    Meters :=
  (s.pending, s.clk, { s.path with queue := [] }, (s.log.head, s.log.count, s.log.ready), s.cmd, s.st, s.settings, s.sil, s.scan, s.inp,
    s.pm)

/-- A change confined to the jobs' blocks, the own-cycle queue and the pending log queue, which keeps what Safety.lean names. -/
structure Quiet (s t : State) : Prop where
  out : outside t = outside s
  interlock : Interlock s.src.xfer → Interlock t.src.xfer
  gen : GenDrives s.gen → GenDrives t.gen
  log : s.log.queue.length ≤ 32 → t.log.queue.length ≤ 32
  shape : Machine.shape t = Machine.shape s

/-- An update of one place keeps the length. -/
@[simp] theorem updAt_length {α : Type} (i : Nat) (f : α → α) (l : List α) : (updAt i f l).length = l.length := by
  induction l generalizing i with
  | nil => cases i <;> simp [updAt]
  | cons a r ih => cases i <;> simp [updAt, ih]

/-- An entry of a list with one place updated is one of the list's or an updated one. -/
theorem mem_updAt {α : Type} {i : Nat} {f : α → α} {l : List α} {x : α} (h : x ∈ updAt i f l) : x ∈ l ∨ ∃ y ∈ l, x = f y := by
  induction l generalizing i with
  | nil => cases i <;> simp [updAt] at h
  | cons a r ih =>
    cases i with
    | zero =>
      rcases List.mem_cons.1 h with h | h
      · exact .inr ⟨a, List.mem_cons_self, h⟩
      · exact .inl (List.mem_cons_of_mem _ h)
    | succ i =>
      rcases List.mem_cons.1 h with h | h
      · exact .inl (h ▸ List.mem_cons_self)
      · rcases ih h with h | ⟨y, hy, h⟩
        · exact .inl (List.mem_cons_of_mem _ h)
        · exact .inr ⟨y, List.mem_cons_of_mem _ hy, h⟩

variable {s t u : State}

theorem Quiet.refl (s : State) : Quiet s s := ⟨rfl, id, id, id, rfl⟩

theorem Quiet.trans (h : Quiet s t) (k : Quiet t u) : Quiet s u :=
  ⟨k.out.trans h.out, k.interlock ∘ h.interlock, k.gen ∘ h.gen, k.log ∘ h.log, k.shape.trans h.shape⟩

/-- Nothing outside the jobs' blocks differs. -/
theorem Quiet.same (h : Quiet s t) (e : outside u = outside t) (x : Interlock t.src.xfer → Interlock u.src.xfer)
    (g : GenDrives t.gen → GenDrives u.gen) (l : t.log.queue.length ≤ 32 → u.log.queue.length ≤ 32)
    (sh : Machine.shape u = Machine.shape t) : Quiet s u :=
  h.trans ⟨e, x, g, l, sh⟩

theorem Quiet.ite {c : Prop} [Decidable c] (h : Quiet s t) (k : Quiet s u) : Quiet s (if c then t else u) := by
  split <;> assumption

/-- A conditional step of a pipeline. -/
theorem Quiet.foldl {α : Type} {f : State → α → State} (hf : ∀ a u, Quiet s u → Quiet s (f u a)) :
    ∀ (l : List α) {t : State}, Quiet s t → Quiet s (l.foldl f t)
  | [], _, h => h
  | a :: l, t, h => Quiet.foldl hf l (hf a t h)

theorem Quiet.str (h : Quiet s t) (x : Strings) (hr : x.recs.length = t.str.recs.length) (hi : x.iso.length = t.str.iso.length) :
    Quiet s { t with str := x } := h.same rfl id id id (by simp [Machine.shape, hr, hi])
theorem Quiet.bus (h : Quiet s t) (x : Bus) : Quiet s { t with bus := x } := h.same rfl id id id rfl
theorem Quiet.ros (h : Quiet s t) (x : Roster) (hm : x.mods.length = t.ros.mods.length) (hi : x.inh.length = t.ros.inh.length) :
    Quiet s { t with ros := x } := h.same rfl id id id (by simp [Machine.shape, hm, hi])
theorem Quiet.alm (h : Quiet s t) (x : Alarm) (hp : x.points.length = t.alm.points.length)
    (hc : x.copies.length = t.alm.copies.length) : Quiet s { t with alm := x } := h.same rfl id id id (by simp [Machine.shape, hp, hc])
theorem Quiet.conds (h : Quiet s t) (x : List Bool) (hx : x.length = t.conds.length) : Quiet s { t with conds := x } :=
  h.same rfl id id id (by simp [Machine.shape, hx])
theorem Quiet.src (h : Quiet s t) (x : Source) (hx : Interlock t.src.xfer → Interlock x.xfer) : Quiet s { t with src := x } :=
  h.same rfl hx id id rfl
theorem Quiet.setsGen (h : Quiet s t) (x : Gen) (hx : GenDrives t.gen → GenDrives x) : Quiet s { t with gen := x } :=
  h.same rfl id hx id rfl

/-- The drives of a record depend on its state and its three outputs alone. -/
theorem GenDrives.congr {g g' : Gen} (h : GenDrives g) (hs : g'.state = g.state) (hp : g'.pre = g.pre) (hr : g'.run = g.run)
    (hc : g'.crank = g.crank) : GenDrives g' := by
  unfold GenDrives at *
  rwa [hs, hp, hr, hc]

/-! ## Ops -/

/-- A logged event leaves everything but the pending queue and the gap flag, and the queue within its bound. -/
theorem logAt_quiet (h : Quiet s t) {time : Nat} {k : LogKind} {x a b : Word} : Quiet s (logAt time k x a b t) := by
  unfold logAt
  split
  · next hl => exact h.same rfl id id (fun _ => by simp; omega) rfl
  · exact h.same rfl id id id rfl

theorem logEv_quiet (h : Quiet s t) {k : LogKind} {x a b : Word} : Quiet s (logEv k x a b t) := logAt_quiet h

theorem enqueueOwn_quiet (h : Quiet s t) {r : OwnRequest} : Quiet s (enqueueOwn r t) := h.same rfl id id id rfl

theorem checkpoint_quiet (h : Quiet s t) {n : Nat} : Quiet s (checkpoint n t) := by
  unfold checkpoint
  repeat' split
  all_goals first | exact h | exact h.same rfl id id id rfl

/-! ## Named updates -/

theorem setStr_quiet (h : Quiet s t) {k : Nat} {f : StringRec → StringRec} : Quiet s (setStr k f t) :=
  h.str _ (updAt_length _ _ _) rfl
theorem setMod_quiet (h : Quiet s t) {m : Nat} {f : ModuleRec → ModuleRec} : Quiet s (setMod m f t) :=
  h.ros _ (updAt_length _ _ _) rfl
theorem setSwap_quiet (h : Quiet s t) {f : Swap → Swap} : Quiet s (setSwap f t) := h.ros _ rfl rfl
theorem setPoint_quiet (h : Quiet s t) {p : Nat} {f : PointRec → PointRec} : Quiet s (setPoint p f t) :=
  h.alm _ (updAt_length _ _ _) rfl
theorem setBus_quiet (h : Quiet s t) {f : Bus → Bus} : Quiet s (setBus f t) := h.bus _
theorem setEq_quiet (h : Quiet s t) {f : EqualizeRec → EqualizeRec} : Quiet s (setEq f t) := h.bus _
theorem setTest_quiet (h : Quiet s t) {f : TestRec → TestRec} : Quiet s (setTest f t) := h.bus _
theorem setMains_quiet (h : Quiet s t) {f : Mains → Mains} : Quiet s (setMains f t) := h.src _ id

/-- The transfer record replaced by one that keeps the interlock. -/
theorem setXfer_quiet (h : Quiet s t) {f : Xfer → Xfer} (hf : Interlock t.src.xfer → Interlock (f t.src.xfer)) :
    Quiet s (setXfer f t) := h.src _ hf

/-- The generator record replaced by one with the drives of its state. -/
theorem setGen_quiet (h : Quiet s t) {f : Gen → Gen} (hf : GenDrives t.gen → GenDrives (f t.gen)) : Quiet s (setGen f t) :=
  h.setsGen _ hf

/-! ## The generator's state and the transfer's -/

/-- A generator that enters a state drives the outputs of that state (R96). -/
theorem Gen.enter_drives (g : Gen) (st : GenState) (time : Nat) : GenDrives (g.enter st time) := Or.inl rfl

/-- A transfer that enters a state asserts XFR_GCLOSE only with XFR_MOPEN (R84). -/
theorem Xfer.enter_interlock (x : Xfer) (st : XferState) (time uptime : Nat) : Interlock (x.enter st time uptime) := by
  cases st <;> simp [Interlock, Xfer.enter, driveOf, XferState.mopens, XferState.gcloses]

/-- A transfer that enters FAULT has XFR_GCLOSE released (R84). -/
theorem Xfer.enterFault_interlock (x : Xfer) (c : XferCause) (fb : Bool × Bool) (time uptime : Nat) :
    Interlock (x.enterFault c fb time uptime) := by
  intro h
  exact absurd h (by simp [Xfer.enterFault, Xfer.enter, driveOf, XferState.gcloses])

theorem interlock_released {x : Xfer} (h : x.gclose = .released) : Interlock x := fun hc => by rw [h] at hc; cases hc


end Sys2Proof.Machine
end

