-- ==== Sys2Proof/Laws/QuietCore.lean ====
section
/-! SUPPORT. The operations of the claim table, the run requests and the points are `Quiet`: one lemma per operation. -/

namespace Sys2Proof.Machine

variable {s t : State}

/-! ## Claims -/

theorem retarget_quiet (h : Quiet s t) : Quiet s (retarget t) := by
  unfold retarget
  try dsimp only
  repeat' first
    | with_reducible assumption | with_reducible apply Quiet.bus

theorem postClaim_quiet (h : Quiet s t) {k : Slot} {level : Int} : Quiet s (postClaim k level t) := by
  unfold postClaim
  repeat' first
    | with_reducible assumption | with_reducible apply retarget_quiet | with_reducible apply Quiet.bus

theorem withdrawClaim_quiet (h : Quiet s t) {k : Slot} : Quiet s (withdrawClaim k t) := by
  unfold withdrawClaim
  repeat' first
    | with_reducible assumption | with_reducible apply retarget_quiet | with_reducible apply Quiet.ite | split
    | with_reducible apply Quiet.bus

theorem postIfNew_quiet (h : Quiet s t) {k : Slot} {level : Int} : Quiet s (postIfNew k level t) := by
  unfold postIfNew
  repeat' first
    | with_reducible assumption | with_reducible apply postClaim_quiet | with_reducible apply Quiet.ite | split

theorem wishClaim_quiet (h : Quiet s t) {k : Slot} {level : Option Int} : Quiet s (wishClaim k level t) := by
  unfold wishClaim
  repeat' first
    | with_reducible assumption | with_reducible apply withdrawClaim_quiet | with_reducible apply postIfNew_quiet | split

theorem setSetpoint_quiet (h : Quiet s t) {v : Int} : Quiet s (setSetpoint v t) := by
  unfold setSetpoint
  repeat' first
    | with_reducible assumption | with_reducible apply Quiet.bus

theorem closeEqualize_quiet (h : Quiet s t) {o : EqualizeOutcome} : Quiet s (closeEqualize o t) := by
  unfold closeEqualize
  repeat' first
    | with_reducible assumption | with_reducible apply Quiet.bus

theorem endEqualize_quiet (h : Quiet s t) {o : EqualizeOutcome} : Quiet s (endEqualize o t) := by
  unfold endEqualize
  try dsimp only
  repeat' first
    | with_reducible assumption | with_reducible apply logEv_quiet | with_reducible apply withdrawClaim_quiet
    | with_reducible apply closeEqualize_quiet

theorem cancelEqualize_quiet (h : Quiet s t) {o : EqualizeOutcome} : Quiet s (cancelEqualize o t) := by
  unfold cancelEqualize
  repeat' first
    | with_reducible assumption | with_reducible apply endEqualize_quiet | with_reducible apply Quiet.ite | split

theorem closeTest_quiet (h : Quiet s t) {o : TestOutcome} : Quiet s (closeTest o t) := by
  unfold closeTest
  repeat' first
    | with_reducible assumption | with_reducible apply Quiet.bus

theorem endTest_quiet (h : Quiet s t) {o : TestOutcome} : Quiet s (endTest o t) := by
  unfold endTest
  try dsimp only
  repeat' first
    | with_reducible assumption | with_reducible apply logEv_quiet | with_reducible apply withdrawClaim_quiet
    | with_reducible apply closeTest_quiet

theorem abortTest_quiet (h : Quiet s t) {o : TestOutcome} : Quiet s (abortTest o t) := by
  unfold abortTest
  repeat' first
    | with_reducible assumption | with_reducible apply endTest_quiet | with_reducible apply Quiet.ite | split

/-! ## GenCore -/

theorem genEnter_quiet (h : Quiet s t) {st : GenState} {subject : Word} : Quiet s (genEnter st subject t) := by
  unfold genEnter
  try dsimp only
  repeat' first
    | with_reducible assumption | with_reducible apply logEv_quiet | with_reducible apply withdrawClaim_quiet
    | with_reducible apply Quiet.ite | exact fun hg => hg.congr rfl rfl rfl rfl | exact fun _ => Gen.enter_drives _ _ _ | split
    | with_reducible refine Quiet.setsGen ?_ _ ?_

theorem addAttempt_quiet (h : Quiet s t) {o : AttemptOutcome} {peak : Nat} : Quiet s (addAttempt o peak t) := by
  unfold addAttempt
  repeat' first
    | with_reducible assumption | with_reducible apply logEv_quiet | exact fun hg => hg.congr rfl rfl rfl rfl
    | with_reducible refine Quiet.setsGen ?_ _ ?_

theorem seriesStart_quiet (h : Quiet s t) : Quiet s (seriesStart t) := by
  unfold seriesStart
  repeat' first
    | with_reducible assumption | with_reducible apply genEnter_quiet | with_reducible apply Quiet.ite
    | exact fun hg => hg.congr rfl rfl rfl rfl | split | with_reducible refine Quiet.setsGen ?_ _ ?_

theorem abandonSeries_quiet (h : Quiet s t) {toDisabled : Bool} : Quiet s (abandonSeries toDisabled t) := by
  unfold abandonSeries
  try dsimp only
  repeat' first
    | with_reducible assumption | with_reducible apply genEnter_quiet | with_reducible apply addAttempt_quiet
    | exact fun hg => hg.congr rfl rfl rfl rfl | split | with_reducible refine Quiet.setsGen ?_ _ ?_

theorem addRequest_quiet (h : Quiet s t) {k : RequestKind} {load : Bool} {endTime : Nat} : Quiet s (addRequest k load endTime t) := by
  unfold addRequest
  try dsimp only
  repeat' first
    | with_reducible assumption | with_reducible apply logEv_quiet | with_reducible apply genEnter_quiet
    | with_reducible apply seriesStart_quiet | with_reducible apply Quiet.ite | exact fun hg => hg.congr rfl rfl rfl rfl | split
    | with_reducible refine Quiet.setsGen ?_ _ ?_

theorem dropMainsFail_quiet (h : Quiet s t) : Quiet s (dropMainsFail t) := by
  unfold dropMainsFail
  repeat' first
    | with_reducible assumption | exact id | with_reducible refine Quiet.src ?_ _ ?_

theorem refuseRequest_quiet (h : Quiet s t) {k : RequestKind} {reason : Word} : Quiet s (refuseRequest k reason t) := by
  unfold refuseRequest
  try dsimp only
  repeat' first
    | with_reducible assumption | with_reducible apply logEv_quiet | with_reducible apply dropMainsFail_quiet
    | with_reducible apply Quiet.ite | split

theorem postRequest_quiet (h : Quiet s t) {k : RequestKind} {load : Bool} {endTime : Nat} : Quiet s (postRequest k load endTime t) := by
  unfold postRequest
  repeat' first
    | with_reducible assumption | with_reducible apply addRequest_quiet | with_reducible apply refuseRequest_quiet
    | with_reducible apply Quiet.ite | split

theorem removeRequest_quiet (h : Quiet s t) {k : RequestKind} {reason : Word} : Quiet s (removeRequest k reason t) := by
  unfold removeRequest
  try dsimp only
  repeat' first
    | with_reducible assumption | with_reducible apply logEv_quiet | with_reducible apply abandonSeries_quiet
    | with_reducible apply dropMainsFail_quiet | with_reducible apply Quiet.ite | exact fun hg => hg.congr rfl rfl rfl rfl | split
    | with_reducible refine Quiet.setsGen ?_ _ ?_

theorem fuelCriticalNotice_quiet (h : Quiet s t) : Quiet s (fuelCriticalNotice t) := by
  unfold fuelCriticalNotice
  repeat' first
    | with_reducible assumption | with_reducible apply removeRequest_quiet

theorem genClaimCheck_quiet (h : Quiet s t) : Quiet s (genClaimCheck t) := by
  unfold genClaimCheck
  try dsimp only
  repeat' first
    | with_reducible assumption | with_reducible apply wishClaim_quiet | with_reducible apply Quiet.ite | split

theorem noticeOnGen_quiet (h : Quiet s t) : Quiet s (noticeOnGen t) := by
  unfold noticeOnGen
  try dsimp only
  repeat' first
    | with_reducible assumption | with_reducible apply genEnter_quiet | with_reducible apply genClaimCheck_quiet
    | with_reducible apply Quiet.ite | exact fun hg => hg.congr rfl rfl rfl rfl | split | with_reducible refine Quiet.setsGen ?_ _ ?_

theorem noticeLeftForOpening_quiet (h : Quiet s t) : Quiet s (noticeLeftForOpening t) := by
  unfold noticeLeftForOpening
  repeat' first
    | with_reducible assumption | with_reducible apply withdrawClaim_quiet | with_reducible apply genEnter_quiet
    | with_reducible apply Quiet.ite | split

theorem noticeLeftForFault_quiet (h : Quiet s t) : Quiet s (noticeLeftForFault t) := by
  unfold noticeLeftForFault
  repeat' first
    | with_reducible assumption | with_reducible apply withdrawClaim_quiet | with_reducible apply genEnter_quiet
    | with_reducible apply Quiet.ite | split

/-! ## Flags -/

theorem refreshOutputs_quiet (h : Quiet s t) : Quiet s (refreshOutputs t) := by
  unfold refreshOutputs
  repeat' first
    | with_reducible assumption | with_reducible apply Quiet.ite | split | (with_reducible refine Quiet.alm ?_ _ (by simp) (by simp))

theorem movePoint_quiet (h : Quiet s t) {p : Nat} {st : PointState} {timer : Option Nat} : Quiet s (movePoint p st timer t) := by
  unfold movePoint
  try dsimp only
  repeat' first
    | with_reducible assumption | with_reducible apply setPoint_quiet | with_reducible apply refreshOutputs_quiet

theorem logPoint_quiet (h : Quiet s t) {p : Nat} {old new : PointState} : Quiet s (logPoint p old new t) := by
  unfold logPoint
  repeat' first
    | with_reducible assumption | with_reducible apply logEv_quiet

theorem cancelRaise_quiet (h : Quiet s t) {p : Nat} : Quiet s (cancelRaise p t) := by
  unfold cancelRaise
  repeat' first
    | with_reducible assumption | with_reducible apply movePoint_quiet | with_reducible apply logPoint_quiet
    | with_reducible apply Quiet.ite | split

theorem cancelChildren_quiet (h : Quiet s t) {p : Nat} : Quiet s (cancelChildren p t) := by
  unfold cancelChildren
  try dsimp only
  repeat' first
    | with_reducible assumption | with_reducible apply cancelRaise_quiet | (with_reducible apply Quiet.foldl; intro _ _ _)

theorem reportActive_quiet (h : Quiet s t) {p : Nat} : Quiet s (reportActive p t) := by
  unfold reportActive
  try dsimp only
  repeat' first
    | with_reducible assumption | with_reducible apply cancelEqualize_quiet | with_reducible apply abortTest_quiet
    | with_reducible apply fuelCriticalNotice_quiet | with_reducible apply Quiet.ite | split

theorem fireRaise_quiet (h : Quiet s t) {p : Nat} {old : PointState} : Quiet s (fireRaise p old t) := by
  unfold fireRaise
  try dsimp only
  repeat' first
    | with_reducible assumption | with_reducible apply setPoint_quiet | with_reducible apply movePoint_quiet
    | with_reducible apply logPoint_quiet | with_reducible apply cancelChildren_quiet | with_reducible apply reportActive_quiet

theorem becomeTrue_quiet (h : Quiet s t) {p : Nat} : Quiet s (becomeTrue p t) := by
  unfold becomeTrue
  try dsimp only
  repeat' first
    | with_reducible assumption | with_reducible apply movePoint_quiet | with_reducible apply logPoint_quiet
    | with_reducible apply fireRaise_quiet | with_reducible apply Quiet.ite | split

theorem judgeChildren_quiet (h : Quiet s t) {p : Nat} : Quiet s (judgeChildren p t) := by
  unfold judgeChildren
  try dsimp only
  repeat' first
    | with_reducible assumption | with_reducible apply becomeTrue_quiet | with_reducible apply Quiet.ite
    | (with_reducible apply Quiet.foldl; intro _ _ _) | split

theorem fireClear_quiet (h : Quiet s t) {p : Nat} {old : PointState} {acked : Bool} : Quiet s (fireClear p old acked t) := by
  unfold fireClear
  try dsimp only
  repeat' first
    | with_reducible assumption | with_reducible apply movePoint_quiet | with_reducible apply logPoint_quiet
    | with_reducible apply judgeChildren_quiet | with_reducible apply Quiet.ite | split

theorem becomeFalse_quiet (h : Quiet s t) {p : Nat} : Quiet s (becomeFalse p t) := by
  unfold becomeFalse
  try dsimp only
  repeat' first
    | with_reducible assumption | with_reducible apply setPoint_quiet | with_reducible apply movePoint_quiet
    | with_reducible apply cancelRaise_quiet | with_reducible apply fireClear_quiet | with_reducible apply Quiet.ite | split

theorem setCopy_quiet (h : Quiet s t) {p : Nat} {b : Bool} : Quiet s (setCopy p b t) := by
  unfold setCopy
  try dsimp only
  repeat' first
    | with_reducible assumption | with_reducible apply becomeTrue_quiet | with_reducible apply becomeFalse_quiet
    | with_reducible apply Quiet.ite | split | (with_reducible refine Quiet.alm ?_ _ (by simp) (by simp))

theorem setCond_quiet (h : Quiet s t) {p : Nat} {b : Bool} : Quiet s (setCond p b t) := by
  unfold setCond
  repeat' first
    | with_reducible assumption | with_reducible apply setCopy_quiet | (with_reducible refine Quiet.conds ?_ _ (by simp))

theorem judgeCond_quiet (h : Quiet s t) {p : Nat} {b : Bool} : Quiet s (judgeCond p b t) := by
  unfold judgeCond
  repeat' first
    | with_reducible assumption | with_reducible apply setCond_quiet | with_reducible apply Quiet.ite

theorem presentConds_quiet (h : Quiet s t) {ids : List Nat} : Quiet s (presentConds ids t) :=
  Quiet.foldl (f := fun u p => setCopy p (condOf u p) u) (fun _ _ hu => setCopy_quiet hu) ids h

theorem alarmEvaluation_quiet (h : Quiet s t) : Quiet s (alarmEvaluation t) := by
  unfold alarmEvaluation
  try dsimp only
  repeat' first
    | with_reducible assumption | with_reducible apply setCopy_quiet | (with_reducible apply Quiet.foldl; intro _ _ _)

theorem ackPoint_quiet (h : Quiet s t) {p : Nat} : Quiet s (ackPoint p t) := by
  unfold ackPoint
  repeat' first
    | with_reducible assumption | with_reducible apply movePoint_quiet | with_reducible apply logPoint_quiet | split

theorem reportAck_quiet (h : Quiet s t) : Quiet s (reportAck t) := by
  unfold reportAck
  repeat' first
    | with_reducible assumption | with_reducible apply Quiet.ite | exact fun hg => hg.congr rfl rfl rfl rfl | split
    | with_reducible refine Quiet.setsGen ?_ _ ?_

theorem classChanged_quiet (h : Quiet s t) {p : Nat} {old : Nat} : Quiet s (classChanged p old t) := by
  unfold classChanged
  try dsimp only
  repeat' first
    | with_reducible assumption | with_reducible apply abortTest_quiet | with_reducible apply refreshOutputs_quiet
    | with_reducible apply movePoint_quiet | with_reducible apply logPoint_quiet | with_reducible apply becomeTrue_quiet
    | with_reducible apply judgeChildren_quiet | with_reducible apply Quiet.ite | split

theorem latchingStored_quiet (h : Quiet s t) {p : Nat} : Quiet s (latchingStored p t) := by
  unfold latchingStored
  repeat' first
    | with_reducible assumption | with_reducible apply movePoint_quiet | with_reducible apply logPoint_quiet
    | with_reducible apply Quiet.ite | split

theorem alarmStart_quiet (h : Quiet s t) : Quiet s (alarmStart t) := by
  unfold alarmStart
  try dsimp only
  repeat' first
    | with_reducible assumption | with_reducible apply refreshOutputs_quiet | with_reducible apply becomeTrue_quiet
    | with_reducible apply Quiet.ite | (with_reducible apply Quiet.foldl; intro _ _ _) | split

end Sys2Proof.Machine
end

