-- ==== Sys2Proof/Laws/Posts.lean ====
section
/-! SUPPORT. What a post does where the block listens, and what the answer of a command changes. -/

namespace Sys2Proof.Machine

variable {s t : State} {slot : Fin 16} {tag : BitVec 8} {r : Reply}

/-! ## Updates of one place -/

theorem updAt_getD {α : Type} (f : α → α) (d : α) : ∀ (l : List α) (i : Nat), i < l.length → (updAt i f l).getD i d = f (l.getD i d)
  | [], _, h => absurd h (Nat.not_lt_zero _)
  | _ :: _, 0, _ => rfl
  | _ :: l, i + 1, h => updAt_getD f d l i (Nat.lt_of_succ_lt_succ h)

theorem updAt_getD_ne {α : Type} (f : α → α) (d : α) : ∀ (l : List α) (i j : Nat), i ≠ j → (updAt i f l).getD j d = l.getD j d
  | [], i, _, _ => by cases i <;> rfl
  | _ :: _, 0, 0, h => absurd rfl h
  | _ :: _, 0, _ + 1, _ => rfl
  | _ :: _, _ + 1, 0, _ => rfl
  | _ :: l, i + 1, j + 1, h => updAt_getD_ne f d l i j fun e => h (congrArg (· + 1) e)

/-! ## The word written -/

theorem toNat_bytesWord {op : Nat} (h : op < 256) : (bytesWord op tag.toNat).toNat = op * 256 + tag.toNat := by
  have := tag.isLt
  simp [bytesWord]
  omega

theorem opcode_bytesWord {op : Nat} (h : op < 256) : (bytesWord op tag.toNat).toNat / 256 = op := by
  have := tag.isLt
  rw [toNat_bytesWord h]
  omega

theorem tag_bytesWord {op : Nat} (h : op < 256) : (bytesWord op tag.toNat).toNat % 256 = tag.toNat := by
  have := tag.isLt
  rw [toNat_bytesWord h]
  omega

theorem prArea_slot : prArea (0x100 + 8 * slot.val) = .command slot.val 0 := by
  have h := slot.isLt
  simp only [prArea, Nat.not_lt.mpr (Nat.le_add_right 0x100 (8 * slot.val)), show 0x100 + 8 * slot.val < 0x180 by omega, if_true,
    if_false, PrArea.command.injEq]
  omega

/-! ## The heartbeat -/

/-- The silence record after a heartbeat (R189). -/
def heard (x : Silence) : Silence := ⟨if x.state = .grace then .supervised else x.state, 0⟩

/-- A heartbeat sets the silence record and withdraws HOST_SILENT, and does nothing outside the jobs' blocks. -/
theorem heartbeat_quiet : Quiet { s with sil := heard s.sil } (heartbeat s) := by
  unfold heartbeat heard
  dsimp only
  split
  · exact setCond_quiet (logEv_quiet (Quiet.refl _))
  · exact Quiet.refl _

theorem heartbeat_sil : (heartbeat s).sil = heard s.sil := congrArg (·.2.2.2.2.2.2.2.1) (heartbeat_quiet (s := s)).out
theorem heartbeat_st : (heartbeat s).st = s.st := congrArg (·.2.2.2.2.2.1) (heartbeat_quiet (s := s)).out
theorem heartbeat_cmd : (heartbeat s).cmd = s.cmd := congrArg (·.2.2.2.2.1) (heartbeat_quiet (s := s)).out
theorem heartbeat_settings : (heartbeat s).settings = s.settings := congrArg (·.2.2.2.2.2.2.1) (heartbeat_quiet (s := s)).out
theorem heartbeat_clk : (heartbeat s).clk = s.clk := congrArg (·.2.1) (heartbeat_quiet (s := s)).out
theorem heartbeat_cells : (heartbeat s).path.cells = s.path.cells := congrArg (·.2.2.1.cells) (heartbeat_quiet (s := s)).out

/-! ## Captured words -/

/-- A word captured in a whole slot reads as written (R170). -/
theorem argWord_captureWord {i : Nat} {v : Word} (hs : slot.val < s.cmd.slots.length) (hw : SlotsWhole s) (hi : i < 7) :
    argWord (captureWord slot.val i v s) slot.val i = v := by
  have hl : (s.cmd.slots.getD slot.val .cleared).words.length = 7 := by
    simpa [List.getD, List.getElem?_eq_getElem hs] using hw _ (List.getElem_mem hs)
  simp only [argWord, captureWord, updAt_getD _ _ _ _ hs]
  rw [List.getD, List.getElem?_set_self (hl ▸ hi)]
  rfl

/-! ## Posts and answers -/

theorem atPost_st {op : Nat} : (atPost slot op tag s).st = s.st := heartbeat_st
theorem atPost_sil {op : Nat} : (atPost slot op tag s).sil = heard s.sil := heartbeat_sil
theorem atPost_settings {op : Nat} : (atPost slot op tag s).settings = s.settings := heartbeat_settings
theorem atPost_clk {op : Nat} : (atPost slot op tag s).clk = s.clk := heartbeat_clk

/-- A post where the block listens is the heartbeat, the store and the capture, and then the command. -/
theorem post_listens {op : Nat} (h : Listens s) (ho : op < 256) :
    post slot op tag s = takeCommand slot.val op tag.toNat (atPost slot op tag s) := by
  obtain ⟨hs, hw⟩ := h
  have hl : holds s = false := by
    simp only [holds, hw, Bool.or_false]
    cases e : s.st.state <;> simp_all [starting, inRun, inCommissioning]
  have hs' : starting (heartbeat s) = false := by rw [← hs]; simp only [starting, inRun, inCommissioning, heartbeat_st]
  simp only [post, arrive, hl, perform, prWrite, hs', prArea_slot, slotWrite, opcode_bytesWord ho, tag_bytesWord ho, atPost, prBase,
    Bool.false_eq_true, if_false, if_true, show ¬ (0 : Nat) = 7 by decide]

/-- A guarded write that is stored at once is the heartbeat, the store and the copy, and then its owner's taking of it. -/
theorem guardedWrite_stores {o : BitVec 13} {v : Word} (h : Listens s) (hl : 0x200 ≤ o.toNat) (hu : o.toNat < 0x400)
    (hg : guardFails o.toNat v s = none) :
    exec (.guardedWrite o v) s = .next (settingTaken o.toNat (wordIn s.settings o.toNat) (stored o v s)) := by
  obtain ⟨hs, hw⟩ := h
  have hh : holds s = false := by
    simp only [holds, hw, Bool.or_false]
    cases e : s.st.state <;> simp_all [starting, inRun, inCommissioning]
  have hs' : starting (heartbeat s) = false := by rw [← hs]; simp only [starting, inRun, inCommissioning, heartbeat_st]
  have ha : prArea o.toNat = .guarded := by
    simp only [prArea, show ¬ o.toNat < 0x100 by omega, show ¬ o.toNat < 0x180 by omega, hu, if_true, if_false]
  have hg' : guardFails o.toNat v (heartbeat s) = none := by
    rw [← hg]
    simp only [guardFails, inRun, heartbeat_st, heartbeat_settings, Nat.not_lt.mpr hl, false_and, if_false]
  show (Host.Outcome.next (arrive (.pr o.toNat v) s) : Answer) = _
  simp only [arrive, hh, perform, prWrite, hs', ha, guardedStore, hg', heartbeat_settings, stored, prBase, Bool.false_eq_true, if_false]

/-- What the checks of R171 say of the state before the post they say where the command is judged. -/
theorem dispatchRefusal_atPost {op k : Nat} : dispatchRefusal k (atPost slot op tag s) = dispatchRefusal k s := by
  unfold dispatchRefusal
  simp only [inCommissioning, atPost_st, atPost_sil, heard]
  cases s.sil.state <;> rfl

/-- A known command that the checks pass runs its rule and takes its reply. -/
theorem takeCommand_runs {op n : Nat} (h : dispatchRefusal op s = none) (hr : op ≠ Op.softReset) :
    takeCommand slot.val op n s = answer slot.val op n (runRule slot.val op s).2 (runRule slot.val op s).1 := by
  simp only [takeCommand, h, hr, if_false]

theorem replyOf_answer {op n : Nat} (h : slot.val < t.cmd.slots.length) : replyOf (answer slot.val op n r t) slot = r := by
  have e : (answer slot.val op n r t).cmd.slots = updAt slot.val (fun c => { c with code := r.1, detail := r.2 }) t.cmd.slots :=
    congrArg (·.2.2.2.2.1.slots) (logEv_quiet (Quiet.refl _)).out
  simp only [replyOf, e, updAt_getD _ _ _ _ h]

/-- An answer changes the slot's result and the log alone. -/
theorem answer_rest {op n : Nat} : { answer slot.val op n r t with cmd := t.cmd, log := t.log } = t := by
  unfold answer logEv logAt
  dsimp only
  split <;> rfl

end Sys2Proof.Machine
end

