-- ==== Sys2Proof/Laws/Held.lean ====
section
/-! SUPPORT. Host accesses that proceed in start-up change the memory, the refusal record, the event queue and the silence record alone. -/

namespace Sys2Proof.Machine

/-- What a host access that proceeds in start-up leaves as it is. -/
def startUpFields (s : State) :=
  (s.clk, s.st, s.settings, s.scan, s.inp, s.pm, s.str, s.ros, s.src, s.gen, s.bus, s.cmd, s.log.head, s.log.count, s.log.ready,
    s.path.msz, s.path.queue, s.path.busy, s.path.remap)

variable {s t : State}

/-- With nothing held a release changes nothing. -/
theorem releaseHeld_nil (h : s.path.held = []) : releaseHeld s = s := by
  obtain ⟨_, _, ⟨_, _, _, _, _, _, _, _, held, _⟩, _, _, _, _, _, _, _, _, _, _, _, _, _, _, _⟩ := s
  cases h
  rfl

theorem starting_of_fields (e : startUpFields t = startUpFields s) : starting t = starting s := by
  have : t.st = s.st := congrArg (·.2.1) e
  unfold starting inRun inCommissioning
  rw [this]

theorem logEv_startUpFields {k : LogKind} {x a b : Word} : startUpFields (logEv k x a b s) = startUpFields s := by
  unfold logEv logAt
  split <;> rfl

theorem refuseWrite_startUpFields {r a : Nat} {v : Word} : startUpFields (refuseWrite r a v s) = startUpFields s := logEv_startUpFields

theorem hostStore_startUpFields {a : Nat} {v : Word} : startUpFields (hostStore a v s) = startUpFields s := by
  unfold hostStore Path.store
  split <;> rfl

theorem setCond_startUpFields {p : Nat} {b : Bool} (h : starting s = true) : startUpFields (setCond p b s) = startUpFields s := by
  have hr : inRun s = false := by
    unfold starting at h
    simp_all
  unfold setCond setCopy
  dsimp only
  split
  · rfl
  · rw [if_neg (by simpa [inRun] using hr)]
    rfl

theorem heartbeat_startUpFields (h : starting s = true) : startUpFields (heartbeat s) = startUpFields s := by
  unfold heartbeat
  dsimp only
  split
  · unfold silenceTo
    have h1 := logEv_startUpFields (s := { s with sil := ⟨.supervised, 0⟩ }) (k := .silenceState) (x := 0)
      (a := wordOf s.sil.state.code) (b := wordOf SilenceState.supervised.code)
    exact (setCond_startUpFields ((starting_of_fields h1).trans h)).trans h1
  · rfl

theorem prWrite_startUpFields (h : starting s = true) {o : Nat} {v : Word} : startUpFields (prWrite o v s) = startUpFields s := by
  have hb := heartbeat_startUpFields h
  unfold prWrite
  dsimp only
  rw [if_pos ((starting_of_fields hb).trans h)]
  exact refuseWrite_startUpFields.trans hb

theorem anchorWrite_startUpFields {w : Nat} {v : Word} : startUpFields (anchorWrite w v s) = startUpFields s := by
  unfold anchorWrite
  dsimp only
  split
  · exact refuseWrite_startUpFields
  · exact hostStore_startUpFields

theorem arrive_startUpFields (h : starting s = true) {x : HostAccess} : startUpFields (arrive x s) = startUpFields s := by
  unfold arrive
  split
  · rfl
  · unfold perform addrWrite
    split
    · split
      · exact prWrite_startUpFields h
      · exact anchorWrite_startUpFields
      · exact refuseWrite_startUpFields
      · exact refuseWrite_startUpFields
      · exact hostStore_startUpFields
      · exact hostStore_startUpFields
    · exact prWrite_startUpFields h
    · exact anchorWrite_startUpFields

/-- The release of held accesses in start-up. -/
theorem releaseHeld_startUpFields (h : starting s = true) : startUpFields (releaseHeld s) = startUpFields s := by
  have step : ∀ (l : List HostAccess) (t : State), starting t = true →
      startUpFields (l.foldl (fun t x => arrive x t) t) = startUpFields t := by
    intro l
    induction l with
    | nil => intro t _; rfl
    | cons x l ih =>
      intro t ht
      have hx := arrive_startUpFields ht (x := x)
      exact (ih _ ((starting_of_fields hx).trans ht)).trans hx
  exact step _ _ h

end Sys2Proof.Machine
end

