-- ==== Sys2Proof/Laws/QuietRoster.lean ====
section
/-! SUPPORT. The operations of the Rectifier Roster and the Source Controller are `Quiet`: one lemma per operation. -/

namespace Sys2Proof.Machine

variable {s t : State}

/-! ## Roster -/

theorem modEnter_quiet (h : Quiet s t) {m : Nat} {st : ModState} : Quiet s (modEnter m st t) := by
  unfold modEnter
  try dsimp only
  repeat' first
    | with_reducible assumption | with_reducible apply logEv_quiet | with_reducible apply checkpoint_quiet
    | with_reducible apply setMod_quiet | with_reducible apply Quiet.ite | split
    | (with_reducible refine Quiet.ros ?_ _ (by simp) (by simp))

theorem stopModule_quiet (h : Quiet s t) {m : Nat} {toService : Bool} : Quiet s (stopModule m toService t) := by
  unfold stopModule
  try dsimp only
  repeat' first
    | with_reducible assumption | with_reducible apply setMod_quiet | with_reducible apply modEnter_quiet

theorem startModule_quiet (h : Quiet s t) {m : Nat} : Quiet s (startModule m t) := by
  unfold startModule
  try dsimp only
  repeat' first
    | with_reducible assumption | with_reducible apply setMod_quiet | with_reducible apply modEnter_quiet

theorem refreshModuleConds_quiet (h : Quiet s t) : Quiet s (refreshModuleConds t) := by
  unfold refreshModuleConds
  repeat' first
    | with_reducible assumption | with_reducible apply judgeCond_quiet

theorem abandonSwap_quiet (h : Quiet s t) {o : SwapOutcome} : Quiet s (abandonSwap o t) := by
  unfold abandonSwap
  try dsimp only
  repeat' first
    | with_reducible assumption | with_reducible apply logEv_quiet | with_reducible apply setSwap_quiet

theorem completeSwap_quiet (h : Quiet s t) : Quiet s (completeSwap t) := by
  unfold completeSwap
  try dsimp only
  repeat' first
    | with_reducible assumption | with_reducible apply logEv_quiet | with_reducible apply setSwap_quiet
    | with_reducible apply stopModule_quiet | with_reducible apply Quiet.ite | split

theorem startSwap_quiet (h : Quiet s t) {inn out : Nat} : Quiet s (startSwap inn out t) := by
  unfold startSwap
  try dsimp only
  repeat' first
    | with_reducible assumption | with_reducible apply setSwap_quiet | with_reducible apply startModule_quiet

theorem strike_quiet (h : Quiet s t) {m cause : Nat} : Quiet s (strike m cause t) := by
  unfold strike
  try dsimp only
  repeat' first
    | with_reducible assumption | with_reducible apply logEv_quiet | with_reducible apply setMod_quiet
    | with_reducible apply modEnter_quiet | with_reducible apply abandonSwap_quiet | with_reducible apply Quiet.ite | split

theorem confirmStart_quiet (h : Quiet s t) {m : Nat} : Quiet s (confirmStart m t) := by
  unfold confirmStart
  try dsimp only
  repeat' first
    | with_reducible assumption | with_reducible apply setMod_quiet | with_reducible apply modEnter_quiet
    | with_reducible apply completeSwap_quiet | with_reducible apply Quiet.ite | split

theorem judgeStart_quiet (h : Quiet s t) {m : Nat} : Quiet s (judgeStart m t) := by
  unfold judgeStart
  repeat' first
    | with_reducible assumption | with_reducible apply strike_quiet | with_reducible apply confirmStart_quiet
    | with_reducible apply Quiet.ite | split

theorem judgeStop_quiet (h : Quiet s t) {m : Nat} : Quiet s (judgeStop m t) := by
  unfold judgeStop
  try dsimp only
  repeat' first
    | with_reducible assumption | with_reducible apply logEv_quiet | with_reducible apply modEnter_quiet | with_reducible apply Quiet.ite
    | split

theorem endHold_quiet (h : Quiet s t) {m : Nat} : Quiet s (endHold m t) := by
  unfold endHold
  repeat' first
    | with_reducible assumption | with_reducible apply modEnter_quiet | with_reducible apply Quiet.ite | split

theorem watchModule_quiet (h : Quiet s t) {m : Nat} : Quiet s (watchModule m t) := by
  unfold watchModule
  try dsimp only
  repeat' first
    | with_reducible assumption | with_reducible apply setMod_quiet | with_reducible apply strike_quiet | with_reducible apply Quiet.ite
    | split

theorem addRunSeconds_quiet (h : Quiet s t) : Quiet s (addRunSeconds t) := by
  unfold addRunSeconds
  repeat' first
    | with_reducible assumption | (with_reducible refine Quiet.ros ?_ _ (by simp) (by simp))

theorem abandonStart_quiet (h : Quiet s t) : Quiet s (abandonStart t) := by
  unfold abandonStart
  repeat' first
    | with_reducible assumption | with_reducible apply modEnter_quiet | split

theorem stopExcess_quiet : ∀ {n : Nat} {t : State}, Quiet s t → Quiet s (stopExcess n t)
  | 0, _, h => h
  | n + 1, t, h => by
    unfold stopExcess
    split
    · exact h
    · split
      · exact stopExcess_quiet (stopModule_quiet h)
      · exact h

theorem immediateShed_quiet (h : Quiet s t) : Quiet s (immediateShed t) := by
  unfold immediateShed
  try dsimp only
  repeat' first
    | with_reducible assumption | with_reducible apply abandonStart_quiet | with_reducible apply stopExcess_quiet
    | with_reducible apply Quiet.ite | split | (with_reducible refine Quiet.ros ?_ _ (by simp) (by simp))

theorem takeCapacity_quiet (h : Quiet s t) {c : Cap} : Quiet s (takeCapacity c t) := by
  unfold takeCapacity
  try dsimp only
  repeat' first
    | with_reducible assumption | with_reducible apply abandonSwap_quiet | with_reducible apply abandonStart_quiet
    | with_reducible apply immediateShed_quiet | with_reducible apply Quiet.ite | split
    | (with_reducible refine Quiet.ros ?_ _ (by simp) (by simp))

theorem addRule_quiet (h : Quiet s t) : Quiet s (addRule t) := by
  unfold addRule
  repeat' first
    | with_reducible assumption | with_reducible apply startModule_quiet | with_reducible apply Quiet.ite | split

theorem shedRule_quiet (h : Quiet s t) : Quiet s (shedRule t) := by
  unfold shedRule
  repeat' first
    | with_reducible assumption | with_reducible apply stopModule_quiet | with_reducible apply Quiet.ite | split
    | (with_reducible refine Quiet.ros ?_ _ (by simp) (by simp))

theorem rotationCheck_quiet (h : Quiet s t) : Quiet s (rotationCheck t) := by
  unfold rotationCheck
  repeat' first
    | with_reducible assumption | with_reducible apply startSwap_quiet | with_reducible apply Quiet.ite | split

theorem decideShortfall_quiet (h : Quiet s t) : Quiet s (decideShortfall t) := by
  unfold decideShortfall
  repeat' first
    | with_reducible assumption | (with_reducible refine Quiet.ros ?_ _ (by simp) (by simp))

theorem noteLoadSeen_quiet (h : Quiet s t) : Quiet s (noteLoadSeen t) := Quiet.ros h _ rfl rfl

theorem takeLoad_quiet (h : Quiet s t) : Quiet s (takeLoad t) := Quiet.ros h _ rfl rfl

theorem pruneStrikes_quiet (h : Quiet s t) : Quiet s (pruneStrikes t) := by
  unfold pruneStrikes
  try dsimp only
  repeat' first
    | with_reducible assumption | (with_reducible refine Quiet.ros ?_ _ (by simp) (by simp))

theorem eachModule_quiet (h : Quiet s t) {f : Nat → State → State} {ms : List Nat} (hf : ∀ m u, Quiet s u → Quiet s (f m u)) :
    Quiet s (eachModule f ms t) := Quiet.foldl (f := fun u m => f m u) hf ms h

theorem rosterJudge_quiet (h : Quiet s t) {ms : List Nat} : Quiet s (rosterJudge ms t) := by
  unfold rosterJudge
  try dsimp only
  repeat' first
    | with_reducible assumption | with_reducible apply judgeStart_quiet | with_reducible apply judgeStop_quiet
    | with_reducible apply endHold_quiet | with_reducible apply pruneStrikes_quiet | with_reducible apply eachModule_quiet | intro _ _ _

theorem rosterSteps_quiet (h : Quiet s t) {ms : List Nat} : Quiet s (rosterSteps ms t) := by
  unfold rosterSteps
  repeat' first
    | with_reducible assumption | with_reducible apply watchModule_quiet | with_reducible apply addRunSeconds_quiet
    | with_reducible apply addRule_quiet | with_reducible apply shedRule_quiet | with_reducible apply rotationCheck_quiet
    | with_reducible apply decideShortfall_quiet | with_reducible apply takeLoad_quiet | with_reducible apply eachModule_quiet
    | with_reducible apply rosterJudge_quiet | intro _ _ _

theorem refreshRosterConds_quiet (h : Quiet s t) : Quiet s (refreshRosterConds t) := by
  unfold refreshRosterConds
  repeat' first
    | with_reducible assumption | with_reducible apply setCond_quiet | with_reducible apply refreshModuleConds_quiet

theorem rosterKept_quiet (h : Quiet s t) : Quiet s (rosterKept t) := by
  unfold rosterKept
  repeat' first
    | with_reducible assumption | with_reducible apply refreshModuleConds_quiet | with_reducible apply endHold_quiet
    | with_reducible apply addRunSeconds_quiet | with_reducible apply eachModule_quiet | intro _ _ _

theorem rosterEvaluation_quiet (h : Quiet s t) : Quiet s (rosterEvaluation t) := by
  unfold rosterEvaluation
  repeat' first
    | with_reducible assumption | with_reducible apply rosterSteps_quiet | with_reducible apply refreshRosterConds_quiet
    | with_reducible apply rosterKept_quiet | with_reducible apply Quiet.ite | split

theorem firstModuleState_quiet (h : Quiet s t) {m : Nat} : Quiet s (firstModuleState m t) := by
  unfold firstModuleState
  repeat' first
    | with_reducible assumption | with_reducible apply modEnter_quiet | with_reducible apply Quiet.ite | split

theorem moduleService_quiet (h : Quiet s t) {m : Nat} : Quiet s (moduleService m t).1 := by
  unfold moduleService
  try dsimp only
  repeat' first
    | with_reducible assumption | with_reducible apply setMod_quiet | with_reducible apply modEnter_quiet
    | with_reducible apply stopModule_quiet | with_reducible apply refreshModuleConds_quiet | with_reducible apply abandonSwap_quiet
    | with_reducible apply Quiet.ite | split

theorem moduleReturn_quiet (h : Quiet s t) {m : Nat} : Quiet s (moduleReturn m t).1 := by
  unfold moduleReturn
  try dsimp only
  repeat' first
    | with_reducible assumption | with_reducible apply setMod_quiet | with_reducible apply modEnter_quiet
    | with_reducible apply refreshModuleConds_quiet | split

theorem rotateNow_quiet (h : Quiet s t) : Quiet s (rotateNow t).1 := by
  unfold rotateNow
  repeat' first
    | with_reducible assumption | with_reducible apply startSwap_quiet | with_reducible apply Quiet.ite | split

/-! ## Source -/

theorem handCapacity_quiet (h : Quiet s t) : Quiet s (handCapacity t) := by
  unfold handCapacity
  repeat' first
    | with_reducible assumption | with_reducible apply takeCapacity_quiet | with_reducible apply Quiet.ite | split

theorem transferNotices_quiet (h : Quiet s t) {old new : XferState} : Quiet s (transferNotices old new t) := by
  unfold transferNotices
  try dsimp only
  repeat' first
    | with_reducible assumption | with_reducible apply cancelEqualize_quiet | with_reducible apply abortTest_quiet
    | with_reducible apply noticeOnGen_quiet | with_reducible apply noticeLeftForOpening_quiet
    | with_reducible apply noticeLeftForFault_quiet | with_reducible apply handCapacity_quiet | with_reducible apply Quiet.ite | split

theorem enterXfer_quiet (h : Quiet s t) {st : XferState} : Quiet s (enterXfer st t) := by
  unfold enterXfer
  try dsimp only
  repeat' first
    | with_reducible assumption | with_reducible apply logEv_quiet | with_reducible apply setXfer_quiet
    | with_reducible apply transferNotices_quiet | exact id | exact fun _ => Xfer.enter_interlock _ _ _ _

theorem enterFault_quiet (h : Quiet s t) {c : XferCause} : Quiet s (enterFault c t) := by
  unfold enterFault
  try dsimp only
  repeat' first
    | with_reducible assumption | with_reducible apply logEv_quiet | with_reducible apply setXfer_quiet
    | with_reducible apply setCond_quiet | with_reducible apply transferNotices_quiet | exact id
    | exact fun _ => Xfer.enterFault_interlock _ _ _ _ _

theorem watchFeedbacks_quiet (h : Quiet s t) : Quiet s (watchFeedbacks t) := by
  unfold watchFeedbacks
  try dsimp only
  repeat' first
    | with_reducible assumption | with_reducible apply setXfer_quiet | exact id | split

theorem judgeFeedbacks_quiet (h : Quiet s t) : Quiet s (judgeFeedbacks t) := by
  unfold judgeFeedbacks
  repeat' first
    | with_reducible assumption | with_reducible apply enterXfer_quiet | with_reducible apply watchFeedbacks_quiet
    | with_reducible apply Quiet.ite | split

theorem moveXfer_quiet (h : Quiet s t) {st : XferState} : Quiet s (moveXfer st t) := by
  unfold moveXfer
  repeat' first
    | with_reducible assumption | with_reducible apply enterXfer_quiet | with_reducible apply judgeFeedbacks_quiet

theorem startOpening_quiet (h : Quiet s t) {toGen fromGen : Bool} : Quiet s (startOpening toGen fromGen t) := by
  unfold startOpening
  try dsimp only
  repeat' first
    | with_reducible assumption | with_reducible apply setXfer_quiet | with_reducible apply moveXfer_quiet | exact id

theorem feedbackChanged_quiet (h : Quiet s t) : Quiet s (feedbackChanged t) := by
  unfold feedbackChanged
  repeat' first
    | with_reducible assumption | with_reducible apply handCapacity_quiet | with_reducible apply judgeFeedbacks_quiet

theorem decideOpen_quiet (h : Quiet s t) : Quiet s (decideOpen t) := by
  unfold decideOpen
  try dsimp only
  repeat' first
    | with_reducible assumption | with_reducible apply setXfer_quiet | with_reducible apply moveXfer_quiet
    | with_reducible apply Quiet.ite | exact id | split

theorem readyFalse_quiet (h : Quiet s t) : Quiet s (readyFalse t) := by
  unfold readyFalse
  repeat' first
    | with_reducible assumption | with_reducible apply startOpening_quiet | with_reducible apply decideOpen_quiet | split

theorem countRetransfer_quiet (h : Quiet s t) : Quiet s (countRetransfer t) := by
  unfold countRetransfer
  try dsimp only
  repeat' first
    | with_reducible assumption | with_reducible apply setMains_quiet | with_reducible apply Quiet.ite | exact id | split

theorem checkOnGen_quiet (h : Quiet s t) : Quiet s (checkOnGen t) := by
  unfold checkOnGen
  try dsimp only
  repeat' first
    | with_reducible assumption | with_reducible apply startOpening_quiet | with_reducible apply countRetransfer_quiet
    | with_reducible apply Quiet.ite | split

theorem withdrawMainsFail_quiet (h : Quiet s t) : Quiet s (withdrawMainsFail t) := by
  unfold withdrawMainsFail
  try dsimp only
  repeat' first
    | with_reducible assumption | with_reducible apply setMains_quiet | with_reducible apply removeRequest_quiet
    | with_reducible apply Quiet.ite | exact id | split

theorem checkMainsFail_quiet (h : Quiet s t) : Quiet s (checkMainsFail t) := by
  unfold checkMainsFail
  try dsimp only
  repeat' first
    | with_reducible assumption | with_reducible apply setMains_quiet | with_reducible apply postRequest_quiet
    | with_reducible apply withdrawMainsFail_quiet | with_reducible apply Quiet.ite | exact id | split

theorem judgeConfirm_quiet (h : Quiet s t) : Quiet s (judgeConfirm t) := by
  unfold judgeConfirm
  repeat' first
    | with_reducible assumption | with_reducible apply enterFault_quiet | with_reducible apply moveXfer_quiet
    | with_reducible apply Quiet.ite | split

theorem sourceEvaluation_quiet (h : Quiet s t) : Quiet s (sourceEvaluation t) := by
  unfold sourceEvaluation
  try dsimp only
  repeat' first
    | with_reducible assumption | with_reducible apply startOpening_quiet | with_reducible apply decideOpen_quiet
    | with_reducible apply checkOnGen_quiet | with_reducible apply checkMainsFail_quiet | with_reducible apply judgeConfirm_quiet
    | with_reducible apply Quiet.ite | split

theorem confirmExpiry_quiet (h : Quiet s t) : Quiet s (confirmExpiry t) := by
  unfold confirmExpiry
  try dsimp only
  repeat' first
    | with_reducible assumption | with_reducible apply setXfer_quiet | with_reducible apply judgeConfirm_quiet
    | with_reducible apply Quiet.ite | exact id | split

theorem mismatchExpiry_quiet (h : Quiet s t) : Quiet s (mismatchExpiry t) := by
  unfold mismatchExpiry
  repeat' first
    | with_reducible assumption | with_reducible apply enterFault_quiet | with_reducible apply Quiet.ite | split

theorem deadTimeExpiry_quiet (h : Quiet s t) : Quiet s (deadTimeExpiry t) := by
  unfold deadTimeExpiry
  try dsimp only
  repeat' first
    | with_reducible assumption | with_reducible apply setXfer_quiet | with_reducible apply decideOpen_quiet
    | with_reducible apply Quiet.ite | exact id | split

theorem mainsRelease_quiet (h : Quiet s t) : Quiet s (mainsRelease t) := by
  unfold mainsRelease
  try dsimp only
  repeat' first
    | with_reducible assumption | with_reducible apply setXfer_quiet | with_reducible apply Quiet.ite | exact id
    | exact fun _ => interlock_released rfl | split

theorem transferRetry_quiet (h : Quiet s t) : Quiet s (transferRetry t).1 := by
  unfold transferRetry
  try dsimp only
  repeat' first
    | with_reducible assumption | with_reducible apply setXfer_quiet | with_reducible apply setCond_quiet
    | with_reducible apply moveXfer_quiet | with_reducible apply Quiet.ite | exact id | split

theorem changeMains_quiet (h : Quiet s t) {st : MainsState} : Quiet s (changeMains st t) := by
  unfold changeMains
  try dsimp only
  repeat' first
    | with_reducible assumption | with_reducible apply setMains_quiet | with_reducible apply cancelEqualize_quiet
    | with_reducible apply abortTest_quiet | with_reducible apply handCapacity_quiet | with_reducible apply Quiet.ite | exact id | split

theorem startOutage_quiet (h : Quiet s t) {byFrequency : Bool} : Quiet s (startOutage byFrequency t) := by
  unfold startOutage
  try dsimp only
  repeat' first
    | with_reducible assumption | with_reducible apply logEv_quiet | with_reducible apply setMains_quiet
    | with_reducible apply setCond_quiet | with_reducible apply changeMains_quiet | with_reducible apply Quiet.ite | exact id | split

theorem qualifyFails_quiet (h : Quiet s t) : Quiet s (qualifyFails t) := by
  unfold qualifyFails
  try dsimp only
  repeat' first
    | with_reducible assumption | with_reducible apply setMains_quiet | with_reducible apply setCond_quiet
    | with_reducible apply changeMains_quiet | exact id

theorem mainsQualifies_quiet (h : Quiet s t) : Quiet s (mainsQualifies t) := by
  unfold mainsQualifies
  try dsimp only
  repeat' first
    | with_reducible assumption | with_reducible apply logEv_quiet | with_reducible apply setMains_quiet
    | with_reducible apply setCond_quiet | with_reducible apply changeMains_quiet | exact id

theorem senseLoss_quiet (h : Quiet s t) : Quiet s (senseLoss t) := by
  unfold senseLoss
  try dsimp only
  repeat' first
    | with_reducible assumption | with_reducible apply setMains_quiet | with_reducible apply changeMains_quiet
    | with_reducible apply qualifyFails_quiet | with_reducible apply Quiet.ite | exact id | split

theorem dipExpiry_quiet (h : Quiet s t) : Quiet s (dipExpiry t) := by
  unfold dipExpiry
  repeat' first
    | with_reducible assumption | with_reducible apply startOutage_quiet | with_reducible apply Quiet.ite | split

theorem dipReturns_quiet (h : Quiet s t) {width : Nat} : Quiet s (dipReturns width t) := by
  unfold dipReturns
  try dsimp only
  repeat' first
    | with_reducible assumption | with_reducible apply logEv_quiet | with_reducible apply setMains_quiet
    | with_reducible apply changeMains_quiet | exact id

theorem senseReturn_quiet (h : Quiet s t) {ms : Nat} {width : Nat} {seconds : Bool} : Quiet s (senseReturn ms width seconds t) := by
  unfold senseReturn
  try dsimp only
  repeat' first
    | with_reducible assumption | with_reducible apply setMains_quiet | with_reducible apply dipExpiry_quiet
    | with_reducible apply dipReturns_quiet | with_reducible apply Quiet.ite | exact id | split

theorem senseLong_quiet (h : Quiet s t) : Quiet s (senseLong t) := by
  unfold senseLong
  try dsimp only
  repeat' first
    | with_reducible assumption | with_reducible apply setMains_quiet | exact id

theorem sourceFrequency_quiet (h : Quiet s t) {f : Nat} : Quiet s (sourceFrequency f t) := by
  unfold sourceFrequency
  try dsimp only
  repeat' first
    | with_reducible assumption | with_reducible apply setMains_quiet | with_reducible apply setCond_quiet
    | with_reducible apply changeMains_quiet | with_reducible apply startOutage_quiet | with_reducible apply qualifyFails_quiet
    | with_reducible apply mainsQualifies_quiet | with_reducible apply Quiet.ite | exact id | split

theorem deriveXfer_quiet (h : Quiet s t) : Quiet s (deriveXfer t) := by
  unfold deriveXfer
  try dsimp only
  repeat' first
    | with_reducible assumption | with_reducible apply logEv_quiet | with_reducible apply setXfer_quiet
    | with_reducible apply setCond_quiet | with_reducible apply Quiet.ite | exact id | exact fun _ => interlock_released rfl | split

theorem deriveMains_quiet (h : Quiet s t) : Quiet s (deriveMains t) := by
  unfold deriveMains
  try dsimp only
  repeat' first
    | with_reducible assumption | with_reducible apply logEv_quiet | with_reducible apply setMains_quiet
    | with_reducible apply setCond_quiet | with_reducible apply Quiet.ite | exact id | split

theorem resumeMains_quiet (h : Quiet s t) {sinceLossMs : Nat} : Quiet s (resumeMains sinceLossMs t) := by
  unfold resumeMains
  try dsimp only
  repeat' first
    | with_reducible assumption | with_reducible apply setMains_quiet | with_reducible apply senseLoss_quiet
    | with_reducible apply dipReturns_quiet | with_reducible apply Quiet.ite | exact id | split

theorem sourceAtRun_quiet (h : Quiet s t) {sinceLossMs : Nat} : Quiet s (sourceAtRun sinceLossMs t) := by
  unfold sourceAtRun
  repeat' first
    | with_reducible assumption | with_reducible apply handCapacity_quiet | with_reducible apply watchFeedbacks_quiet
    | with_reducible apply deriveXfer_quiet | with_reducible apply deriveMains_quiet | with_reducible apply resumeMains_quiet
    | with_reducible apply judgeFeedbacks_quiet | with_reducible apply presentConds_quiet | with_reducible apply Quiet.ite | split

theorem outageDelayStored_quiet (h : Quiet s t) : Quiet s (outageDelayStored t) := by
  unfold outageDelayStored
  repeat' first
    | with_reducible assumption | with_reducible apply withdrawMainsFail_quiet | with_reducible apply Quiet.ite | split

end Sys2Proof.Machine
end

