-- ==== Sys2Proof/Laws/QuietGen.lean ====
section
/-! SUPPORT. The operations of the Generator Controller are `Quiet`: one lemma per operation. -/

namespace Sys2Proof.Machine

variable {s t : State}

/-! ## Generator -/

theorem genMove_quiet (h : Quiet s t) {st : GenState} {subject : Word} : Quiet s (genMove st subject t) := by
  unfold genMove
  try dsimp only
  repeat' first
    | with_reducible assumption | with_reducible apply genEnter_quiet | with_reducible apply readyFalse_quiet
    | with_reducible apply Quiet.ite | split

theorem restoreCapacity_quiet (h : Quiet s t) : Quiet s (restoreCapacity t) := by
  unfold restoreCapacity
  try dsimp only
  repeat' first
    | with_reducible assumption | with_reducible apply setGen_quiet | with_reducible apply setCond_quiet
    | with_reducible apply handCapacity_quiet | exact fun hg => hg.congr rfl rfl rfl rfl

theorem enterStandby_quiet (h : Quiet s t) : Quiet s (enterStandby t) := by
  unfold enterStandby
  try dsimp only
  repeat' first
    | with_reducible assumption | with_reducible apply checkpoint_quiet | with_reducible apply setGen_quiet
    | with_reducible apply seriesStart_quiet | with_reducible apply genMove_quiet | with_reducible apply restoreCapacity_quiet
    | with_reducible apply Quiet.ite | exact fun hg => hg.congr rfl rfl rfl rfl | split

theorem genShutdown_quiet (h : Quiet s t) {c : ShutdownCause} : Quiet s (genShutdown c t) := by
  unfold genShutdown
  try dsimp only
  repeat' first
    | with_reducible assumption | with_reducible apply setGen_quiet | with_reducible apply setCond_quiet
    | with_reducible apply genMove_quiet | exact fun hg => hg.congr rfl rfl rfl rfl

theorem confirmStop_quiet (h : Quiet s t) : Quiet s (confirmStop t) := by
  unfold confirmStop
  try dsimp only
  repeat' first
    | with_reducible assumption | with_reducible apply setCond_quiet | with_reducible apply genMove_quiet
    | with_reducible apply enterStandby_quiet | with_reducible apply Quiet.ite | split

theorem checkSwitches_quiet (h : Quiet s t) : Quiet s (checkSwitches t) := by
  unfold checkSwitches
  repeat' first
    | with_reducible assumption | with_reducible apply genShutdown_quiet | with_reducible apply Quiet.ite | split

theorem prestartExpiry_quiet (h : Quiet s t) : Quiet s (prestartExpiry t) := by
  unfold prestartExpiry
  try dsimp only
  repeat' first
    | with_reducible assumption | with_reducible apply setGen_quiet | with_reducible apply genEnter_quiet | with_reducible apply Quiet.ite
    | exact fun hg => hg.congr rfl rfl rfl rfl | split

theorem crankCutTaken_quiet (h : Quiet s t) : Quiet s (crankCutTaken t) := by
  unfold crankCutTaken
  try dsimp only
  repeat' first
    | with_reducible assumption | with_reducible apply setGen_quiet | with_reducible apply genEnter_quiet
    | with_reducible apply addAttempt_quiet | with_reducible apply setCond_quiet | with_reducible apply checkSwitches_quiet
    | exact fun hg => hg.congr rfl rfl rfl rfl

theorem crankExpiry_quiet (h : Quiet s t) : Quiet s (crankExpiry t) := by
  unfold crankExpiry
  repeat' first
    | with_reducible assumption | with_reducible apply genEnter_quiet | with_reducible apply addAttempt_quiet
    | with_reducible apply Quiet.ite | split

theorem enterBar_quiet (h : Quiet s t) : Quiet s (enterBar t) := by
  unfold enterBar
  try dsimp only
  repeat' first
    | with_reducible assumption | with_reducible apply setGen_quiet | with_reducible apply genEnter_quiet
    | with_reducible apply setCond_quiet | with_reducible apply Quiet.ite | exact fun hg => hg.congr rfl rfl rfl rfl | split

theorem restExpiry_quiet (h : Quiet s t) : Quiet s (restExpiry t) := by
  unfold restExpiry
  try dsimp only
  repeat' first
    | with_reducible assumption | with_reducible apply setGen_quiet | with_reducible apply genEnter_quiet
    | with_reducible apply enterBar_quiet | with_reducible apply Quiet.ite | exact fun hg => hg.congr rfl rfl rfl rfl | split

theorem checkBar_quiet (h : Quiet s t) : Quiet s (checkBar t) := by
  unfold checkBar
  try dsimp only
  repeat' first
    | with_reducible assumption | with_reducible apply setGen_quiet | with_reducible apply enterStandby_quiet
    | with_reducible apply Quiet.ite | exact fun hg => hg.congr rfl rfl rfl rfl | split

theorem judgeWarmup_quiet (h : Quiet s t) : Quiet s (judgeWarmup t) := by
  unfold judgeWarmup
  try dsimp only
  repeat' first
    | with_reducible assumption | with_reducible apply setGen_quiet | with_reducible apply genEnter_quiet
    | with_reducible apply genShutdown_quiet | with_reducible apply Quiet.ite | exact fun hg => hg.congr rfl rfl rfl rfl | split

theorem warmupExpiry_quiet (h : Quiet s t) : Quiet s (warmupExpiry t) := by
  unfold warmupExpiry
  try dsimp only
  repeat' first
    | with_reducible assumption | with_reducible apply setGen_quiet | with_reducible apply judgeWarmup_quiet
    | with_reducible apply Quiet.ite | exact fun hg => hg.congr rfl rfl rfl rfl | split

theorem checkRelease_quiet (h : Quiet s t) : Quiet s (checkRelease t) := by
  unfold checkRelease
  repeat' first
    | with_reducible assumption | with_reducible apply genMove_quiet | with_reducible apply Quiet.ite | split

theorem cooldownExpiry_quiet (h : Quiet s t) : Quiet s (cooldownExpiry t) := by
  unfold cooldownExpiry
  try dsimp only
  repeat' first
    | with_reducible assumption | with_reducible apply setGen_quiet | with_reducible apply genEnter_quiet | with_reducible apply Quiet.ite
    | exact fun hg => hg.congr rfl rfl rfl rfl | split

theorem stopExpiry_quiet (h : Quiet s t) : Quiet s (stopExpiry t) := by
  unfold stopExpiry
  try dsimp only
  repeat' first
    | with_reducible assumption | with_reducible apply setGen_quiet | with_reducible apply setCond_quiet | with_reducible apply Quiet.ite
    | exact fun hg => hg.congr rfl rfl rfl rfl | split

theorem oilArming_quiet (h : Quiet s t) : Quiet s (oilArming t) := by
  unfold oilArming
  try dsimp only
  repeat' first
    | with_reducible assumption | with_reducible apply setGen_quiet | with_reducible apply checkSwitches_quiet
    | with_reducible apply Quiet.ite | exact fun hg => hg.congr rfl rfl rfl rfl | split

theorem judgeRundown_quiet (h : Quiet s t) : Quiet s (judgeRundown t) := by
  unfold judgeRundown
  try dsimp only
  repeat' first
    | with_reducible assumption | with_reducible apply setGen_quiet | with_reducible apply setCond_quiet | with_reducible apply Quiet.ite
    | exact fun hg => hg.congr rfl rfl rfl rfl | split

theorem rundownExpiry_quiet (h : Quiet s t) : Quiet s (rundownExpiry t) := by
  unfold rundownExpiry
  try dsimp only
  repeat' first
    | with_reducible assumption | with_reducible apply setGen_quiet | with_reducible apply judgeRundown_quiet
    | with_reducible apply Quiet.ite | exact fun hg => hg.congr rfl rfl rfl rfl | split

theorem resumeRundown_quiet (h : Quiet s t) : Quiet s (resumeRundown t) := by
  unfold resumeRundown
  repeat' first
    | with_reducible assumption | with_reducible apply judgeRundown_quiet | with_reducible apply Quiet.ite

theorem noteRundown_quiet (h : Quiet s t) {f : Nat} : Quiet s (noteRundown f t) := by
  unfold noteRundown
  try dsimp only
  repeat' first
    | with_reducible assumption | with_reducible apply setGen_quiet | with_reducible apply Quiet.ite
    | exact fun hg => hg.congr rfl rfl rfl rfl

theorem derate_quiet (h : Quiet s t) : Quiet s (derate t) := by
  unfold derate
  try dsimp only
  repeat' first
    | with_reducible assumption | with_reducible apply logEv_quiet | with_reducible apply setGen_quiet
    | with_reducible apply setCond_quiet | with_reducible apply handCapacity_quiet | exact fun hg => hg.congr rfl rfl rfl rfl

theorem judgeDroop_quiet (h : Quiet s t) {f : Nat} : Quiet s (judgeDroop f t) := by
  unfold judgeDroop
  try dsimp only
  repeat' first
    | with_reducible assumption | with_reducible apply setGen_quiet | with_reducible apply derate_quiet | with_reducible apply Quiet.ite
    | exact fun hg => hg.congr rfl rfl rfl rfl | split

theorem judgeUnderspeed_quiet (h : Quiet s t) {f : Nat} : Quiet s (judgeUnderspeed f t) := by
  unfold judgeUnderspeed
  try dsimp only
  repeat' first
    | with_reducible assumption | with_reducible apply setGen_quiet | with_reducible apply genShutdown_quiet
    | with_reducible apply Quiet.ite | exact fun hg => hg.congr rfl rfl rfl rfl | split

theorem judgeOverspeed_quiet (h : Quiet s t) {f : Nat} : Quiet s (judgeOverspeed f t) := by
  unfold judgeOverspeed
  repeat' first
    | with_reducible assumption | with_reducible apply genShutdown_quiet | with_reducible apply Quiet.ite | split

theorem notePeak_quiet (h : Quiet s t) {f : Nat} : Quiet s (notePeak f t) := by
  unfold notePeak
  try dsimp only
  repeat' first
    | with_reducible assumption | with_reducible apply setGen_quiet | with_reducible apply Quiet.ite
    | exact fun hg => hg.congr rfl rfl rfl rfl | split

theorem noteStopped_quiet (h : Quiet s t) {f : Nat} : Quiet s (noteStopped f t) :=
  Quiet.ite (setCond_quiet h) h

theorem judgeSpeed_quiet (h : Quiet s t) {f : Nat} : Quiet s (judgeSpeed f t) := by
  unfold judgeSpeed
  try dsimp only
  repeat' first
    | with_reducible assumption | with_reducible apply crankCutTaken_quiet | with_reducible apply judgeWarmup_quiet
    | with_reducible apply judgeUnderspeed_quiet | with_reducible apply judgeOverspeed_quiet | with_reducible apply noteRundown_quiet
    | with_reducible apply Quiet.ite | split

theorem judgeStopOrDroop_quiet (h : Quiet s t) {f : Nat} : Quiet s (judgeStopOrDroop f t) := by
  unfold judgeStopOrDroop
  repeat' first
    | with_reducible assumption | with_reducible apply confirmStop_quiet | with_reducible apply judgeDroop_quiet
    | with_reducible apply Quiet.ite

theorem genFrequency_quiet (h : Quiet s t) {f : Nat} : Quiet s (genFrequency f t) := by
  unfold genFrequency
  repeat' first
    | with_reducible assumption | with_reducible apply setGen_quiet | with_reducible apply notePeak_quiet
    | with_reducible apply judgeSpeed_quiet | with_reducible apply noteStopped_quiet | with_reducible apply judgeStopOrDroop_quiet
    | exact fun hg => hg.congr rfl rfl rfl rfl

theorem endIfReached_quiet (h : Quiet s t) {k : RequestKind} : Quiet s (endIfReached k t) := by
  unfold endIfReached
  repeat' first
    | with_reducible assumption | with_reducible apply removeRequest_quiet | with_reducible apply Quiet.ite | split

theorem checkEndTimes_quiet (h : Quiet s t) : Quiet s (checkEndTimes t) := by
  unfold checkEndTimes
  repeat' first
    | with_reducible assumption | with_reducible apply endIfReached_quiet

theorem checkRunLimit_quiet (h : Quiet s t) : Quiet s (checkRunLimit t) := by
  unfold checkRunLimit
  try dsimp only
  repeat' first
    | with_reducible assumption | with_reducible apply logEv_quiet | with_reducible apply setGen_quiet
    | with_reducible apply removeRequest_quiet | with_reducible apply Quiet.ite | exact fun hg => hg.congr rfl rfl rfl rfl | split
    | (with_reducible refine Quiet.str ?_ _ (by simp) (by simp))

theorem refreshSlot_quiet (h : Quiet s t) : Quiet s (refreshSlot t) := by
  unfold refreshSlot
  try dsimp only
  repeat' first
    | with_reducible assumption | with_reducible apply setGen_quiet | with_reducible apply Quiet.ite
    | exact fun hg => hg.congr rfl rfl rfl rfl | split

theorem checkSlot_quiet (h : Quiet s t) : Quiet s (checkSlot t) := by
  unfold checkSlot
  try dsimp only
  repeat' first
    | with_reducible assumption | with_reducible apply logEv_quiet | with_reducible apply setGen_quiet
    | with_reducible apply postRequest_quiet | with_reducible apply Quiet.ite | exact fun hg => hg.congr rfl rfl rfl rfl | split

theorem fuelQuantum_quiet (h : Quiet s t) : Quiet s (fuelQuantum t) := by
  unfold fuelQuantum
  try dsimp only
  repeat' first
    | with_reducible assumption | with_reducible apply logEv_quiet | with_reducible apply setGen_quiet | with_reducible apply Quiet.ite
    | exact fun hg => hg.congr rfl rfl rfl rfl | split

theorem takeQuanta_quiet : ∀ {n : Nat} {t : State}, Quiet s t → Quiet s (takeQuanta n t)
  | 0, _, h => h
  | n + 1, t, h => by
    unfold takeQuanta
    exact takeQuanta_quiet (Quiet.ite (fuelQuantum_quiet h) h)

theorem takeFuelLevel_quiet (h : Quiet s t) : Quiet s (takeFuelLevel t) := by
  unfold takeFuelLevel
  try dsimp only
  repeat' first
    | with_reducible assumption | with_reducible apply setGen_quiet | exact fun hg => hg.congr rfl rfl rfl rfl | split

theorem judgeIdleFlow_quiet (h : Quiet s t) : Quiet s (judgeIdleFlow t) := by
  unfold judgeIdleFlow
  try dsimp only
  repeat' first
    | with_reducible assumption | with_reducible apply setGen_quiet | with_reducible apply setCond_quiet
    | exact fun hg => hg.congr rfl rfl rfl rfl

theorem genRunSecond_quiet (h : Quiet s t) : Quiet s (genRunSecond t) := by
  unfold genRunSecond
  try dsimp only
  repeat' first
    | with_reducible assumption | with_reducible apply setGen_quiet | with_reducible apply Quiet.ite
    | exact fun hg => hg.congr rfl rfl rfl rfl | split

theorem genEvaluation_quiet (h : Quiet s t) : Quiet s (genEvaluation t) := by
  unfold genEvaluation
  repeat' first
    | with_reducible assumption | with_reducible apply seriesStart_quiet | with_reducible apply genClaimCheck_quiet
    | with_reducible apply checkBar_quiet | with_reducible apply checkRelease_quiet | with_reducible apply checkEndTimes_quiet
    | with_reducible apply checkRunLimit_quiet | with_reducible apply refreshSlot_quiet | with_reducible apply checkSlot_quiet
    | with_reducible apply takeFuelLevel_quiet | with_reducible apply judgeIdleFlow_quiet | with_reducible apply genRunSecond_quiet
    | with_reducible apply Quiet.ite | split

theorem genRunCommand_quiet (h : Quiet s t) {minutes loaded : Nat} : Quiet s (genRunCommand minutes loaded t).1 := by
  unfold genRunCommand
  repeat' first
    | with_reducible assumption | with_reducible apply postRequest_quiet | with_reducible apply Quiet.ite | split

theorem genStopCommand_quiet (h : Quiet s t) : Quiet s (genStopCommand t).1 := by
  unfold genStopCommand
  try dsimp only
  repeat' first
    | with_reducible assumption | with_reducible apply removeRequest_quiet | with_reducible apply Quiet.ite | split

theorem genResetCommand_quiet (h : Quiet s t) : Quiet s (genResetCommand t).1 := by
  unfold genResetCommand
  try dsimp only
  repeat' first
    | with_reducible assumption | with_reducible apply setGen_quiet | with_reducible apply setCond_quiet
    | with_reducible apply enterStandby_quiet | with_reducible apply Quiet.ite | exact fun hg => hg.congr rfl rfl rfl rfl | split

theorem serviceOn_quiet (h : Quiet s t) : Quiet s (serviceOn t) := by
  unfold serviceOn
  try dsimp only
  repeat' first
    | with_reducible assumption | with_reducible apply setGen_quiet | with_reducible apply abandonSeries_quiet
    | with_reducible apply setCond_quiet | with_reducible apply genMove_quiet | exact fun hg => hg.congr rfl rfl rfl rfl | split

theorem serviceOff_quiet (h : Quiet s t) : Quiet s (serviceOff t) := by
  unfold serviceOff
  try dsimp only
  repeat' first
    | with_reducible assumption | with_reducible apply setGen_quiet | with_reducible apply enterStandby_quiet
    | exact fun hg => hg.congr rfl rfl rfl rfl | split

theorem genServiceCommand_quiet (h : Quiet s t) {v : Nat} : Quiet s (genServiceCommand v t).1 := by
  unfold genServiceCommand
  try dsimp only
  repeat' first
    | with_reducible assumption | with_reducible apply setGen_quiet | with_reducible apply serviceOn_quiet
    | with_reducible apply serviceOff_quiet | with_reducible apply Quiet.ite | exact fun hg => hg.congr rfl rfl rfl rfl | split

theorem genCapacityStored_quiet (h : Quiet s t) : Quiet s (genCapacityStored t) := by
  unfold genCapacityStored
  try dsimp only
  repeat' first
    | with_reducible assumption | with_reducible apply setGen_quiet | with_reducible apply handCapacity_quiet
    | with_reducible apply Quiet.ite | exact fun hg => hg.congr rfl rfl rfl rfl | split

theorem deriveGen_quiet (h : Quiet s t) : Quiet s (deriveGen t) := by
  unfold deriveGen
  try dsimp only
  repeat' first
    | with_reducible assumption | with_reducible apply setGen_quiet | with_reducible apply genEnter_quiet | with_reducible apply Quiet.ite
    | exact fun hg => hg.congr rfl rfl rfl rfl | split

theorem resumeGen_quiet (h : Quiet s t) : Quiet s (resumeGen t) := by
  unfold resumeGen
  try dsimp only
  repeat' first
    | with_reducible assumption | with_reducible apply setGen_quiet | with_reducible apply genMove_quiet
    | with_reducible apply enterStandby_quiet | with_reducible apply checkSwitches_quiet | with_reducible apply Quiet.ite
    | exact fun hg => hg.congr rfl rfl rfl rfl | split

theorem genAtRun_quiet (h : Quiet s t) : Quiet s (genAtRun t) := by
  unfold genAtRun
  try dsimp only
  repeat' first
    | with_reducible assumption | with_reducible apply setGen_quiet | with_reducible apply deriveGen_quiet
    | with_reducible apply resumeGen_quiet | with_reducible apply resumeRundown_quiet | with_reducible apply presentConds_quiet
    | with_reducible apply Quiet.ite | exact fun hg => hg.congr rfl rfl rfl rfl | split

end Sys2Proof.Machine
end

