-- ==== Sys2Proof/Laws/QuietStrings.lean ====
section
/-! SUPPORT. The operations of the String Supervisor and the Bus Regulator are `Quiet`: one lemma per operation. -/

namespace Sys2Proof.Machine

variable {s t : State}

/-! ## Strings -/

theorem refreshStringConds_quiet (h : Quiet s t) : Quiet s (refreshStringConds t) := by
  unfold refreshStringConds
  try dsimp only
  repeat' first
    | with_reducible assumption | with_reducible apply judgeCond_quiet

theorem putPhase_quiet (h : Quiet s t) {k : Nat} {p : Phase} : Quiet s (putPhase k p t) := by
  unfold putPhase
  try dsimp only
  repeat' first
    | with_reducible assumption | with_reducible apply setStr_quiet | with_reducible apply Quiet.ite | split
    | (with_reducible refine Quiet.str ?_ _ (by simp) (by simp))

theorem changePhase_quiet (h : Quiet s t) {k : Nat} {p : Phase} : Quiet s (changePhase k p t) := by
  unfold changePhase
  try dsimp only
  repeat' first
    | with_reducible assumption | with_reducible apply logEv_quiet | with_reducible apply putPhase_quiet | with_reducible apply Quiet.ite
    | split

theorem enterFullPhase_quiet (h : Quiet s t) {k : Nat} : Quiet s (enterFullPhase k t) := by
  unfold enterFullPhase
  try dsimp only
  repeat' first
    | with_reducible assumption | with_reducible apply checkpoint_quiet | with_reducible apply setStr_quiet
    | with_reducible apply changePhase_quiet

theorem enterStringFault_quiet (h : Quiet s t) {k cause : Nat} : Quiet s (enterStringFault k cause t) := by
  unfold enterStringFault
  try dsimp only
  repeat' first
    | with_reducible assumption | with_reducible apply logEv_quiet | with_reducible apply setStr_quiet
    | with_reducible apply changePhase_quiet | with_reducible apply Quiet.ite | split

theorem accountString_quiet (h : Quiet s t) {k : Nat} : Quiet s (accountString k t) := by
  unfold accountString
  try dsimp only
  repeat' first
    | with_reducible assumption | with_reducible apply setStr_quiet | with_reducible apply Quiet.ite | split

theorem accountStrings_quiet (h : Quiet s t) : Quiet s (accountStrings t) := by
  unfold accountStrings
  try dsimp only
  repeat' first
    | with_reducible assumption | with_reducible apply accountString_quiet | with_reducible apply Quiet.ite
    | (with_reducible apply Quiet.foldl; intro _ _ _) | split

theorem takeTemp_quiet (h : Quiet s t) {k : Nat} : Quiet s (takeTemp k t) := by
  unfold takeTemp
  try dsimp only
  repeat' first
    | with_reducible assumption | with_reducible apply setStr_quiet | with_reducible apply Quiet.ite | split

theorem judgePhase_quiet (h : Quiet s t) {k : Nat} : Quiet s (judgePhase k t) := by
  unfold judgePhase
  try dsimp only
  repeat' first
    | with_reducible assumption | with_reducible apply setStr_quiet | with_reducible apply changePhase_quiet
    | with_reducible apply enterFullPhase_quiet | with_reducible apply Quiet.ite | split

theorem countBoost_quiet (h : Quiet s t) {k : Nat} : Quiet s (countBoost k t) := by
  unfold countBoost
  try dsimp only
  repeat' first
    | with_reducible assumption | with_reducible apply logEv_quiet | with_reducible apply setStr_quiet | with_reducible apply Quiet.ite
    | split

theorem countBaseline_quiet (h : Quiet s t) {k : Nat} : Quiet s (countBaseline k t) := by
  unfold countBaseline
  try dsimp only
  repeat' first
    | with_reducible assumption | with_reducible apply setStr_quiet | with_reducible apply Quiet.ite | split

theorem countRunaway_quiet (h : Quiet s t) {k : Nat} : Quiet s (countRunaway k t) := by
  unfold countRunaway
  try dsimp only
  repeat' first
    | with_reducible assumption | with_reducible apply setStr_quiet | with_reducible apply Quiet.ite | split

theorem countTemperature_quiet (h : Quiet s t) {k : Nat} : Quiet s (countTemperature k t) := by
  unfold countTemperature
  try dsimp only
  repeat' first
    | with_reducible assumption | with_reducible apply setStr_quiet | with_reducible apply Quiet.ite | split

theorem judgeStage2_quiet (h : Quiet s t) {k : Nat} : Quiet s (judgeStage2 k t) := by
  unfold judgeStage2
  repeat' first
    | with_reducible assumption | with_reducible apply enterStringFault_quiet | with_reducible apply Quiet.ite | split

theorem countOvertemp_quiet (h : Quiet s t) {k : Nat} : Quiet s (countOvertemp k t) := by
  unfold countOvertemp
  try dsimp only
  repeat' first
    | with_reducible assumption | with_reducible apply setStr_quiet | with_reducible apply enterStringFault_quiet
    | with_reducible apply Quiet.ite | split

theorem logReconnect_quiet (h : Quiet s t) {o : ReconnectOutcome} {b : Word} : Quiet s (logReconnect o b t) := by
  unfold logReconnect
  repeat' first
    | with_reducible assumption | with_reducible apply logEv_quiet

theorem endReconnect_quiet (h : Quiet s t) {k : Nat} {o : ReconnectOutcome} : Quiet s (endReconnect k o t) := by
  unfold endReconnect
  try dsimp only
  repeat' first
    | with_reducible assumption | with_reducible apply setStr_quiet | with_reducible apply withdrawClaim_quiet
    | with_reducible apply changePhase_quiet | with_reducible apply logReconnect_quiet | with_reducible apply Quiet.ite | split

theorem closeString_quiet (h : Quiet s t) {k : Nat} : Quiet s (closeString k t) := by
  unfold closeString
  try dsimp only
  repeat' first
    | with_reducible assumption | with_reducible apply setStr_quiet | (with_reducible refine Quiet.str ?_ _ (by simp) (by simp))

theorem handleMatching_quiet (h : Quiet s t) {k : Nat} : Quiet s (handleMatching k t) := by
  unfold handleMatching
  try dsimp only
  repeat' first
    | with_reducible assumption | with_reducible apply postIfNew_quiet | with_reducible apply setCond_quiet
    | with_reducible apply endReconnect_quiet | with_reducible apply closeString_quiet | with_reducible apply Quiet.ite | split

theorem handleReconnect_quiet (h : Quiet s t) : Quiet s (handleReconnect t) := by
  unfold handleReconnect
  split
  · exact handleMatching_quiet h
  · exact h

theorem inrushExpiry_quiet (h : Quiet s t) {k : Nat} : Quiet s (inrushExpiry k t) := by
  unfold inrushExpiry
  try dsimp only
  repeat' first
    | with_reducible assumption | with_reducible apply setStr_quiet | with_reducible apply withdrawClaim_quiet
    | with_reducible apply setCond_quiet | with_reducible apply changePhase_quiet | with_reducible apply enterStringFault_quiet
    | with_reducible apply logReconnect_quiet | with_reducible apply Quiet.ite | split

theorem abandonReconnect_quiet (h : Quiet s t) {o : ReconnectOutcome} : Quiet s (abandonReconnect o t) := by
  unfold abandonReconnect
  repeat' first
    | with_reducible assumption | with_reducible apply endReconnect_quiet | split

theorem handRequests_quiet (h : Quiet s t) : Quiet s (handRequests t) := by
  unfold handRequests
  try dsimp only
  repeat' first
    | with_reducible assumption | with_reducible apply setStr_quiet | (with_reducible apply Quiet.foldl; intro _ _ _)
    | (with_reducible refine Quiet.ros ?_ _ (by simp) (by simp))

theorem claimStrings_quiet (h : Quiet s t) {force : Bool} : Quiet s (claimStrings force t) := by
  unfold claimStrings
  try dsimp only
  repeat' first
    | with_reducible assumption | with_reducible apply postClaim_quiet | with_reducible apply Quiet.ite | split
    | (with_reducible refine Quiet.str ?_ _ (by simp) (by simp))

theorem handOn_quiet (h : Quiet s t) : Quiet s (handOn t) := by
  unfold handOn
  try dsimp only
  repeat' first
    | with_reducible assumption | with_reducible apply abortTest_quiet | with_reducible apply Quiet.ite | split
    | (with_reducible refine Quiet.str ?_ _ (by simp) (by simp))

theorem claimThermal_quiet (h : Quiet s t) : Quiet s (claimThermal t) := by
  unfold claimThermal
  try dsimp only
  repeat' first
    | with_reducible assumption | with_reducible apply wishClaim_quiet | with_reducible apply Quiet.ite | split

theorem countBusSpan_quiet (h : Quiet s t) : Quiet s (countBusSpan t) := by
  unfold countBusSpan
  repeat' first
    | with_reducible assumption | with_reducible apply Quiet.ite | split | (with_reducible refine Quiet.str ?_ _ (by simp) (by simp))

theorem clearSpent_quiet (h : Quiet s t) : Quiet s (clearSpent t) := by
  unfold clearSpent
  repeat' first
    | with_reducible assumption | with_reducible apply Quiet.ite | split | (with_reducible refine Quiet.str ?_ _ (by simp) (by simp))

theorem withdrawDepth_quiet (h : Quiet s t) : Quiet s (withdrawDepth t) := by
  unfold withdrawDepth
  repeat' first
    | with_reducible assumption | with_reducible apply removeRequest_quiet | (with_reducible refine Quiet.str ?_ _ (by simp) (by simp))

theorem postDepth_quiet (h : Quiet s t) : Quiet s (postDepth t) := by
  unfold postDepth
  repeat' first
    | with_reducible assumption | with_reducible apply postRequest_quiet | (with_reducible refine Quiet.str ?_ _ (by simp) (by simp))

theorem checkDepth_quiet (h : Quiet s t) : Quiet s (checkDepth t) := by
  unfold checkDepth
  try dsimp only
  repeat' first
    | with_reducible assumption | with_reducible apply clearSpent_quiet | with_reducible apply withdrawDepth_quiet
    | with_reducible apply postDepth_quiet | with_reducible apply Quiet.ite | split

theorem checkDepthAtRun_quiet (h : Quiet s t) : Quiet s (checkDepthAtRun t) := by
  unfold checkDepthAtRun
  try dsimp only
  repeat' first
    | with_reducible assumption | with_reducible apply clearSpent_quiet | with_reducible apply withdrawDepth_quiet
    | with_reducible apply checkDepth_quiet | with_reducible apply Quiet.ite | split
    | (with_reducible refine Quiet.str ?_ _ (by simp) (by simp))

theorem eachString_quiet (h : Quiet s t) {f : Nat → State → State} {ks : List Nat} (hf : ∀ k u, Quiet s u → Quiet s (f k u)) :
    Quiet s (eachString f ks t) := Quiet.foldl (f := fun u k => f k u) hf ks h

theorem stringTimers_quiet (h : Quiet s t) : Quiet s (stringTimers t) := by
  unfold stringTimers
  try dsimp only
  repeat' first
    | with_reducible assumption | with_reducible apply takeTemp_quiet | with_reducible apply judgePhase_quiet
    | with_reducible apply countBoost_quiet | with_reducible apply countBaseline_quiet | with_reducible apply countRunaway_quiet
    | with_reducible apply countTemperature_quiet | with_reducible apply judgeStage2_quiet | with_reducible apply countOvertemp_quiet
    | with_reducible apply handleReconnect_quiet | with_reducible apply eachString_quiet | intro _ _ _

theorem stringTotals_quiet (h : Quiet s t) {force : Bool} : Quiet s (stringTotals force t) := by
  unfold stringTotals
  repeat' first
    | with_reducible assumption | with_reducible apply handRequests_quiet | with_reducible apply claimStrings_quiet
    | with_reducible apply handOn_quiet | with_reducible apply claimThermal_quiet | with_reducible apply countBusSpan_quiet

theorem stringEvaluation_quiet (h : Quiet s t) : Quiet s (stringEvaluation t) := by
  unfold stringEvaluation
  repeat' first
    | with_reducible assumption | with_reducible apply refreshStringConds_quiet | with_reducible apply checkDepth_quiet
    | with_reducible apply stringTimers_quiet | with_reducible apply stringTotals_quiet | with_reducible apply Quiet.ite | split

theorem stringsAtRun_quiet (h : Quiet s t) : Quiet s (stringsAtRun t) := by
  unfold stringsAtRun
  repeat' first
    | with_reducible assumption | with_reducible apply withdrawClaim_quiet | with_reducible apply refreshStringConds_quiet
    | with_reducible apply presentConds_quiet | with_reducible apply checkDepthAtRun_quiet | with_reducible apply stringTimers_quiet | with_reducible apply stringTotals_quiet
    | split | (with_reducible refine Quiet.str ?_ _ (by simp) (by simp))

theorem equalizeCompleted_quiet (h : Quiet s t) : Quiet s (equalizeCompleted t) := by
  unfold equalizeCompleted
  try dsimp only
  repeat' first
    | with_reducible assumption | with_reducible apply checkpoint_quiet | with_reducible apply setStr_quiet
    | with_reducible apply eachString_quiet | intro _ _ _

theorem capacityStored_quiet (h : Quiet s t) {k : Nat} : Quiet s (capacityStored k t) := by
  unfold capacityStored
  try dsimp only
  repeat' first
    | with_reducible assumption | with_reducible apply setStr_quiet

theorem stringIsolate_quiet (h : Quiet s t) {k : Nat} : Quiet s (stringIsolate k t).1 := by
  unfold stringIsolate
  repeat' first
    | with_reducible assumption | with_reducible apply setStr_quiet | with_reducible apply refreshStringConds_quiet
    | with_reducible apply changePhase_quiet | with_reducible apply endReconnect_quiet | split

theorem beginReconnect_quiet (h : Quiet s t) {k : Nat} : Quiet s (beginReconnect k t) := by
  unfold beginReconnect
  try dsimp only
  repeat' first
    | with_reducible assumption | with_reducible apply setStr_quiet | with_reducible apply postClaim_quiet
    | with_reducible apply refreshStringConds_quiet | with_reducible apply changePhase_quiet | split

theorem stringReconnect_quiet (h : Quiet s t) {k : Nat} : Quiet s (stringReconnect k t).1 := by
  unfold stringReconnect
  try dsimp only
  repeat' first
    | with_reducible assumption | with_reducible apply setStr_quiet | with_reducible apply setCond_quiet
    | with_reducible apply logReconnect_quiet | with_reducible apply beginReconnect_quiet | with_reducible apply Quiet.ite | split

/-! ## Bus -/

theorem ramp_quiet (h : Quiet s t) : Quiet s (ramp t) := by
  unfold ramp
  repeat' first
    | with_reducible assumption | with_reducible apply setSetpoint_quiet | split

theorem writeIlim_quiet (h : Quiet s t) : Quiet s (writeIlim t) := by
  unfold writeIlim
  try dsimp only
  repeat' first
    | with_reducible assumption | with_reducible apply setBus_quiet | with_reducible apply Quiet.ite | split

theorem firstSetpoint_quiet (h : Quiet s t) : Quiet s (firstSetpoint t) := by
  unfold firstSetpoint
  repeat' first
    | with_reducible assumption | with_reducible apply setSetpoint_quiet | split

theorem clampSetpoint_quiet (h : Quiet s t) : Quiet s (clampSetpoint t) := by
  unfold clampSetpoint
  repeat' first
    | with_reducible assumption | with_reducible apply setSetpoint_quiet | with_reducible apply Quiet.ite | split

theorem reclamp_quiet (h : Quiet s t) : Quiet s (reclamp t) := by
  unfold reclamp
  repeat' first
    | with_reducible assumption | with_reducible apply retarget_quiet | with_reducible apply Quiet.ite | split

theorem busWindowStored_quiet (h : Quiet s t) : Quiet s (busWindowStored t) := by
  unfold busWindowStored
  repeat' first
    | with_reducible assumption | with_reducible apply clampSetpoint_quiet | with_reducible apply reclamp_quiet

theorem startEqualize_quiet (h : Quiet s t) {scheduled : Bool} : Quiet s (startEqualize scheduled t) := by
  unfold startEqualize
  try dsimp only
  repeat' first
    | with_reducible assumption | with_reducible apply setEq_quiet | with_reducible apply postClaim_quiet

theorem followEqualize_quiet (h : Quiet s t) : Quiet s (followEqualize t) := by
  unfold followEqualize
  try dsimp only
  repeat' first
    | with_reducible assumption | with_reducible apply setEq_quiet | with_reducible apply withdrawClaim_quiet
    | with_reducible apply postIfNew_quiet | split

theorem advanceEqualize_quiet (h : Quiet s t) : Quiet s (advanceEqualize t) := by
  unfold advanceEqualize
  try dsimp only
  repeat' first
    | with_reducible assumption | with_reducible apply setEq_quiet | with_reducible apply endEqualize_quiet
    | with_reducible apply equalizeCompleted_quiet | with_reducible apply followEqualize_quiet | with_reducible apply Quiet.ite | split

theorem checkSchedule_quiet (h : Quiet s t) : Quiet s (checkSchedule t) := by
  unfold checkSchedule
  try dsimp only
  repeat' first
    | with_reducible assumption | with_reducible apply setEq_quiet | with_reducible apply startEqualize_quiet
    | with_reducible apply Quiet.ite | split

theorem refreshCheck_quiet (h : Quiet s t) : Quiet s (refreshCheck t) := by
  unfold refreshCheck
  try dsimp only
  repeat' first
    | with_reducible assumption | with_reducible apply setBus_quiet | with_reducible apply setEq_quiet | with_reducible apply Quiet.ite
    | split

theorem equalizeStart_quiet (h : Quiet s t) : Quiet s (equalizeStart t).1 := by
  unfold equalizeStart
  repeat' first
    | with_reducible assumption | with_reducible apply startEqualize_quiet | with_reducible apply Quiet.ite | split

theorem equalizeCancelCommand_quiet (h : Quiet s t) : Quiet s (equalizeCancelCommand t).1 := by
  unfold equalizeCancelCommand
  repeat' first
    | with_reducible assumption | with_reducible apply cancelEqualize_quiet | with_reducible apply Quiet.ite | split

theorem startTest_quiet (h : Quiet s t) {minutes volts : Nat} : Quiet s (startTest minutes volts t) := by
  unfold startTest
  try dsimp only
  repeat' first
    | with_reducible assumption | with_reducible apply setTest_quiet | with_reducible apply postClaim_quiet
    | with_reducible apply Quiet.ite | split

theorem testStartCommand_quiet (h : Quiet s t) {minutes volts : Nat} : Quiet s (testStartCommand minutes volts t).1 := by
  unfold testStartCommand
  repeat' first
    | with_reducible assumption | with_reducible apply startTest_quiet | split

theorem testAbortCommand_quiet (h : Quiet s t) : Quiet s (testAbortCommand t).1 := by
  unfold testAbortCommand
  repeat' first
    | with_reducible assumption | with_reducible apply abortTest_quiet | with_reducible apply Quiet.ite | split

theorem testFigures_quiet (h : Quiet s t) : Quiet s (testFigures t) := by
  unfold testFigures
  try dsimp only
  repeat' first
    | with_reducible assumption | with_reducible apply setTest_quiet | split

theorem advanceTest_quiet (h : Quiet s t) : Quiet s (advanceTest t) := by
  unfold advanceTest
  try dsimp only
  repeat' first
    | with_reducible assumption | with_reducible apply endTest_quiet | with_reducible apply setCond_quiet
    | with_reducible apply testFigures_quiet | with_reducible apply Quiet.ite | split

theorem testStep_quiet (h : Quiet s t) : Quiet s (testStep t) := by
  unfold testStep
  try dsimp only
  repeat' first
    | with_reducible assumption | with_reducible apply seriesStart_quiet | with_reducible apply advanceTest_quiet
    | with_reducible apply Quiet.ite | split

theorem busEvaluation_quiet (h : Quiet s t) : Quiet s (busEvaluation t) := by
  unfold busEvaluation
  repeat' first
    | with_reducible assumption | with_reducible apply ramp_quiet | with_reducible apply writeIlim_quiet
    | with_reducible apply advanceEqualize_quiet | with_reducible apply checkSchedule_quiet | with_reducible apply refreshCheck_quiet
    | with_reducible apply testStep_quiet | with_reducible apply Quiet.ite | split

theorem busAtRun_quiet (h : Quiet s t) : Quiet s (busAtRun t) := by
  unfold busAtRun
  try dsimp only
  repeat' first
    | with_reducible assumption | with_reducible apply setEq_quiet | with_reducible apply writeIlim_quiet
    | with_reducible apply firstSetpoint_quiet | with_reducible apply presentConds_quiet | with_reducible apply Quiet.ite | split

end Sys2Proof.Machine
end

