-- ==== Sys2Proof/Laws/Keeps.lean ====
section
/-! SUPPORT. The operations outside the jobs' blocks keep the queue of commands and the invariant of Safety.lean: `Keeps s t`, one lemma
per operation. -/

namespace Sys2Proof.Machine

/-- The queue of commands unchanged, and the invariant kept. -/
structure Keeps (s t : State) : Prop where
  pending : t.pending = s.pending
  inv : Inv s → Inv t

variable {s t u : State}

theorem Keeps.refl (s : State) : Keeps s s := ⟨rfl, id⟩

theorem Keeps.trans (h : Keeps s t) (k : Keeps t u) : Keeps s u := ⟨k.pending.trans h.pending, k.inv ∘ h.inv⟩

theorem Quiet.cells_eq (h : Quiet s t) : t.path.cells = s.path.cells := by
  have := congrArg (fun x => x.2.2.1.cells) h.out
  exact this

/-- A quiet change keeps the queue and the invariant. -/
theorem Quiet.keeps (h : Quiet s t) : Keeps s t where
  pending := congrArg (fun x => x.1) h.out
  inv := fun i =>
    { shape := h.shape.trans i.shape
      slots := by
        have hc : t.cmd = s.cmd := congrArg (fun x => x.2.2.2.2.1) h.out
        unfold SlotsWhole
        rw [hc]
        exact i.slots
      interlock := h.interlock i.interlock
      genDrives := h.gen i.genDrives
      memory := by rw [h.cells_eq]; exact i.memory
      log := ⟨h.log i.log.1, by
        have hc : t.log.count = s.log.count := congrArg (fun x => x.2.2.2.1.2.1) h.out
        rw [hc]; exact i.log.2⟩ }

/-- An update of one slot that keeps its words' number. -/
theorem slotsWhole_updAt {x : Commands} {i : Nat} {f : CommandSlot → CommandSlot} (hf : ∀ c, (f c).words.length = c.words.length)
    (h : SlotsWhole t) : SlotsWhole { t with cmd := { x with slots := updAt i f t.cmd.slots } } := by
  intro c hc
  rcases mem_updAt hc with hc | ⟨d, hd, rfl⟩
  · exact h c hc
  · rw [hf]
    exact h d hd

/-- The command slots of a reset hold seven words each. -/
theorem slotsWhole_reset {s : State} (h : s.cmd = Commands.reset := by rfl) : SlotsWhole s := by
  intro c hc
  rw [h] at hc
  rw [List.eq_of_mem_replicate hc]
  rfl

/-- A quiet change after one that keeps. -/
theorem Keeps.quiet (h : Keeps s t) (q : Quiet t u) : Keeps s u := h.trans q.keeps

theorem Quiet.after (q : Quiet t u) (h : Keeps s t) : Keeps s u := h.trans q.keeps

/-- A change of fields that the invariant does not read. -/
theorem Keeps.same (h : Keeps s t) (e : u.pending = t.pending) (x : u.src.xfer = t.src.xfer) (g : u.gen = t.gen)
    (c : u.path.cells = t.path.cells) (l : u.log = t.log) (w : u.cmd.slots = t.cmd.slots) (sh : Shape t → Shape u) : Keeps s u :=
  h.trans ⟨e, fun i => ⟨sh i.shape, by unfold SlotsWhole; rw [w]; exact i.slots, by rw [x]; exact i.interlock, by rw [g]; exact i.genDrives, by rw [c]; exact i.memory, by rw [l]; exact i.log⟩⟩

theorem Keeps.ite {c : Prop} [Decidable c] (h : Keeps s t) (k : Keeps s u) : Keeps s (if c then t else u) := by
  split <;> assumption

theorem Keeps.foldl {α : Type} {f : State → α → State} (hf : ∀ a u, Keeps s u → Keeps s (f u a)) :
    ∀ (l : List α) {t : State}, Keeps s t → Keeps s (l.foldl f t)
  | [], _, h => h
  | a :: l, t, h => Keeps.foldl hf l (hf a t h)

theorem Keeps.clk (h : Keeps s t) (x : Clock) : Keeps s { t with clk := x } := h.same rfl rfl rfl rfl rfl rfl id
theorem Keeps.st (h : Keeps s t) (x : Startup) : Keeps s { t with st := x } := h.same rfl rfl rfl rfl rfl rfl id
theorem Keeps.sil (h : Keeps s t) (x : Silence) : Keeps s { t with sil := x } := h.same rfl rfl rfl rfl rfl rfl id
theorem Keeps.pm (h : Keeps s t) (x : Meters) : Keeps s { t with pm := x } := h.same rfl rfl rfl rfl rfl rfl id
theorem Keeps.bus (h : Keeps s t) (x : Bus) : Keeps s { t with bus := x } := h.same rfl rfl rfl rfl rfl rfl id
theorem Keeps.settings (h : Keeps s t) (x : List Word) (h0 : x.length = t.settings.length) : Keeps s { t with settings := x } :=
  h.same rfl rfl rfl rfl rfl rfl fun hs => by simpa [Shape, Machine.shape, h0] using hs
theorem Keeps.cmd (h : Keeps s t) (x : Commands) (h0 : x.slots.length = t.cmd.slots.length)
    (hw : SlotsWhole t → SlotsWhole { t with cmd := x }) : Keeps s { t with cmd := x } :=
  h.trans ⟨rfl, fun i => ⟨by simpa [Shape, Machine.shape, h0] using i.shape, hw i.slots, i.interlock, i.genDrives, i.memory, i.log⟩⟩
theorem Keeps.scan (h : Keeps s t) (x : Scanner) (h0 : x.chans.length = t.scan.chans.length) : Keeps s { t with scan := x } :=
  h.same rfl rfl rfl rfl rfl rfl fun hs => by simpa [Shape, Machine.shape, h0] using hs
theorem Keeps.str (h : Keeps s t) (x : Strings) (h0 : x.recs.length = t.str.recs.length) (h1 : x.iso.length = t.str.iso.length) : Keeps s { t with str := x } :=
  h.same rfl rfl rfl rfl rfl rfl fun hs => by simpa [Shape, Machine.shape, h0, h1] using hs
theorem Keeps.ros (h : Keeps s t) (x : Roster) (h0 : x.mods.length = t.ros.mods.length) (h1 : x.inh.length = t.ros.inh.length) : Keeps s { t with ros := x } :=
  h.same rfl rfl rfl rfl rfl rfl fun hs => by simpa [Shape, Machine.shape, h0, h1] using hs
theorem Keeps.alm (h : Keeps s t) (x : Alarm) (h0 : x.points.length = t.alm.points.length) (h1 : x.copies.length = t.alm.copies.length) : Keeps s { t with alm := x } :=
  h.same rfl rfl rfl rfl rfl rfl fun hs => by simpa [Shape, Machine.shape, h0, h1] using hs
theorem Keeps.conds (h : Keeps s t) (x : List Bool) (h0 : x.length = t.conds.length) : Keeps s { t with conds := x } :=
  h.same rfl rfl rfl rfl rfl rfl fun hs => by simpa [Shape, Machine.shape, h0] using hs
theorem Keeps.inp (h : Keeps s t) (x : Inputs) (h0 : x.lines.length = t.inp.lines.length) (h1 : x.levels.length = t.inp.levels.length)
    (h2 : x.timers.length = t.inp.timers.length) (h3 : x.lastEdge.length = t.inp.lastEdge.length)
    (h4 : x.lastNamed.length = t.inp.lastNamed.length) (h5 : x.shown.length = t.inp.shown.length) : Keeps s { t with inp := x } :=
  h.same rfl rfl rfl rfl rfl rfl fun hs => by simpa [Shape, Machine.shape, h0, h1, h2, h3, h4, h5] using hs

/-- A change of the event log within its bounds. -/
theorem Keeps.log (h : Keeps s t) (x : Log) (hx : LogBounds t.log → LogBounds x) : Keeps s { t with log := x } :=
  h.trans ⟨rfl, fun i => ⟨i.shape, i.slots, i.interlock, i.genDrives, i.memory, hx i.log⟩⟩

/-- A change of the Memory Path that keeps the canonical form. -/
theorem setPath_keeps (h : Keeps s t) {f : Path → Path} (hf : Memory.wf t.path.cells = true → Memory.wf (f t.path).cells = true) :
    Keeps s (setPath f t) :=
  h.trans ⟨rfl, fun i => ⟨i.shape, i.slots, i.interlock, i.genDrives, hf i.memory, i.log⟩⟩

/-- The Memory Path replaced by one whose memory is canonical. -/
theorem Keeps.path (h : Keeps s t) (x : Path) (hx : Memory.wf t.path.cells = true → Memory.wf x.cells = true) :
    Keeps s { t with path := x } := h.trans ⟨rfl, fun i => ⟨i.shape, i.slots, i.interlock, i.genDrives, hx i.memory, i.log⟩⟩

/-- The generator's record replaced by one with the drives of its state. -/
theorem setGen_keeps (h : Keeps s t) {f : Gen → Gen} (hf : GenDrives t.gen → GenDrives (f t.gen)) : Keeps s (setGen f t) :=
  h.quiet (setGen_quiet (Quiet.refl t) hf)

theorem eachModule_keeps (h : Keeps s t) {f : Nat → State → State} {ms : List Nat} (hf : ∀ m u, Keeps s u → Keeps s (f m u)) :
    Keeps s (eachModule f ms t) := Keeps.foldl (f := fun u m => f m u) hf ms h

theorem eachString_keeps (h : Keeps s t) {f : Nat → State → State} {ks : List Nat} (hf : ∀ k u, Keeps s u → Keeps s (f k u)) :
    Keeps s (eachString f ks t) := Keeps.foldl (f := fun u k => f k u) hf ks h

theorem setStart_keeps (h : Keeps s t) {f : Startup → Startup} : Keeps s (setStart f t) := h.st _

/-- A host store keeps the memory's canonical form. -/
theorem hostStore_keeps (h : Keeps s t) {a : Nat} {v : Word} : Keeps s (hostStore a v t) :=
  h.trans ⟨rfl, fun i => ⟨i.shape, i.slots, i.interlock, i.genDrives, Path.store_wf _ _ _ i.memory, i.log⟩⟩

/-- A transfer whose drives a reset has left unpowered. -/
theorem interlock_unpowered : Interlock Xfer.cleared := fun h => by cases h

/-- The walk back counts at most as many entries as it may visit. -/
theorem countBack_le (ring : List (Option Nat)) : ∀ fuel seq, countBack ring fuel seq ≤ fuel
  | 0, _ => Nat.le_refl _
  | fuel + 1, seq => by
    unfold countBack
    split
    · split
      · omega
      · have := countBack_le ring fuel (seq - 1)
        omega
    · omega

/-- Replacing words keeps the number of settings words. -/
@[simp] theorem setWord_length (ss : List Word) (o : Nat) (v : Word) : (setWord ss o v).length = ss.length := by simp [setWord]

theorem foldl_setWord_length {f : Nat → Nat} {v : Nat → Word} :
    ∀ (l : List Nat) (ss : List Word), (l.foldl (fun a i => setWord a (f i) (v i)) ss).length = ss.length
  | [], _ => rfl
  | i :: l, ss => by
    rw [List.foldl_cons, foldl_setWord_length l]
    simp

@[simp] theorem inputDefaults_length (ss : List Word) : (inputDefaults ss).length = ss.length :=
  foldl_setWord_length (f := fun i => 0x270 + i) (v := fun i => defaultWord (0x270 + i)) _ _

/-! ## Measure -/

theorem scanChannel_keeps (h : Keeps s t) {c raw : Nat} : Keeps s (scanChannel c raw t) := by
  unfold scanChannel
  try dsimp only
  repeat' first
    | with_reducible assumption | with_reducible apply Quiet.after (logEv_quiet (Quiet.refl _)) | with_reducible apply Keeps.ite | split
    | with_reducible exact Keeps.same (by assumption) rfl rfl rfl rfl rfl rfl (by intro hs; simpa [Shape, shape] using hs)
    | (with_reducible refine Keeps.scan ?_ _ (by first | rfl | simp))

theorem scanAll_keeps (h : Keeps s t) {raw : List Nat} : Keeps s (scanAll raw t) := by
  unfold scanAll
  try dsimp only
  repeat' first
    | with_reducible assumption | with_reducible apply scanChannel_keeps | with_reducible apply Quiet.after (setCond_quiet (Quiet.refl _))
    | (with_reducible apply Keeps.foldl; intro _ _ _)

theorem scanCompletion_keeps (h : Keeps s t) {raw : List Nat} : Keeps s (scanCompletion raw t) := by
  unfold scanCompletion
  try dsimp only
  repeat' first
    | with_reducible assumption | with_reducible apply scanAll_keeps | with_reducible apply Quiet.after (noteLoadSeen_quiet (Quiet.refl _))
    | with_reducible apply Quiet.after (accountStrings_quiet (Quiet.refl _)) | with_reducible apply Keeps.ite | split
    | with_reducible exact Keeps.same (by assumption) rfl rfl rfl rfl rfl rfl (by intro hs; simpa [Shape, shape] using hs)
    | (with_reducible refine Keeps.st ?_ _)

theorem namedEdge_keeps (h : Keeps s t) {n : Nat} {level : Bool} {deb : Nat} : Keeps s (namedEdge n level deb t) := by
  unfold namedEdge
  try dsimp only
  repeat' first
    | with_reducible assumption | with_reducible apply Quiet.after (logEv_quiet (Quiet.refl _))
    | with_reducible apply Quiet.after (setCond_quiet (Quiet.refl _)) | with_reducible apply Keeps.ite | split
    | with_reducible exact Keeps.same (by assumption) rfl rfl rfl rfl rfl rfl (by intro hs; simpa [Shape, shape] using hs)
    | (with_reducible refine Keeps.inp ?_ _ (by first | rfl | simp) (by first | rfl | simp) (by first | rfl | simp) (by first | rfl | simp) (by first | rfl | simp) (by first | rfl | simp))

theorem handLevel_keeps (h : Keeps s t) {n : Nat} : Keeps s (handLevel n t) := by
  unfold handLevel
  repeat' first
    | with_reducible assumption | with_reducible apply Quiet.after (feedbackChanged_quiet (Quiet.refl _))
    | with_reducible apply Quiet.after (checkSwitches_quiet (Quiet.refl _)) | with_reducible apply Keeps.ite | split

theorem inputEdge_keeps (h : Keeps s t) {n : Nat} {level : Bool} {deb : Nat} : Keeps s (inputEdge n level deb t) := by
  unfold inputEdge
  try dsimp only
  repeat' first
    | with_reducible assumption | with_reducible apply namedEdge_keeps | with_reducible apply handLevel_keeps
    | with_reducible apply Keeps.ite | split
    | with_reducible exact Keeps.same (by assumption) rfl rfl rfl rfl rfl rfl (by intro hs; simpa [Shape, shape] using hs)
    | (with_reducible refine Keeps.inp ?_ _ (by first | rfl | simp) (by first | rfl | simp) (by first | rfl | simp) (by first | rfl | simp) (by first | rfl | simp) (by first | rfl | simp))

theorem lineChange_keeps (h : Keeps s t) {n : Nat} {high : Bool} : Keeps s (lineChange n high t) := by
  unfold lineChange
  try dsimp only
  repeat' first
    | with_reducible assumption | with_reducible apply inputEdge_keeps | with_reducible apply Keeps.ite | split
    | with_reducible exact Keeps.same (by assumption) rfl rfl rfl rfl rfl rfl (by intro hs; simpa [Shape, shape] using hs)
    | (with_reducible refine Keeps.inp ?_ _ (by first | rfl | simp) (by first | rfl | simp) (by first | rfl | simp) (by first | rfl | simp) (by first | rfl | simp) (by first | rfl | simp))

theorem debounceEnd_keeps (h : Keeps s t) {n : Nat} : Keeps s (debounceEnd n t) := by
  unfold debounceEnd
  repeat' first
    | with_reducible assumption | with_reducible apply inputEdge_keeps | split
    | with_reducible exact Keeps.same (by assumption) rfl rfl rfl rfl rfl rfl (by intro hs; simpa [Shape, shape] using hs)

theorem edgeAlarmCheck_keeps (h : Keeps s t) {n : Nat} : Keeps s (edgeAlarmCheck n t) := by
  unfold edgeAlarmCheck
  repeat' first
    | with_reducible assumption | with_reducible apply Quiet.after (setCond_quiet (Quiet.refl _)) | with_reducible apply Keeps.ite | split
    | with_reducible exact Keeps.same (by assumption) rfl rfl rfl rfl rfl rfl (by intro hs; simpa [Shape, shape] using hs)

theorem inputEvaluation_keeps (h : Keeps s t) : Keeps s (inputEvaluation t) := by
  have h0 : Keeps s { t with inp := { t.inp with shown := t.inp.levels } } :=
    h.same rfl rfl rfl rfl rfl rfl fun hs => by
      simp only [Shape, shape, List.cons.injEq] at hs ⊢
      simp [hs]
  exact edgeAlarmCheck_keeps (edgeAlarmCheck_keeps (edgeAlarmCheck_keeps h0))

theorem pm0Result_keeps (h : Keeps s t) {f : Nat} : Keeps s (pm0Result f t) := by
  unfold pm0Result
  try dsimp only
  repeat' first
    | with_reducible assumption | with_reducible apply Quiet.after (notePeak_quiet (Quiet.refl _))
    | with_reducible apply Quiet.after (noteRundown_quiet (Quiet.refl _))
    | with_reducible apply Quiet.after (genFrequency_quiet (Quiet.refl _)) | with_reducible apply setGen_keeps
    | exact fun hg => hg.congr rfl rfl rfl rfl | with_reducible apply Keeps.ite | split
    | with_reducible exact Keeps.same (by assumption) rfl rfl rfl rfl rfl rfl (by intro hs; simpa [Shape, shape] using hs)
    | (with_reducible refine Keeps.pm ?_ _)

theorem pm2Result_keeps (h : Keeps s t) {f : Nat} : Keeps s (pm2Result f t) := by
  unfold pm2Result
  try dsimp only
  repeat' first
    | with_reducible assumption | with_reducible apply Quiet.after (sourceFrequency_quiet (Quiet.refl _))
    | with_reducible apply Quiet.after (setMains_quiet (Quiet.refl _)) | with_reducible apply Keeps.ite
    | split | with_reducible exact Keeps.same (by assumption) rfl rfl rfl rfl rfl rfl (by intro hs; simpa [Shape, shape] using hs)
    | (with_reducible refine Keeps.pm ?_ _)

theorem tallyEdge_keeps (h : Keeps s t) : Keeps s (tallyEdge t) := by
  unfold tallyEdge
  repeat' first
    | with_reducible assumption | with_reducible apply Quiet.after (takeQuanta_quiet (Quiet.refl _)) | with_reducible apply Keeps.ite
    | split | with_reducible exact Keeps.same (by assumption) rfl rfl rfl rfl rfl rfl (by intro hs; simpa [Shape, shape] using hs)
    | (with_reducible refine Keeps.pm ?_ _)

theorem tallyQuantumStored_keeps (h : Keeps s t) : Keeps s (tallyQuantumStored t) := by
  unfold tallyQuantumStored
  try dsimp only
  repeat' first
    | with_reducible assumption | with_reducible apply Quiet.after (takeQuanta_quiet (Quiet.refl _))
    | with_reducible exact Keeps.same (by assumption) rfl rfl rfl rfl rfl rfl (by intro hs; simpa [Shape, shape] using hs)
    | (with_reducible refine Keeps.pm ?_ _)

theorem pm3Loss_keeps (h : Keeps s t) : Keeps s (pm3Loss t) := by
  unfold pm3Loss
  try dsimp only
  repeat' first
    | with_reducible assumption | with_reducible apply Quiet.after (senseLoss_quiet (Quiet.refl _)) | with_reducible apply Keeps.ite
    | split | with_reducible exact Keeps.same (by assumption) rfl rfl rfl rfl rfl rfl (by intro hs; simpa [Shape, shape] using hs)
    | (with_reducible refine Keeps.pm ?_ _)

theorem pm3Long_keeps (h : Keeps s t) : Keeps s (pm3Long t) := by
  unfold pm3Long
  try dsimp only
  repeat' first
    | with_reducible assumption | with_reducible apply Quiet.after (senseLong_quiet (Quiet.refl _)) | with_reducible apply Keeps.ite
    | split | with_reducible exact Keeps.same (by assumption) rfl rfl rfl rfl rfl rfl (by intro hs; simpa [Shape, shape] using hs)
    | (with_reducible refine Keeps.pm ?_ _)

theorem pm3Return_keeps (h : Keeps s t) {ms : Nat} : Keeps s (pm3Return ms t) := by
  unfold pm3Return
  try dsimp only
  repeat' first
    | with_reducible assumption | with_reducible apply pm3Long_keeps | with_reducible apply Quiet.after (senseReturn_quiet (Quiet.refl _))
    | with_reducible apply Keeps.ite | split
    | with_reducible exact Keeps.same (by assumption) rfl rfl rfl rfl rfl rfl (by intro hs; simpa [Shape, shape] using hs)
    | (with_reducible refine Keeps.pm ?_ _)

theorem pm3Second_keeps (h : Keeps s t) : Keeps s (pm3Second t) := by
  unfold pm3Second
  repeat' first
    | with_reducible assumption | with_reducible apply Keeps.ite | split
    | with_reducible exact Keeps.same (by assumption) rfl rfl rfl rfl rfl rfl (by intro hs; simpa [Shape, shape] using hs)
    | (with_reducible refine Keeps.pm ?_ _)

/-! ## Silence -/

theorem silenceTo_keeps (h : Keeps s t) {st : SilenceState} : Keeps s (silenceTo st t) := by
  unfold silenceTo
  repeat' first
    | with_reducible assumption | with_reducible apply Quiet.after (logEv_quiet (Quiet.refl _))
    | with_reducible apply Quiet.after (setCond_quiet (Quiet.refl _))
    | with_reducible exact Keeps.same (by assumption) rfl rfl rfl rfl rfl rfl (by intro hs; simpa [Shape, shape] using hs)
    | (with_reducible refine Keeps.sil ?_ _)

theorem heartbeat_keeps (h : Keeps s t) : Keeps s (heartbeat t) := by
  unfold heartbeat
  try dsimp only
  repeat' first
    | with_reducible assumption | with_reducible apply silenceTo_keeps | with_reducible apply Keeps.ite | split
    | with_reducible exact Keeps.same (by assumption) rfl rfl rfl rfl rfl rfl (by intro hs; simpa [Shape, shape] using hs)
    | (with_reducible refine Keeps.sil ?_ _)

theorem silenceEvaluation_keeps (h : Keeps s t) : Keeps s (silenceEvaluation t) := by
  unfold silenceEvaluation
  try dsimp only
  repeat' first
    | with_reducible assumption | with_reducible apply silenceTo_keeps | with_reducible apply Keeps.ite | split
    | with_reducible exact Keeps.same (by assumption) rfl rfl rfl rfl rfl rfl (by intro hs; simpa [Shape, shape] using hs)
    | (with_reducible refine Keeps.sil ?_ _)

theorem takeover_keeps (h : Keeps s t) : Keeps s (takeover t) := by
  unfold takeover
  repeat' first
    | with_reducible assumption | with_reducible apply Quiet.after (cancelEqualize_quiet (Quiet.refl _))
    | with_reducible apply Quiet.after (abortTest_quiet (Quiet.refl _))
    | with_reducible apply Quiet.after (removeRequest_quiet (Quiet.refl _))
    | with_reducible apply Quiet.after (refreshStringConds_quiet (Quiet.refl _))
    | with_reducible apply Quiet.after (abandonReconnect_quiet (Quiet.refl _))

theorem graceExpires_keeps (h : Keeps s t) : Keeps s (graceExpires t) := by
  unfold graceExpires
  repeat' first
    | with_reducible assumption | with_reducible apply silenceTo_keeps | with_reducible apply takeover_keeps
    | with_reducible apply Keeps.ite | split

theorem resumeCommand_keeps (h : Keeps s t) : Keeps s (resumeCommand t).1 := by
  unfold resumeCommand
  repeat' first
    | with_reducible assumption | with_reducible apply silenceTo_keeps | with_reducible apply Keeps.ite | split

/-! ## OwnCycle -/

theorem placeLogEntry_keeps (h : Keeps s t) : Keeps s (placeLogEntry t) := by
  unfold placeLogEntry
  split
  · split
    · next e r he =>
      refine Keeps.quiet (t := { t with log := { t.log with queue := r } }) (h.log _ fun hl => ⟨?_, hl.2⟩)
        (enqueueOwn_quiet (Quiet.refl _))
      have := hl.1
      rw [he] at this
      simp at this ⊢
      omega
    · exact h
  · exact h

theorem beginOwn_keeps (h : Keeps s t) : Keeps s (beginOwn t) := by
  unfold beginOwn
  try dsimp only
  repeat' first
    | with_reducible assumption | with_reducible apply setPath_keeps | with_reducible apply Keeps.ite | exact id
    | exact fun hc => Path.kept_wf _ _ _ _ hc | split
    | with_reducible exact Keeps.same (by assumption) rfl rfl rfl rfl rfl rfl (by intro hs; simpa [Shape, shape] using hs)

theorem setWorn_keeps (h : Keeps s t) : Keeps s (setWorn t) := by
  unfold setWorn
  repeat' first
    | with_reducible assumption | with_reducible apply Quiet.after (setCond_quiet (Quiet.refl _))

theorem remapWord_keeps (h : Keeps s t) {a : Nat} {v spareBack : Word} : Keeps s (remapWord a v spareBack t) := by
  unfold remapWord
  try dsimp only
  repeat' first
    | with_reducible assumption | with_reducible apply setPath_keeps | with_reducible apply setWorn_keeps
    | with_reducible apply Quiet.after (logEv_quiet (Quiet.refl _)) | with_reducible apply Quiet.after (enqueueOwn_quiet (Quiet.refl _))
    | with_reducible apply Keeps.ite | exact id | exact fun hc => Path.kept_wf _ _ _ _ hc | split
    | with_reducible exact Keeps.same (by assumption) rfl rfl rfl rfl rfl rfl (by intro hs; simpa [Shape, shape] using hs)

theorem verifyWrite_keeps (h : Keeps s t) {isRemap : Bool} {a : Nat} {v back spareBack : Word} : Keeps s (verifyWrite isRemap a v back spareBack t) := by
  unfold verifyWrite
  try dsimp only
  repeat' first
    | with_reducible assumption | with_reducible apply setPath_keeps | with_reducible apply setWorn_keeps
    | with_reducible apply remapWord_keeps | with_reducible apply Keeps.ite | exact id | exact fun hc => Path.kept_wf _ _ _ _ hc | split

theorem finishOwnWord_keeps (h : Keeps s t) {back spareBack : Word} : Keeps s (finishOwnWord back spareBack t) := by
  unfold finishOwnWord
  try dsimp only
  repeat' first
    | with_reducible assumption | with_reducible apply setPath_keeps | with_reducible apply verifyWrite_keeps
    | with_reducible apply Keeps.ite | exact id | exact fun hc => Path.kept_wf _ _ _ _ hc | split
    | with_reducible exact Keeps.same (by assumption) rfl rfl rfl rfl rfl rfl (by intro hs; simpa [Shape, shape] using hs)

theorem reportOwn_keeps (h : Keeps s t) {r : OwnRequest} : Keeps s (reportOwn r t) := by
  unfold reportOwn
  split
  · exact h.log _ fun hl => ⟨hl.1, Nat.min_le_left _ _⟩
  · split
    · exact Keeps.quiet (h.st _) (enqueueOwn_quiet (Quiet.refl _))
    · exact h
  all_goals exact h

theorem completeOwn_keeps (h : Keeps s t) : Keeps s (completeOwn t) := by
  unfold completeOwn
  try dsimp only
  repeat' first
    | with_reducible assumption | with_reducible apply setPath_keeps | with_reducible apply placeLogEntry_keeps
    | with_reducible apply reportOwn_keeps | with_reducible apply Keeps.ite | exact id | exact fun hc => Path.kept_wf _ _ _ _ hc | split
    | with_reducible exact Keeps.same (by assumption) rfl rfl rfl rfl rfl rfl (by intro hs; simpa [Shape, shape] using hs)

theorem cutOwnWord_keeps (h : Keeps s t) : Keeps s (cutOwnWord t) := by
  unfold cutOwnWord
  repeat' first
    | with_reducible assumption | with_reducible apply hostStore_keeps | with_reducible apply Keeps.ite | split
    | with_reducible exact Keeps.same (by assumption) rfl rfl rfl rfl rfl rfl (by intro hs; simpa [Shape, shape] using hs)

theorem endLoads_keeps (h : Keeps s t) : Keeps s (endLoads t) := setPath_keeps h id

theorem placeLoads_keeps (h : Keeps s t) {loads : List OwnRequest} : Keeps s (placeLoads loads t) := by
  unfold placeLoads
  split
  · exact Keeps.quiet (h.st _) (enqueueOwn_quiet (Quiet.refl _))
  · exact h.st _

/-! ## Reset -/

theorem resetBus_keeps (h : Keeps s t) {keepTrain : Bool} : Keeps s (resetBus keepTrain t) := by
  unfold resetBus
  try dsimp only
  repeat' first
    | with_reducible assumption | with_reducible apply Quiet.after (withdrawClaim_quiet (Quiet.refl _)) | with_reducible apply Keeps.ite
    | split | with_reducible exact Keeps.same (by assumption) rfl rfl rfl rfl rfl rfl (by intro hs; simpa [Shape, shape] using hs)
    | (with_reducible refine Keeps.bus ?_ _)

theorem ownPhaseConds_keeps (h : Keeps s t) : Keeps s (ownPhaseConds t) := h.conds _ (by simp)

theorem resetStrings_keeps (h : Keeps s t) {keepTrain keepStrings : Bool} : Keeps s (resetStrings keepTrain keepStrings t) := by
  have h0 : Keeps s (if keepStrings then t |> abandonReconnect .abandonedReset |> ownPhaseConds else { t with str := Strings.reset }) :=
    Keeps.ite (ownPhaseConds_keeps (h.quiet (abandonReconnect_quiet (Quiet.refl _))))
      (h.same rfl rfl rfl rfl rfl rfl fun hs => by
        simp only [Shape, shape, List.cons.injEq] at hs ⊢
        simp [hs, Strings.reset])
  exact h0.str _ rfl rfl

theorem resetTrain_keeps (h : Keeps s t) {k : Bool} : Keeps s (resetTrain k t) := by
  unfold resetTrain
  split
  · exact h
  · exact h.trans ⟨rfl, fun i => ⟨by
      have hs := i.shape
      simp only [Shape, shape, List.cons.injEq] at hs ⊢
      simp [hs, Roster.reset], i.slots, interlock_unpowered, Or.inr rfl, i.memory, i.log⟩⟩

/-- The blocks that restart at every reset keep the invariant. -/
theorem resetRest_keeps (h : Keeps s t) {msz : BitVec 2} {kind : ResetKind} {a b kt ks : Bool} {late l : List LogEvent}
    (hl : l.length ≤ 31) : Keeps s (resetRest msz kind a b kt ks late l t) :=
  h.trans ⟨rfl, fun i => ⟨by
      have hs := i.shape
      simp only [Shape, shape, List.cons.injEq] at hs ⊢
      simp [resetRest, hs, keptConds, Alarm.reset, Scanner.atReset, Inputs.reset, Commands.reset],
    slotsWhole_reset, i.interlock, i.genDrives, i.memory, ⟨by simp [resetRest]; omega, by simp [resetRest]⟩⟩⟩

/-- An abandoned reconnect makes two entries. -/
theorem abandonEntries_length (s : State) : (abandonEntries s).length ≤ 2 := by
  unfold abandonEntries
  split <;> simp

/-- A pin or soft reset keeps the queue and the invariant. -/
theorem warmReset_keeps (h : Keeps s t) {msz : BitVec 2} {kind : ResetKind} {a b : Bool} {l : List LogEvent} (hl : l.length ≤ 29) :
    Keeps s (warmReset msz kind a b l t) := by
  refine resetRest_keeps (resetTrain_keeps (resetBus_keeps (resetStrings_keeps (cutOwnWord_keeps h)))) ?_
  have := abandonEntries_length t
  rw [List.length_append]
  split <;> simp <;> omega

/-- A power-on keeps the queue and the invariant. -/
theorem powerOnReset_keeps (h : Keeps s t) {msz : BitVec 2} {lines : List Bool} {pin3 : Bool} (hlines : lines.length = 16) :
    Keeps s (powerOnReset msz lines pin3 t) := by
  have hc := cutOwnWord_keeps h
  exact ⟨h.pending, fun i => ⟨by
      simp [Shape, shape, powerOnReset, State.afterPowerOn, Strings.reset, Roster.reset, Alarm.reset, Scanner.reset, Inputs.reset,
        Commands.reset, resetSettings, hlines],
    slotsWhole_reset, interlock_unpowered, Or.inr rfl, (hc.inv i).memory,
    ⟨by simp [powerOnReset, State.afterPowerOn], by simp [powerOnReset, State.afterPowerOn]⟩⟩⟩

/-! ## Commands -/

theorem setClockCommand_keeps (h : Keeps s t) {hi lo : Word} : Keeps s (setClockCommand hi lo t).1 := by
  unfold setClockCommand
  try dsimp only
  repeat' first
    | with_reducible assumption | with_reducible apply Quiet.after (logEv_quiet (Quiet.refl _))
    | with_reducible apply Quiet.after (checkpoint_quiet (Quiet.refl _)) | with_reducible apply Quiet.after (setBus_quiet (Quiet.refl _))
    | with_reducible apply setGen_keeps | exact fun hg => hg.congr rfl rfl rfl rfl
    | with_reducible exact Keeps.same (by assumption) rfl rfl rfl rfl rfl rfl (by intro hs; simpa [Shape, shape] using hs)
    | (with_reducible refine Keeps.clk ?_ _)

theorem ackPointCommand_keeps (h : Keeps s t) {p : Nat} : Keeps s (ackPointCommand p t).1 := by
  unfold ackPointCommand
  try dsimp only
  repeat' first
    | with_reducible assumption | with_reducible apply Quiet.after (ackPoint_quiet (Quiet.refl _))
    | with_reducible apply Quiet.after (reportAck_quiet (Quiet.refl _)) | with_reducible apply Keeps.ite | split

theorem ackAllCommand_keeps (h : Keeps s t) : Keeps s (ackAllCommand t).1 := by
  unfold ackAllCommand
  try dsimp only
  repeat' first
    | with_reducible assumption | with_reducible apply Quiet.after (ackPoint_quiet (Quiet.refl _))
    | with_reducible apply Quiet.after (reportAck_quiet (Quiet.refl _)) | (with_reducible apply Keeps.foldl; intro _ _ _)

theorem settingsLockCommand_keeps (h : Keeps s t) : Keeps s (settingsLockCommand t).1 := by
  unfold settingsLockCommand
  repeat' first
    | with_reducible assumption | with_reducible apply Keeps.ite | split
    | with_reducible exact Keeps.same (by assumption) rfl rfl rfl rfl rfl rfl (by intro hs; simpa [Shape, shape] using hs)
    | (with_reducible refine Keeps.st ?_ _)

theorem logNoteCommand_keeps (h : Keeps s t) {slot : Nat} {a b : Word} : Keeps s (logNoteCommand slot a b t).1 := by
  unfold logNoteCommand
  repeat' first
    | with_reducible assumption | with_reducible apply Quiet.after (logEv_quiet (Quiet.refl _))

/-- A preset keeps the number of settings words. -/
theorem presetCopy_length (p : Nat) (c : Chemistry) (ss : List Word) : (presetCopy p c ss).length = ss.length := by
  unfold presetCopy
  exact foldl_setWord_length (f := fun w => 0x180 + 32 * p + w)
    (v := fun w => if w < 17 then wordOfInt (c.words.getD w 0) else defaultWord (0x180 + 32 * p + w)) _ _

theorem loadPresetCommand_keeps (h : Keeps s t) {p chem : Nat} : Keeps s (loadPresetCommand p chem t).1 := by
  unfold loadPresetCommand
  repeat' split
  all_goals first
    | exact h
    | exact Keeps.quiet (h.settings _ (presetCopy_length _ _ _)) (enqueueOwn_quiet (Quiet.refl _))

theorem runRule_keeps (h : Keeps s t) {slot op : Nat} : Keeps s (runRule slot op t).1 := by
  unfold runRule
  try dsimp only
  repeat' first
    | with_reducible assumption | with_reducible apply resumeCommand_keeps | with_reducible apply setClockCommand_keeps
    | with_reducible apply ackPointCommand_keeps | with_reducible apply ackAllCommand_keeps
    | with_reducible apply settingsLockCommand_keeps | with_reducible apply logNoteCommand_keeps
    | with_reducible apply loadPresetCommand_keeps | with_reducible apply Quiet.after (moduleService_quiet (Quiet.refl _))
    | with_reducible apply Quiet.after (moduleReturn_quiet (Quiet.refl _))
    | with_reducible apply Quiet.after (rotateNow_quiet (Quiet.refl _))
    | with_reducible apply Quiet.after (transferRetry_quiet (Quiet.refl _))
    | with_reducible apply Quiet.after (genRunCommand_quiet (Quiet.refl _))
    | with_reducible apply Quiet.after (genStopCommand_quiet (Quiet.refl _))
    | with_reducible apply Quiet.after (genResetCommand_quiet (Quiet.refl _))
    | with_reducible apply Quiet.after (genServiceCommand_quiet (Quiet.refl _))
    | with_reducible apply Quiet.after (stringIsolate_quiet (Quiet.refl _))
    | with_reducible apply Quiet.after (stringReconnect_quiet (Quiet.refl _))
    | with_reducible apply Quiet.after (equalizeStart_quiet (Quiet.refl _))
    | with_reducible apply Quiet.after (equalizeCancelCommand_quiet (Quiet.refl _))
    | with_reducible apply Quiet.after (testStartCommand_quiet (Quiet.refl _))
    | with_reducible apply Quiet.after (testAbortCommand_quiet (Quiet.refl _)) | split
    | with_reducible exact Keeps.same (by assumption) rfl rfl rfl rfl rfl rfl (by intro hs; simpa [Shape, shape] using hs)

theorem answer_keeps (h : Keeps s t) {slot op tag : Nat} {r : Reply} : Keeps s (answer slot op tag r t) := by
  unfold answer
  try dsimp only
  repeat' first
    | with_reducible assumption | with_reducible apply Quiet.after (logEv_quiet (Quiet.refl _))
    | with_reducible exact Keeps.same (by assumption) rfl rfl rfl rfl rfl rfl (by intro hs; simpa [Shape, shape] using hs)
    | (with_reducible refine Keeps.cmd ?_ _ (by first | rfl | simp) (by first | (with_unfolding_all exact id) | exact slotsWhole_updAt fun _ => by simp))

theorem softResetTaken_keeps (h : Keeps s t) {slot tag : Nat} : Keeps s (softResetTaken slot tag t) :=
  warmReset_keeps h (by simp)

theorem takeCommand_keeps (h : Keeps s t) {slot op tag : Nat} : Keeps s (takeCommand slot op tag t) := by
  unfold takeCommand
  try dsimp only
  repeat' first
    | with_reducible assumption | with_reducible apply runRule_keeps | with_reducible apply answer_keeps
    | with_reducible apply softResetTaken_keeps | with_reducible apply Keeps.ite | split
    | with_reducible exact Keeps.same (by assumption) rfl rfl rfl rfl rfl rfl (by intro hs; simpa [Shape, shape] using hs)

theorem captureWord_keeps (h : Keeps s t) {slot word : Nat} {v : Word} : Keeps s (captureWord slot word v t) := by
  unfold captureWord
  try dsimp only
  repeat' first
    | with_reducible assumption
    | with_reducible exact Keeps.same (by assumption) rfl rfl rfl rfl rfl rfl (by intro hs; simpa [Shape, shape] using hs)
    | (with_reducible refine Keeps.cmd ?_ _ (by first | rfl | simp) (by first | (with_unfolding_all exact id) | exact slotsWhole_updAt fun _ => by simp))

theorem checkpointAll_keeps (h : Keeps s t) : Keeps s (checkpointAll t) := by
  unfold checkpointAll
  try dsimp only
  repeat' first
    | with_reducible assumption | with_reducible apply Quiet.after (checkpoint_quiet (Quiet.refl _))
    | (with_reducible apply Keeps.foldl; intro _ _ _)

theorem countInterval_keeps (h : Keeps s t) : Keeps s (countInterval t) := by
  unfold countInterval
  repeat' first
    | with_reducible assumption | with_reducible apply checkpointAll_keeps | with_reducible apply Keeps.ite | split
    | with_reducible exact Keeps.same (by assumption) rfl rfl rfl rfl rfl rfl (by intro hs; simpa [Shape, shape] using hs)
    | (with_reducible refine Keeps.cmd ?_ _ (by first | rfl | simp) (by first | (with_unfolding_all exact id) | exact slotsWhole_updAt fun _ => by simp))

theorem commandEvaluation_keeps (h : Keeps s t) : Keeps s (commandEvaluation t) := by
  unfold commandEvaluation
  repeat' first
    | with_reducible assumption | with_reducible apply countInterval_keeps | with_reducible apply Keeps.ite | split
    | with_reducible exact Keeps.same (by assumption) rfl rfl rfl rfl rfl rfl (by intro hs; simpa [Shape, shape] using hs)
    | (with_reducible refine Keeps.cmd ?_ _ (by first | rfl | simp) (by first | (with_unfolding_all exact id) | exact slotsWhole_updAt fun _ => by simp))

theorem freezeWrite_keeps (h : Keeps s t) {one : Bool} : Keeps s (freezeWrite one t) := by
  unfold freezeWrite
  repeat' first
    | with_reducible assumption | with_reducible apply Keeps.ite | split
    | with_reducible exact Keeps.same (by assumption) rfl rfl rfl rfl rfl rfl (by intro hs; simpa [Shape, shape] using hs)
    | (with_reducible refine Keeps.cmd ?_ _ (by first | rfl | simp) (by first | (with_unfolding_all exact id) | exact slotsWhole_updAt fun _ => by simp))

theorem freezeExpires_keeps (h : Keeps s t) : Keeps s (freezeExpires t) := by
  unfold freezeExpires
  repeat' first
    | with_reducible assumption | with_reducible apply Keeps.ite | split
    | with_reducible exact Keeps.same (by assumption) rfl rfl rfl rfl rfl rfl (by intro hs; simpa [Shape, shape] using hs)
    | (with_reducible refine Keeps.cmd ?_ _ (by first | rfl | simp) (by first | (with_unfolding_all exact id) | exact slotsWhole_updAt fun _ => by simp))

/-! ## HostAccess -/

theorem refuseWrite_keeps (h : Keeps s t) {reason a : Nat} {v : Word} : Keeps s (refuseWrite reason a v t) := by
  unfold refuseWrite
  repeat' first
    | with_reducible assumption | with_reducible apply Quiet.after (logEv_quiet (Quiet.refl _)) | exact id
    | exact fun hc => Path.kept_wf _ _ _ _ hc
    | with_reducible exact Keeps.same (by assumption) rfl rfl rfl rfl rfl rfl (by intro hs; simpa [Shape, shape] using hs)
    | (with_reducible refine Keeps.path ?_ _ id)

theorem plantStored_keeps (h : Keeps s t) {i : Nat} : Keeps s (plantStored i t) := by
  unfold plantStored
  try dsimp only
  repeat' first
    | with_reducible assumption | with_reducible apply tallyQuantumStored_keeps
    | with_reducible apply Quiet.after (immediateShed_quiet (Quiet.refl _))
    | with_reducible apply Quiet.after (outageDelayStored_quiet (Quiet.refl _))
    | with_reducible apply Quiet.after (genCapacityStored_quiet (Quiet.refl _))
    | with_reducible apply Quiet.after (capacityStored_quiet (Quiet.refl _))
    | with_reducible apply Quiet.after (reclamp_quiet (Quiet.refl _))
    | with_reducible apply Quiet.after (busWindowStored_quiet (Quiet.refl _)) | with_reducible apply setGen_keeps
    | exact fun hg => hg.congr rfl rfl rfl rfl | with_reducible apply Keeps.ite | split
    | with_reducible exact Keeps.same (by assumption) rfl rfl rfl rfl rfl rfl (by intro hs; simpa [Shape, shape] using hs)

theorem alarmStored_keeps (h : Keeps s t) {p w : Nat} {old : Word} : Keeps s (alarmStored p w old t) := by
  unfold alarmStored
  repeat' first
    | with_reducible assumption | with_reducible apply Quiet.after (classChanged_quiet (Quiet.refl _))
    | with_reducible apply Quiet.after (latchingStored_quiet (Quiet.refl _)) | with_reducible apply Keeps.ite | split

theorem settingTaken_keeps (h : Keeps s t) {o : Nat} {old : Word} : Keeps s (settingTaken o old t) := by
  unfold settingTaken
  repeat' first
    | with_reducible assumption | with_reducible apply plantStored_keeps | with_reducible apply alarmStored_keeps
    | with_reducible apply Keeps.ite | split

theorem guardedStore_keeps (h : Keeps s t) {o a : Nat} {v : Word} : Keeps s (guardedStore o a v t) := by
  unfold guardedStore
  split
  · exact refuseWrite_keeps h
  · exact settingTaken_keeps ((hostStore_keeps h).settings _ (setWord_length _ _ _))

theorem slotWrite_keeps (h : Keeps s t) {slot word a : Nat} {v : Word} : Keeps s (slotWrite slot word a v t) := by
  unfold slotWrite
  try dsimp only
  repeat' first
    | with_reducible assumption | with_reducible apply hostStore_keeps | with_reducible apply takeCommand_keeps
    | with_reducible apply captureWord_keeps | with_reducible apply refuseWrite_keeps | with_reducible apply Keeps.ite | split

theorem liveWrite_keeps (h : Keeps s t) {o a : Nat} {v : Word} : Keeps s (liveWrite o a v t) := by
  unfold liveWrite
  repeat' first
    | with_reducible assumption | with_reducible apply freezeWrite_keeps | with_reducible apply refuseWrite_keeps
    | with_reducible apply Keeps.ite | split

theorem prWrite_keeps (h : Keeps s t) {o : Nat} {v : Word} : Keeps s (prWrite o v t) := by
  unfold prWrite
  try dsimp only
  repeat' first
    | with_reducible assumption | with_reducible apply hostStore_keeps | with_reducible apply heartbeat_keeps
    | with_reducible apply refuseWrite_keeps | with_reducible apply guardedStore_keeps | with_reducible apply slotWrite_keeps
    | with_reducible apply liveWrite_keeps | with_reducible apply Keeps.ite | split
    | with_reducible exact Keeps.same (by assumption) rfl rfl rfl rfl rfl rfl (by intro hs; simpa [Shape, shape] using hs)

theorem anchorWrite_keeps (h : Keeps s t) {word : Nat} {v : Word} : Keeps s (anchorWrite word v t) := by
  unfold anchorWrite
  try dsimp only
  repeat' first
    | with_reducible assumption | with_reducible apply hostStore_keeps | with_reducible apply refuseWrite_keeps
    | with_reducible apply Keeps.ite | split

theorem addrWrite_keeps (h : Keeps s t) {a : Nat} {v : Word} : Keeps s (addrWrite a v t) := by
  unfold addrWrite
  repeat' first
    | with_reducible assumption | with_reducible apply hostStore_keeps | with_reducible apply refuseWrite_keeps
    | with_reducible apply prWrite_keeps | with_reducible apply anchorWrite_keeps | split
    | with_reducible exact Keeps.same (by assumption) rfl rfl rfl rfl rfl rfl (by intro hs; simpa [Shape, shape] using hs)

theorem perform_keeps (h : Keeps s t) {x : HostAccess} : Keeps s (perform x t) := by
  unfold perform
  repeat' first
    | with_reducible assumption | with_reducible apply prWrite_keeps | with_reducible apply anchorWrite_keeps
    | with_reducible apply addrWrite_keeps | split
    | with_reducible exact Keeps.same (by assumption) rfl rfl rfl rfl rfl rfl (by intro hs; simpa [Shape, shape] using hs)

theorem arrive_keeps (h : Keeps s t) {x : HostAccess} : Keeps s (arrive x t) := by
  unfold arrive
  try dsimp only
  repeat' first
    | with_reducible assumption | with_reducible apply setPath_keeps | with_reducible apply perform_keeps | with_reducible apply Keeps.ite
    | exact id | exact fun hc => Path.kept_wf _ _ _ _ hc | split
    | with_reducible exact Keeps.same (by assumption) rfl rfl rfl rfl rfl rfl (by intro hs; simpa [Shape, shape] using hs)

theorem releaseHeld_keeps (h : Keeps s t) : Keeps s (releaseHeld t) := by
  unfold releaseHeld
  try dsimp only
  repeat' first
    | with_reducible assumption | with_reducible apply setPath_keeps | with_reducible apply arrive_keeps
    | (with_reducible apply Keeps.foldl; intro _ _ _) | exact id | exact fun hc => Path.kept_wf _ _ _ _ hc
    | with_reducible exact Keeps.same (by assumption) rfl rfl rfl rfl rfl rfl (by intro hs; simpa [Shape, shape] using hs)

theorem post_keeps (h : Keeps s t) {slot : Fin 16} {op : Nat} {tag : BitVec 8} : Keeps s (post slot op tag t) := by
  unfold post
  repeat' first
    | with_reducible assumption | with_reducible apply arrive_keeps

/-! ## Startup -/

theorem loadRemap_keeps (h : Keeps s t) : Keeps s (loadRemap t) := by
  unfold loadRemap
  try dsimp only
  repeat' first
    | with_reducible assumption | with_reducible apply setPath_keeps | with_reducible apply setWorn_keeps | with_reducible apply Keeps.ite
    | exact id | exact fun hc => Path.kept_wf _ _ _ _ hc | split
    | with_reducible exact Keeps.same (by assumption) rfl rfl rfl rfl rfl rfl (by intro hs; simpa [Shape, shape] using hs)

theorem dropModule_keeps (h : Keeps s t) {m : Nat} : Keeps s (dropModule m t) := by
  unfold dropModule
  try dsimp only
  repeat' first
    | with_reducible assumption | with_reducible apply Quiet.after (abandonSwap_quiet (Quiet.refl _)) | with_reducible apply Keeps.ite
    | split | with_reducible exact Keeps.same (by assumption) rfl rfl rfl rfl rfl rfl (by intro hs; simpa [Shape, shape] using hs)
    | (with_reducible refine Keeps.ros ?_ _ (by first | rfl | simp) (by first | rfl | simp))

theorem dropString_keeps (h : Keeps s t) {k : Nat} : Keeps s (dropString k t) := by
  unfold dropString
  repeat' first
    | with_reducible assumption | with_reducible apply Keeps.ite | split
    | with_reducible exact Keeps.same (by assumption) rfl rfl rfl rfl rfl rfl (by intro hs; simpa [Shape, shape] using hs)
    | (with_reducible refine Keeps.str ?_ _ (by first | rfl | simp) (by first | rfl | simp))

theorem takeDescriptor_keeps (h : Keeps s t) {d : Descriptor} : Keeps s (takeDescriptor d t) := by
  unfold takeDescriptor
  try dsimp only
  repeat' first
    | with_reducible assumption | with_reducible apply setStart_keeps | with_reducible apply dropModule_keeps
    | with_reducible apply dropString_keeps | with_reducible apply Quiet.after (refreshModuleConds_quiet (Quiet.refl _))
    | with_reducible apply Quiet.after (refreshStringConds_quiet (Quiet.refl _)) | with_reducible apply eachModule_keeps | intro _ _ _
    | with_reducible apply Keeps.ite | (with_reducible apply Keeps.foldl; intro _ _ _) | split
    | with_reducible exact Keeps.same (by assumption) rfl rfl rfl rfl rfl rfl (by intro hs; simpa [Shape, shape] using hs)

theorem judgeDescriptor_keeps (h : Keeps s t) : Keeps s (judgeDescriptor t) := by
  unfold judgeDescriptor
  try dsimp only
  repeat' first
    | with_reducible assumption | with_reducible apply setStart_keeps | with_reducible apply takeDescriptor_keeps | split
    | with_reducible exact Keeps.same (by assumption) rfl rfl rfl rfl rfl rfl (by intro hs; simpa [Shape, shape] using hs)

theorem loadAnchorEnds_keeps (h : Keeps s t) : Keeps s (loadAnchorEnds t) := by
  unfold loadAnchorEnds
  try dsimp only
  repeat' first
    | with_reducible assumption | with_reducible apply setStart_keeps | with_reducible apply placeLoads_keeps
    | with_reducible apply endLoads_keeps | with_reducible apply releaseHeld_keeps | with_reducible apply loadRemap_keeps | with_reducible apply judgeDescriptor_keeps
    | with_reducible apply Keeps.ite | split
    | with_reducible exact Keeps.same (by assumption) rfl rfl rfl rfl rfl rfl (by intro hs; simpa [Shape, shape] using hs)

theorem reportDefaulted_keeps (h : Keeps s t) {offsets : List Nat} : Keeps s (reportDefaulted offsets t) := by
  unfold reportDefaulted
  try dsimp only
  repeat' first
    | with_reducible assumption | with_reducible apply setStart_keeps | with_reducible apply Quiet.after (logEv_quiet (Quiet.refl _))
    | with_reducible apply Quiet.after (setCond_quiet (Quiet.refl _)) | split
    | with_reducible exact Keeps.same (by assumption) rfl rfl rfl rfl rfl rfl (by intro hs; simpa [Shape, shape] using hs)

theorem handSettings_keeps (h : Keeps s t) {ss : List Word} (hl : ss.length = 640) : Keeps s (handSettings ss t) := by
  have h1 : Keeps s { t with settings := ss, pm := { t.pm with counting := true }, scan := { t.scan with on := true } } :=
    h.same rfl rfl rfl rfl rfl rfl fun hs => by
      simp only [Shape, shape, List.cons.injEq] at hs ⊢
      simp [hs, hl]
  have h2 := eachString_keeps (f := capacityStored) (ks := List.range 4) h1 fun _ _ hu => hu.quiet (capacityStored_quiet (Quiet.refl _))
  unfold handSettings
  exact Keeps.ite (h2.quiet (genCapacityStored_quiet (immediateShed_quiet (busWindowStored_quiet (Quiet.refl _))))) h2

/-- A fold that replaces words keeps the length. -/
theorem loadedSettings_length (raw : List Word) : (loadedSettings raw).length = 640 := by
  unfold loadedSettings
  rw [foldl_setWord_length (f := fun o => o) (v := defaultWord)]
  simp [rangedSettings]

theorem loadsEnd_keeps (h : Keeps s t) : Keeps s (loadsEnd t) := releaseHeld_keeps (endLoads_keeps h)

theorem loadSettingsEnds_keeps (h : Keeps s t) : Keeps s (loadSettingsEnds t) := by
  unfold loadSettingsEnds
  split
  · exact placeLoads_keeps (setStart_keeps (handSettings_keeps (reportDefaulted_keeps (loadsEnd_keeps h)) (loadedSettings_length _)))
  · exact h

theorem restoreClock_keeps (h : Keeps s t) {good : Bool} {w : List Word} : Keeps s (restoreClock good w t) := by
  unfold restoreClock
  repeat' first
    | with_reducible assumption | with_reducible apply Keeps.ite | split
    | with_reducible exact Keeps.same (by assumption) rfl rfl rfl rfl rfl rfl (by intro hs; simpa [Shape, shape] using hs)
    | (with_reducible refine Keeps.clk ?_ _)

theorem restoreGen_keeps (h : Keeps s t) {good : Bool} {w : List Word} : Keeps s (restoreGen good w t) := by
  refine setGen_keeps h fun hg => ?_
  split <;> exact hg.congr rfl rfl rfl rfl

theorem restoreRecord_keeps (h : Keeps s t) {n : Nat} {w : List Word} : Keeps s (restoreRecord n w t) := by
  unfold restoreRecord
  try dsimp only
  repeat' first
    | with_reducible assumption | with_reducible apply restoreClock_keeps | with_reducible apply restoreGen_keeps
    | with_reducible apply Keeps.ite | split
    | with_reducible exact Keeps.same (by assumption) rfl rfl rfl rfl rfl rfl (by intro hs; simpa [Shape, shape] using hs)
    | (with_reducible refine Keeps.str ?_ _ (by first | rfl | simp) (by first | rfl | simp))
    | (with_reducible refine Keeps.ros ?_ _ (by first | rfl | simp) (by first | rfl | simp))

theorem loadCountersEnds_keeps (h : Keeps s t) : Keeps s (loadCountersEnds t) := by
  unfold loadCountersEnds
  try dsimp only
  repeat' first
    | with_reducible assumption | with_reducible apply setStart_keeps | with_reducible apply placeLoads_keeps | with_reducible apply loadsEnd_keeps
    | with_reducible apply restoreRecord_keeps | with_reducible apply Quiet.after (logEv_quiet (Quiet.refl _))
    | with_reducible apply Quiet.after (setCond_quiet (Quiet.refl _)) | with_reducible apply Keeps.ite
    | (with_reducible apply Keeps.foldl; intro _ _ _) | split
    | with_reducible exact Keeps.same (by assumption) rfl rfl rfl rfl rfl rfl (by intro hs; simpa [Shape, shape] using hs)

theorem scanLog_keeps (h : Keeps s t) {ring : List (Option Nat)} : Keeps s (scanLog ring t) := by
  unfold scanLog
  split
  · exact h.log _ fun hl => ⟨hl.1, Nat.zero_le _⟩
  · next x _ =>
    have hb := countBack_le ring 512 x
    generalize countBack ring 512 x = c at hb
    exact h.log _ fun hl => ⟨hl.1, hb⟩

theorem enterCommissioning_keeps (h : Keeps s t) : Keeps s (enterCommissioning t) := by
  unfold enterCommissioning
  refine Quiet.after (logEv_quiet (Quiet.refl _)) (h.trans ⟨rfl, fun i => ⟨?_, i.slots, interlock_unpowered, Or.inr rfl, i.memory, i.log⟩⟩)
  have hs := i.shape
  simp only [Shape, shape, List.cons.injEq] at hs ⊢
  simp [hs, Strings.reset, Roster.reset, Alarm.reset, commissioningConds]

theorem logScanEnds_keeps (h : Keeps s t) : Keeps s (logScanEnds t) := by
  unfold logScanEnds
  try dsimp only
  repeat' first
    | with_reducible assumption | with_reducible apply setStart_keeps | with_reducible apply placeLogEntry_keeps
    | with_reducible apply placeLoads_keeps | with_reducible apply loadsEnd_keeps | with_reducible apply scanLog_keeps | with_reducible apply enterCommissioning_keeps
    | with_reducible apply Keeps.ite | split
    | with_reducible exact Keeps.same (by assumption) rfl rfl rfl rfl rfl rfl (by intro hs; simpa [Shape, shape] using hs)

theorem rosterAtRun_keeps (h : Keeps s t) {ms : List Nat} : Keeps s (rosterAtRun ms t) := by
  have h0 : Keeps s { t with ros := { t.ros with
      mods := t.ros.mods.map (Option.map fun r : ModuleRec => { r with watch := 0 }), shedSpan := 0 } } := h.ros _ (by simp) rfl
  have h1 : Keeps s (setSwap (fun w => { w with lastSwap := now t }) t) := h.quiet (setSwap_quiet (Quiet.refl _))
  unfold rosterAtRun
  refine Keeps.quiet (Keeps.ite h0 h1) (refreshRosterConds_quiet (rosterSteps_quiet
    (immediateShed_quiet (eachModule_quiet (Quiet.refl _) fun _ _ hu => firstModuleState_quiet hu))))

theorem logLate_keeps (h : Keeps s t) : Keeps s (logLate t) := by
  unfold logLate
  try dsimp only
  repeat' first
    | with_reducible assumption | with_reducible apply setStart_keeps | with_reducible apply Quiet.after (logAt_quiet (Quiet.refl _))
    | (with_reducible apply Keeps.foldl; intro _ _ _)
    | with_reducible exact Keeps.same (by assumption) rfl rfl rfl rfl rfl rfl (by intro hs; simpa [Shape, shape] using hs)

theorem enterRun_keeps (h : Keeps s t) : Keeps s (enterRun t) := by
  unfold enterRun
  try dsimp only
  repeat' first
    | with_reducible assumption | with_reducible apply setStart_keeps | with_reducible apply logLate_keeps
    | with_reducible apply Quiet.after (logEv_quiet (Quiet.refl _))
    | with_reducible exact Keeps.same (by assumption) rfl rfl rfl rfl rfl rfl (by intro hs; simpa [Shape, shape] using hs)
    | (with_reducible refine Keeps.cmd ?_ _ (by first | rfl | simp) (by first | (with_unfolding_all exact id) | exact slotsWhole_updAt fun _ => by simp))

theorem settleEnds_keeps (h : Keeps s t) {sinceLossMs : Nat} : Keeps s (settleEnds sinceLossMs t) := by
  unfold settleEnds
  repeat' first
    | with_reducible assumption | with_reducible apply rosterAtRun_keeps
    | with_reducible apply enterRun_keeps | with_reducible apply Quiet.after (alarmEvaluation_quiet (Quiet.refl _))
    | with_reducible apply Quiet.after (alarmStart_quiet (Quiet.refl _))
    | with_reducible apply Quiet.after (sourceAtRun_quiet (Quiet.refl _))
    | with_reducible apply Quiet.after (genAtRun_quiet (Quiet.refl _))
    | with_reducible apply Quiet.after (stringsAtRun_quiet (Quiet.refl _))
    | with_reducible apply Quiet.after (busAtRun_quiet (Quiet.refl _)) | with_reducible apply Keeps.ite | split

theorem clockSecond_keeps (h : Keeps s t) : Keeps s (clockSecond t) := by
  unfold clockSecond
  repeat' first
    | with_reducible assumption | with_reducible apply pm3Second_keeps
    | with_reducible exact Keeps.same (by assumption) rfl rfl rfl rfl rfl rfl (by intro hs; simpa [Shape, shape] using hs)
    | (with_reducible refine Keeps.clk ?_ _)

end Sys2Proof.Machine
end

