-- ==== Sys2Proof/Laws/Reported.lean ====
section
/-! SUPPORT. What the claim table, the run requests and the points leave alone: `Reported s t` says that the strings, the modules, the
transfer, the mains but for the holding of MAINS_FAIL, and the regulator's outputs stand as they were. One lemma per operation. -/

namespace Sys2Proof.Machine

/-- Strings, roster, transfer, mains but for the holding of MAINS_FAIL, setpoint, VREF and ILIM unchanged. -/
def untouched (s : State) : Strings × Roster × Xfer × Mains × Option Int × Option Nat × Option Nat :=
  (s.str, s.ros, s.src.xfer, { s.src.mains with failHeld := false }, s.bus.setpoint, s.bus.vref, s.bus.ilim)

/-- A change that reports, claims or requests, and does not reach the blocks of `untouched`. -/
def Reported (s t : State) : Prop := untouched t = untouched s

variable {s t : State}

theorem Reported.refl (s : State) : Reported s s := rfl

theorem Reported.trans {u : State} (h : Reported s t) (k : Reported t u) : Reported s u := Eq.trans k h

theorem Reported.str_eq (h : Reported s t) : t.str = s.str := congrArg (·.1) h
theorem Reported.ros_eq (h : Reported s t) : t.ros = s.ros := congrArg (·.2.1) h
theorem Reported.xfer_eq (h : Reported s t) : t.src.xfer = s.src.xfer := congrArg (·.2.2.1) h
theorem Reported.mains_state_eq (h : Reported s t) : t.src.mains.state = s.src.mains.state := congrArg (·.2.2.2.1.state) h
theorem Reported.setpoint_eq (h : Reported s t) : t.bus.setpoint = s.bus.setpoint := congrArg (·.2.2.2.2.1) h
theorem Reported.vref_eq (h : Reported s t) : t.bus.vref = s.bus.vref := congrArg (·.2.2.2.2.2.1) h
theorem Reported.ilim_eq (h : Reported s t) : t.bus.ilim = s.bus.ilim := congrArg (·.2.2.2.2.2.2) h

/-- Nothing of `untouched` differs. -/
theorem Reported.same {u : State} (h : Reported s t) (e : untouched u = untouched t) : Reported s u := Eq.trans e h

theorem Reported.ite {u : State} {c : Prop} [Decidable c] (h : Reported s t) (k : Reported s u) : Reported s (if c then t else u) := by
  split <;> assumption

theorem Reported.foldl {α : Type} {f : State → α → State} (hf : ∀ a u, Reported s u → Reported s (f u a)) :
    ∀ (l : List α) {t : State}, Reported s t → Reported s (l.foldl f t)
  | [], _, h => h
  | a :: l, t, h => Reported.foldl hf l (hf a t h)

theorem Reported.bus (h : Reported s t) (x : Bus) (e : (x.setpoint, x.vref, x.ilim) = (t.bus.setpoint, t.bus.vref, t.bus.ilim)) :
    Reported s { t with bus := x } := by
  injection e with e1 e2
  injection e2 with e2 e3
  exact h.same (by simp [untouched, e1, e2, e3])
theorem Reported.alm (h : Reported s t) (x : Alarm) : Reported s { t with alm := x } := h.same rfl
theorem Reported.conds (h : Reported s t) (x : List Bool) : Reported s { t with conds := x } := h.same rfl
theorem Reported.setsGen (h : Reported s t) (x : Gen) : Reported s { t with gen := x } := h.same rfl

theorem logAt_rep (h : Reported s t) {time : Nat} {k : LogKind} {x a b : Word} : Reported s (logAt time k x a b t) := by
  unfold logAt
  split <;> exact h.same rfl
theorem logEv_rep (h : Reported s t) {k : LogKind} {x a b : Word} : Reported s (logEv k x a b t) := logAt_rep h
theorem enqueueOwn_rep (h : Reported s t) {r : OwnRequest} : Reported s (enqueueOwn r t) := h.same rfl
theorem checkpoint_rep (h : Reported s t) {n : Nat} : Reported s (checkpoint n t) := by
  unfold checkpoint
  repeat' split
  all_goals first | exact h | exact h.same rfl
theorem setGen_rep (h : Reported s t) {f : Gen → Gen} : Reported s (setGen f t) := h.same rfl
theorem setEq_rep (h : Reported s t) {f : EqualizeRec → EqualizeRec} : Reported s (setEq f t) := h.same rfl
theorem setTest_rep (h : Reported s t) {f : TestRec → TestRec} : Reported s (setTest f t) := h.same rfl
theorem setPoint_rep (h : Reported s t) {p : Nat} {f : PointRec → PointRec} : Reported s (setPoint p f t) := h.same rfl
theorem dropMainsFail_rep (h : Reported s t) : Reported s (dropMainsFail t) := h.same rfl

/-! ## Claims -/

theorem retarget_rep (h : Reported s t) : Reported s (retarget t) := by
  unfold retarget
  try dsimp only
  repeat' first
    | with_reducible assumption | (with_reducible refine Reported.bus ?_ _ rfl)

theorem postClaim_rep (h : Reported s t) {k : Slot} {level : Int} : Reported s (postClaim k level t) := by
  unfold postClaim
  repeat' first
    | with_reducible assumption | with_reducible apply retarget_rep | (with_reducible refine Reported.bus ?_ _ rfl)

theorem withdrawClaim_rep (h : Reported s t) {k : Slot} : Reported s (withdrawClaim k t) := by
  unfold withdrawClaim
  repeat' first
    | with_reducible assumption | with_reducible apply retarget_rep | with_reducible apply Reported.ite | split
    | (with_reducible refine Reported.bus ?_ _ rfl)

theorem postIfNew_rep (h : Reported s t) {k : Slot} {level : Int} : Reported s (postIfNew k level t) := by
  unfold postIfNew
  repeat' first
    | with_reducible assumption | with_reducible apply postClaim_rep | with_reducible apply Reported.ite | split

theorem wishClaim_rep (h : Reported s t) {k : Slot} {level : Option Int} : Reported s (wishClaim k level t) := by
  unfold wishClaim
  repeat' first
    | with_reducible assumption | with_reducible apply withdrawClaim_rep | with_reducible apply postIfNew_rep | split

theorem closeEqualize_rep (h : Reported s t) {o : EqualizeOutcome} : Reported s (closeEqualize o t) := by
  unfold closeEqualize
  repeat' first
    | with_reducible assumption | (with_reducible refine Reported.bus ?_ _ rfl)

theorem endEqualize_rep (h : Reported s t) {o : EqualizeOutcome} : Reported s (endEqualize o t) := by
  unfold endEqualize
  try dsimp only
  repeat' first
    | with_reducible assumption | with_reducible apply logEv_rep | with_reducible apply withdrawClaim_rep
    | with_reducible apply closeEqualize_rep

theorem cancelEqualize_rep (h : Reported s t) {o : EqualizeOutcome} : Reported s (cancelEqualize o t) := by
  unfold cancelEqualize
  repeat' first
    | with_reducible assumption | with_reducible apply endEqualize_rep | with_reducible apply Reported.ite | split

theorem closeTest_rep (h : Reported s t) {o : TestOutcome} : Reported s (closeTest o t) := by
  unfold closeTest
  repeat' first
    | with_reducible assumption | (with_reducible refine Reported.bus ?_ _ rfl)

theorem endTest_rep (h : Reported s t) {o : TestOutcome} : Reported s (endTest o t) := by
  unfold endTest
  try dsimp only
  repeat' first
    | with_reducible assumption | with_reducible apply logEv_rep | with_reducible apply withdrawClaim_rep
    | with_reducible apply closeTest_rep

theorem abortTest_rep (h : Reported s t) {o : TestOutcome} : Reported s (abortTest o t) := by
  unfold abortTest
  repeat' first
    | with_reducible assumption | with_reducible apply endTest_rep | with_reducible apply Reported.ite | split

/-! ## GenCore -/

theorem genEnter_rep (h : Reported s t) {st : GenState} {subject : Word} : Reported s (genEnter st subject t) := by
  unfold genEnter
  try dsimp only
  repeat' first
    | with_reducible assumption | with_reducible apply logEv_rep | with_reducible apply withdrawClaim_rep
    | with_reducible apply Reported.ite | split | with_reducible apply Reported.setsGen

theorem addAttempt_rep (h : Reported s t) {o : AttemptOutcome} {peak : Nat} : Reported s (addAttempt o peak t) := by
  unfold addAttempt
  repeat' first
    | with_reducible assumption | with_reducible apply logEv_rep | with_reducible apply Reported.setsGen

theorem seriesStart_rep (h : Reported s t) : Reported s (seriesStart t) := by
  unfold seriesStart
  repeat' first
    | with_reducible assumption | with_reducible apply genEnter_rep | with_reducible apply Reported.ite | split
    | with_reducible apply Reported.setsGen

theorem abandonSeries_rep (h : Reported s t) {toDisabled : Bool} : Reported s (abandonSeries toDisabled t) := by
  unfold abandonSeries
  try dsimp only
  repeat' first
    | with_reducible assumption | with_reducible apply genEnter_rep | with_reducible apply addAttempt_rep | split
    | with_reducible apply Reported.setsGen

theorem addRequest_rep (h : Reported s t) {k : RequestKind} {load : Bool} {endTime : Nat} : Reported s (addRequest k load endTime t) := by
  unfold addRequest
  try dsimp only
  repeat' first
    | with_reducible assumption | with_reducible apply logEv_rep | with_reducible apply genEnter_rep
    | with_reducible apply seriesStart_rep | with_reducible apply Reported.ite | split | with_reducible apply Reported.setsGen

theorem refuseRequest_rep (h : Reported s t) {k : RequestKind} {reason : Word} : Reported s (refuseRequest k reason t) := by
  unfold refuseRequest
  try dsimp only
  repeat' first
    | with_reducible assumption | with_reducible apply logEv_rep | with_reducible apply dropMainsFail_rep
    | with_reducible apply Reported.ite | split

theorem postRequest_rep (h : Reported s t) {k : RequestKind} {load : Bool} {endTime : Nat} : Reported s (postRequest k load endTime t) := by
  unfold postRequest
  repeat' first
    | with_reducible assumption | with_reducible apply addRequest_rep | with_reducible apply refuseRequest_rep
    | with_reducible apply Reported.ite | split

theorem removeRequest_rep (h : Reported s t) {k : RequestKind} {reason : Word} : Reported s (removeRequest k reason t) := by
  unfold removeRequest
  try dsimp only
  repeat' first
    | with_reducible assumption | with_reducible apply logEv_rep | with_reducible apply dropMainsFail_rep
    | with_reducible apply abandonSeries_rep | with_reducible apply Reported.ite | split | with_reducible apply Reported.setsGen

theorem fuelCriticalNotice_rep (h : Reported s t) : Reported s (fuelCriticalNotice t) := by
  unfold fuelCriticalNotice
  repeat' first
    | with_reducible assumption | with_reducible apply removeRequest_rep

theorem genClaimCheck_rep (h : Reported s t) : Reported s (genClaimCheck t) := by
  unfold genClaimCheck
  try dsimp only
  repeat' first
    | with_reducible assumption | with_reducible apply wishClaim_rep | with_reducible apply Reported.ite | split

theorem noticeOnGen_rep (h : Reported s t) : Reported s (noticeOnGen t) := by
  unfold noticeOnGen
  try dsimp only
  repeat' first
    | with_reducible assumption | with_reducible apply genEnter_rep | with_reducible apply genClaimCheck_rep
    | with_reducible apply Reported.ite | split | with_reducible apply Reported.setsGen

theorem noticeLeftForOpening_rep (h : Reported s t) : Reported s (noticeLeftForOpening t) := by
  unfold noticeLeftForOpening
  repeat' first
    | with_reducible assumption | with_reducible apply withdrawClaim_rep | with_reducible apply genEnter_rep
    | with_reducible apply Reported.ite | split

theorem noticeLeftForFault_rep (h : Reported s t) : Reported s (noticeLeftForFault t) := by
  unfold noticeLeftForFault
  repeat' first
    | with_reducible assumption | with_reducible apply withdrawClaim_rep | with_reducible apply genEnter_rep
    | with_reducible apply Reported.ite | split

/-! ## Flags -/

theorem refreshOutputs_rep (h : Reported s t) : Reported s (refreshOutputs t) := by
  unfold refreshOutputs
  repeat' first
    | with_reducible assumption | with_reducible apply Reported.ite | split | with_reducible apply Reported.alm

theorem movePoint_rep (h : Reported s t) {p : Nat} {st : PointState} {timer : Option Nat} : Reported s (movePoint p st timer t) := by
  unfold movePoint
  try dsimp only
  repeat' first
    | with_reducible assumption | with_reducible apply setPoint_rep | with_reducible apply refreshOutputs_rep

theorem logPoint_rep (h : Reported s t) {p : Nat} {old new : PointState} : Reported s (logPoint p old new t) := by
  unfold logPoint
  repeat' first
    | with_reducible assumption | with_reducible apply logEv_rep

theorem cancelRaise_rep (h : Reported s t) {p : Nat} : Reported s (cancelRaise p t) := by
  unfold cancelRaise
  repeat' first
    | with_reducible assumption | with_reducible apply movePoint_rep | with_reducible apply logPoint_rep
    | with_reducible apply Reported.ite | split

theorem cancelChildren_rep (h : Reported s t) {p : Nat} : Reported s (cancelChildren p t) := by
  unfold cancelChildren
  try dsimp only
  repeat' first
    | with_reducible assumption | with_reducible apply cancelRaise_rep | (with_reducible apply Reported.foldl; intro _ _ _)

theorem reportActive_rep (h : Reported s t) {p : Nat} : Reported s (reportActive p t) := by
  unfold reportActive
  try dsimp only
  repeat' first
    | with_reducible assumption | with_reducible apply cancelEqualize_rep | with_reducible apply abortTest_rep
    | with_reducible apply fuelCriticalNotice_rep | with_reducible apply Reported.ite | split

theorem fireRaise_rep (h : Reported s t) {p : Nat} {old : PointState} : Reported s (fireRaise p old t) := by
  unfold fireRaise
  try dsimp only
  repeat' first
    | with_reducible assumption | with_reducible apply setPoint_rep | with_reducible apply movePoint_rep
    | with_reducible apply logPoint_rep | with_reducible apply cancelChildren_rep | with_reducible apply reportActive_rep

theorem becomeTrue_rep (h : Reported s t) {p : Nat} : Reported s (becomeTrue p t) := by
  unfold becomeTrue
  try dsimp only
  repeat' first
    | with_reducible assumption | with_reducible apply movePoint_rep | with_reducible apply logPoint_rep
    | with_reducible apply fireRaise_rep | with_reducible apply Reported.ite | split

theorem judgeChildren_rep (h : Reported s t) {p : Nat} : Reported s (judgeChildren p t) := by
  unfold judgeChildren
  try dsimp only
  repeat' first
    | with_reducible assumption | with_reducible apply becomeTrue_rep | with_reducible apply Reported.ite
    | (with_reducible apply Reported.foldl; intro _ _ _) | split

theorem fireClear_rep (h : Reported s t) {p : Nat} {old : PointState} {acked : Bool} : Reported s (fireClear p old acked t) := by
  unfold fireClear
  try dsimp only
  repeat' first
    | with_reducible assumption | with_reducible apply movePoint_rep | with_reducible apply logPoint_rep
    | with_reducible apply judgeChildren_rep | with_reducible apply Reported.ite | split

theorem becomeFalse_rep (h : Reported s t) {p : Nat} : Reported s (becomeFalse p t) := by
  unfold becomeFalse
  try dsimp only
  repeat' first
    | with_reducible assumption | with_reducible apply setPoint_rep | with_reducible apply movePoint_rep
    | with_reducible apply cancelRaise_rep | with_reducible apply fireClear_rep | with_reducible apply Reported.ite | split

theorem setCopy_rep (h : Reported s t) {p : Nat} {b : Bool} : Reported s (setCopy p b t) := by
  unfold setCopy
  try dsimp only
  repeat' first
    | with_reducible assumption | with_reducible apply becomeTrue_rep | with_reducible apply becomeFalse_rep
    | with_reducible apply Reported.ite | split | with_reducible apply Reported.alm

theorem setCond_rep (h : Reported s t) {p : Nat} {b : Bool} : Reported s (setCond p b t) := by
  unfold setCond
  repeat' first
    | with_reducible assumption | with_reducible apply setCopy_rep | with_reducible apply Reported.conds

theorem alarmEvaluation_rep (h : Reported s t) : Reported s (alarmEvaluation t) := by
  unfold alarmEvaluation
  try dsimp only
  repeat' first
    | with_reducible assumption | with_reducible apply setCopy_rep | (with_reducible apply Reported.foldl; intro _ _ _)

theorem ackPoint_rep (h : Reported s t) {p : Nat} : Reported s (ackPoint p t) := by
  unfold ackPoint
  repeat' first
    | with_reducible assumption | with_reducible apply movePoint_rep | with_reducible apply logPoint_rep | split

theorem reportAck_rep (h : Reported s t) : Reported s (reportAck t) := by
  unfold reportAck
  repeat' first
    | with_reducible assumption | with_reducible apply Reported.ite | split | with_reducible apply Reported.setsGen

theorem classChanged_rep (h : Reported s t) {p : Nat} {old : Nat} : Reported s (classChanged p old t) := by
  unfold classChanged
  try dsimp only
  repeat' first
    | with_reducible assumption | with_reducible apply abortTest_rep | with_reducible apply refreshOutputs_rep
    | with_reducible apply movePoint_rep | with_reducible apply logPoint_rep | with_reducible apply becomeTrue_rep
    | with_reducible apply judgeChildren_rep | with_reducible apply Reported.ite | split

theorem latchingStored_rep (h : Reported s t) {p : Nat} : Reported s (latchingStored p t) := by
  unfold latchingStored
  repeat' first
    | with_reducible assumption | with_reducible apply movePoint_rep | with_reducible apply logPoint_rep
    | with_reducible apply Reported.ite | split

theorem judgeCond_rep (h : Reported s t) {p : Nat} {b : Bool} : Reported s (judgeCond p b t) := by
  unfold judgeCond
  repeat' first
    | with_reducible assumption | with_reducible apply setCond_rep | split

theorem presentConds_rep (h : Reported s t) {ids : List Nat} : Reported s (presentConds ids t) :=
  Reported.foldl (f := fun u p => setCopy p (condOf u p) u) (fun _ _ hu => setCopy_rep hu) ids h

theorem alarmStart_rep (h : Reported s t) : Reported s (alarmStart t) := by
  unfold alarmStart
  try dsimp only
  repeat' first
    | with_reducible assumption | with_reducible apply refreshOutputs_rep | with_reducible apply becomeTrue_rep
    | with_reducible apply Reported.ite | (with_reducible apply Reported.foldl; intro _ _ _) | split

end Sys2Proof.Machine
end

