-- ==== Sys2Proof/Laws/Records.lean ====
section
/-! SUPPORT. What an answer, a wished claim, a generator's state, a rebuilt record and the check of MAINS_FAIL come to: one lemma per
operation. -/

namespace Sys2Proof.Machine

variable {s t : State} {slot : Fin 16} {tag : BitVec 8} {r : Reply}

/-- An update of one place of a list is that place set. -/
theorem updAt_eq_set {α : Type} (f : α → α) (d : α) : ∀ (l : List α) (i : Nat), i < l.length → updAt i f l = l.set i (f (l.getD i d))
  | [], _, h => absurd h (Nat.not_lt_zero _)
  | _ :: _, 0, _ => rfl
  | a :: l, i + 1, h => congrArg (a :: ·) (updAt_eq_set f d l i (Nat.lt_of_succ_lt_succ h))

/-- A log event that finds room joins the queue, and carries the gap mark. -/
theorem logEv_room {k : LogKind} {x a b : Word} (h : s.log.queue.length < 32) :
    (logEv k x a b s).log = { s.log with queue := s.log.queue ++ [⟨k, x, a, b, now s, s.log.gap⟩], gap := false } := by
  simp only [logEv, logAt, h, if_true]

/-- A log event that finds the queue full sets the gap flag. -/
theorem logEv_full {k : LogKind} {x a b : Word} (h : 32 ≤ s.log.queue.length) :
    (logEv k x a b s).log = { s.log with gap := true } := by
  simp only [logEv, logAt, Nat.not_lt.mpr h, if_false]

/-- An answer writes the code and the detail of its slot, and nothing else of the command window. -/
theorem answer_cmd {op n : Nat} (h : slot.val < t.cmd.slots.length) : (answer slot.val op n r t).cmd = { t.cmd with
    slots := t.cmd.slots.set slot.val { t.cmd.slots.getD slot.val .cleared with code := r.1, detail := r.2 } } := by
  rw [← updAt_eq_set (fun c => { c with code := r.1, detail := r.2 }) _ _ _ h]
  exact congrArg (·.2.2.2.2.1) (logEv_quiet (Quiet.refl _)).out

/-- A slot of the claim table reads what was put into it. -/
theorem Claims.get_put (c : Claims) (k : Slot) (v : Option Claim) : (c.put k v).get k = v := by cases k <;> rfl

/-- Another slot reads what it held. -/
theorem Claims.get_put_ne {c : Claims} {j k : Slot} {v : Option Claim} (h : j ≠ k) : (c.put k v).get j = c.get j := by
  cases j <;> cases k <;> first | rfl | exact absurd rfl h

/-- The slot of a claim posted when it is new. -/
theorem postIfNew_get {k : Slot} {l : Int} : (postIfNew k l s).bus.claims.get k = wished (now s) l (s.bus.claims.get k) := by
  unfold postIfNew claimIs wished
  split <;> simp_all [postClaim, retarget, Claims.get_put]

/-- The slot of a claim withdrawn. -/
theorem withdrawClaim_get {k : Slot} : (withdrawClaim k s).bus.claims.get k = none := by
  unfold withdrawClaim
  split
  · exact Claims.get_put _ _ _
  · simp_all

/-- The generator's record in CRANKING and in CRANK_REST. -/
theorem enter_standing {g : Gen} {st : GenState} {n : Nat} (hs : st = .cranking ∨ st = .crankRest) :
    g.enter st n = { g.standing st n with pre := st.outputs.1, run := st.outputs.2.1, crank := st.outputs.2.2 } := by
  rcases hs with rfl | rfl <;> simp [Gen.enter, Gen.standing, GenState.timed, GenState.running]

/-- A string's record rebuilt from a good counter record. -/
theorem rebuiltString_good {k : Nat} {w : List Word} : rebuiltString s k true w = { StringRec.fresh (strProfile s.settings k) with
    deficit := min (fieldNat w 1) (strCapacity s.settings k), throughputIn := fieldNat w 3, throughputOut := fieldNat w 4,
    lastFull := fieldPair w 5, lastEqualize := fieldPair w 7, baseline := (w.getD 9 0).toInt } := rfl

/-- A string's record rebuilt from a bad counter record. -/
theorem rebuiltString_bad {k : Nat} {w : List Word} : rebuiltString s k false w = { StringRec.fresh (strProfile s.settings k) with
    lastEqualize := now s, baseline := max 5 (percentC s.settings k (profWord s.settings (strProfile s.settings k) 6) : Int) } := rfl

/-- With nothing to post or withdraw the check of MAINS_FAIL changes nothing. -/
theorem checkMainsFail_settled (hp : s.src.mains.failHeld = false → mainsFailDue s = false)
    (hw : s.src.mains.failHeld = true → mainsFailOver s = false) : checkMainsFail s = s := by
  cases h : s.src.mains.failHeld <;> simp_all [checkMainsFail, withdrawMainsFail]

/-- The holding of MAINS_FAIL changes. -/
theorem failHeld_rep (h : Reported s t) {b : Bool} : Reported s (setMains (fun m => { m with failHeld := b }) t) := h.same rfl

/-- The check of MAINS_FAIL reaches the holding and the generator's requests alone. -/
theorem checkMainsFail_rep (h : Reported s t) : Reported s (checkMainsFail t) := by
  unfold checkMainsFail withdrawMainsFail
  try dsimp only
  repeat' first
    | with_reducible assumption | with_reducible apply removeRequest_rep | with_reducible apply postRequest_rep
    | with_reducible apply failHeld_rep | with_reducible apply Reported.ite

theorem checkMainsFail_xfer : (checkMainsFail s).src.xfer = s.src.xfer := (checkMainsFail_rep (Reported.refl s)).xfer_eq

end Sys2Proof.Machine
end

