-- ==== Sys2Proof/Laws/Shelf.lean ====
section
/-! SUPPORT. What the roster's operations leave alone: `Shelf s t` says that the strings, the bus, the source, the generator, the points and
the conditions stand as they were. One lemma per operation. -/

namespace Sys2Proof.Machine

/-- Strings, bus, source, generator, points and conditions. -/
def offShelf (s : State) : Strings × Bus × Source × Gen × Alarm × List Bool := (s.str, s.bus, s.src, s.gen, s.alm, s.conds)

/-- A change confined to the roster, the own-cycle queue and the log. -/
def Shelf (s t : State) : Prop := offShelf t = offShelf s

variable {s t : State}

theorem Shelf.refl (s : State) : Shelf s s := rfl

theorem Shelf.trans {u : State} (h : Shelf s t) (k : Shelf t u) : Shelf s u := Eq.trans k h

theorem Shelf.str_eq (h : Shelf s t) : t.str = s.str := congrArg (·.1) h
theorem Shelf.bus_eq (h : Shelf s t) : t.bus = s.bus := congrArg (·.2.1) h
theorem Shelf.src_eq (h : Shelf s t) : t.src = s.src := congrArg (·.2.2.1) h
theorem Shelf.gen_eq (h : Shelf s t) : t.gen = s.gen := congrArg (·.2.2.2.1) h
theorem Shelf.alm_eq (h : Shelf s t) : t.alm = s.alm := congrArg (·.2.2.2.2.1) h
theorem Shelf.conds_eq (h : Shelf s t) : t.conds = s.conds := congrArg (·.2.2.2.2.2) h

theorem Shelf.same {u : State} (h : Shelf s t) (e : offShelf u = offShelf t) : Shelf s u := Eq.trans e h

theorem Shelf.ite {u : State} {c : Prop} [Decidable c] (h : Shelf s t) (k : Shelf s u) : Shelf s (if c then t else u) := by
  split <;> assumption

theorem Shelf.foldl {α : Type} {f : State → α → State} (hf : ∀ a u, Shelf s u → Shelf s (f u a)) :
    ∀ (l : List α) {t : State}, Shelf s t → Shelf s (l.foldl f t)
  | [], _, h => h
  | a :: l, t, h => Shelf.foldl hf l (hf a t h)

theorem Shelf.ros (h : Shelf s t) (x : Roster) : Shelf s { t with ros := x } := h.same rfl

theorem logAt_shelf (h : Shelf s t) {time : Nat} {k : LogKind} {x a b : Word} : Shelf s (logAt time k x a b t) := by
  unfold logAt
  split <;> exact h.same rfl
theorem logEv_shelf (h : Shelf s t) {k : LogKind} {x a b : Word} : Shelf s (logEv k x a b t) := logAt_shelf h
theorem checkpoint_shelf (h : Shelf s t) {n : Nat} : Shelf s (checkpoint n t) := by
  unfold checkpoint
  repeat' split
  all_goals first | exact h | exact h.same rfl
theorem setMod_shelf (h : Shelf s t) {m : Nat} {f : ModuleRec → ModuleRec} : Shelf s (setMod m f t) := h.same rfl
theorem setSwap_shelf (h : Shelf s t) {f : Swap → Swap} : Shelf s (setSwap f t) := h.same rfl
theorem eachModule_shelf (h : Shelf s t) {f : Nat → State → State} {ms : List Nat} (hf : ∀ m u, Shelf s u → Shelf s (f m u)) :
    Shelf s (eachModule f ms t) := Shelf.foldl (f := fun u m => f m u) hf ms h

theorem modEnter_shelf (h : Shelf s t) {m : Nat} {st : ModState} : Shelf s (modEnter m st t) := by
  unfold modEnter
  try dsimp only
  repeat' first
    | with_reducible assumption | with_reducible apply logEv_shelf | with_reducible apply checkpoint_shelf
    | with_reducible apply setMod_shelf | with_reducible apply Shelf.ite | split | with_reducible apply Shelf.ros

theorem stopModule_shelf (h : Shelf s t) {m : Nat} {toService : Bool} : Shelf s (stopModule m toService t) := by
  unfold stopModule
  try dsimp only
  repeat' first
    | with_reducible assumption | with_reducible apply setMod_shelf | with_reducible apply modEnter_shelf

theorem startModule_shelf (h : Shelf s t) {m : Nat} : Shelf s (startModule m t) := by
  unfold startModule
  try dsimp only
  repeat' first
    | with_reducible assumption | with_reducible apply setMod_shelf | with_reducible apply modEnter_shelf

theorem abandonSwap_shelf (h : Shelf s t) {o : SwapOutcome} : Shelf s (abandonSwap o t) := by
  unfold abandonSwap
  try dsimp only
  repeat' first
    | with_reducible assumption | with_reducible apply logEv_shelf | with_reducible apply setSwap_shelf

theorem completeSwap_shelf (h : Shelf s t) : Shelf s (completeSwap t) := by
  unfold completeSwap
  try dsimp only
  repeat' first
    | with_reducible assumption | with_reducible apply logEv_shelf | with_reducible apply setSwap_shelf
    | with_reducible apply stopModule_shelf | with_reducible apply Shelf.ite | split

theorem startSwap_shelf (h : Shelf s t) {inn out : Nat} : Shelf s (startSwap inn out t) := by
  unfold startSwap
  try dsimp only
  repeat' first
    | with_reducible assumption | with_reducible apply setSwap_shelf | with_reducible apply startModule_shelf

theorem strike_shelf (h : Shelf s t) {m cause : Nat} : Shelf s (strike m cause t) := by
  unfold strike
  try dsimp only
  repeat' first
    | with_reducible assumption | with_reducible apply logEv_shelf | with_reducible apply setMod_shelf
    | with_reducible apply modEnter_shelf | with_reducible apply abandonSwap_shelf | with_reducible apply Shelf.ite | split

theorem confirmStart_shelf (h : Shelf s t) {m : Nat} : Shelf s (confirmStart m t) := by
  unfold confirmStart
  try dsimp only
  repeat' first
    | with_reducible assumption | with_reducible apply setMod_shelf | with_reducible apply modEnter_shelf
    | with_reducible apply completeSwap_shelf | with_reducible apply Shelf.ite | split

theorem judgeStart_shelf (h : Shelf s t) {m : Nat} : Shelf s (judgeStart m t) := by
  unfold judgeStart
  repeat' first
    | with_reducible assumption | with_reducible apply strike_shelf | with_reducible apply confirmStart_shelf
    | with_reducible apply Shelf.ite | split

theorem judgeStop_shelf (h : Shelf s t) {m : Nat} : Shelf s (judgeStop m t) := by
  unfold judgeStop
  try dsimp only
  repeat' first
    | with_reducible assumption | with_reducible apply logEv_shelf | with_reducible apply modEnter_shelf | with_reducible apply Shelf.ite
    | split

theorem endHold_shelf (h : Shelf s t) {m : Nat} : Shelf s (endHold m t) := by
  unfold endHold
  repeat' first
    | with_reducible assumption | with_reducible apply modEnter_shelf | with_reducible apply Shelf.ite | split

theorem watchModule_shelf (h : Shelf s t) {m : Nat} : Shelf s (watchModule m t) := by
  unfold watchModule
  try dsimp only
  repeat' first
    | with_reducible assumption | with_reducible apply setMod_shelf | with_reducible apply strike_shelf | with_reducible apply Shelf.ite
    | split

theorem addRunSeconds_shelf (h : Shelf s t) : Shelf s (addRunSeconds t) := by
  unfold addRunSeconds
  repeat' first
    | with_reducible assumption | with_reducible apply Shelf.ros

theorem abandonStart_shelf (h : Shelf s t) : Shelf s (abandonStart t) := by
  unfold abandonStart
  repeat' first
    | with_reducible assumption | with_reducible apply modEnter_shelf | split

theorem stopExcess_shelf : ∀ {n : Nat} {t : State}, Shelf s t → Shelf s (stopExcess n t)
  | 0, _, h => h
  | n + 1, t, h => by
    unfold stopExcess
    split
    · exact h
    · split
      · exact stopExcess_shelf (stopModule_shelf h)
      · exact h

theorem immediateShed_shelf (h : Shelf s t) : Shelf s (immediateShed t) := by
  unfold immediateShed
  try dsimp only
  repeat' first
    | with_reducible assumption | with_reducible apply abandonStart_shelf | with_reducible apply stopExcess_shelf
    | with_reducible apply Shelf.ite | split | with_reducible apply Shelf.ros

theorem takeCapacity_shelf (h : Shelf s t) {c : Cap} : Shelf s (takeCapacity c t) := by
  unfold takeCapacity
  try dsimp only
  repeat' first
    | with_reducible assumption | with_reducible apply abandonSwap_shelf | with_reducible apply abandonStart_shelf
    | with_reducible apply immediateShed_shelf | with_reducible apply Shelf.ite | split | with_reducible apply Shelf.ros

theorem addRule_shelf (h : Shelf s t) : Shelf s (addRule t) := by
  unfold addRule
  repeat' first
    | with_reducible assumption | with_reducible apply startModule_shelf | with_reducible apply Shelf.ite | split

theorem shedRule_shelf (h : Shelf s t) : Shelf s (shedRule t) := by
  unfold shedRule
  repeat' first
    | with_reducible assumption | with_reducible apply stopModule_shelf | with_reducible apply Shelf.ite | split
    | with_reducible apply Shelf.ros

theorem rotationCheck_shelf (h : Shelf s t) : Shelf s (rotationCheck t) := by
  unfold rotationCheck
  repeat' first
    | with_reducible assumption | with_reducible apply startSwap_shelf | with_reducible apply Shelf.ite | split

theorem decideShortfall_shelf (h : Shelf s t) : Shelf s (decideShortfall t) := by
  unfold decideShortfall
  repeat' first
    | with_reducible assumption | with_reducible apply Shelf.ros

theorem takeLoad_shelf (h : Shelf s t) : Shelf s (takeLoad t) := by
  unfold takeLoad
  exact Shelf.ros h _

theorem pruneStrikes_shelf (h : Shelf s t) : Shelf s (pruneStrikes t) := by
  unfold pruneStrikes
  try dsimp only
  repeat' first
    | with_reducible assumption | with_reducible apply Shelf.ros

theorem rosterJudge_shelf (h : Shelf s t) {ms : List Nat} : Shelf s (rosterJudge ms t) := by
  unfold rosterJudge
  try dsimp only
  repeat' first
    | with_reducible assumption | with_reducible apply eachModule_shelf | with_reducible apply judgeStart_shelf
    | with_reducible apply judgeStop_shelf | with_reducible apply endHold_shelf | with_reducible apply pruneStrikes_shelf | intro _ _ _

theorem rosterSteps_shelf (h : Shelf s t) {ms : List Nat} : Shelf s (rosterSteps ms t) := by
  unfold rosterSteps
  repeat' first
    | with_reducible assumption | with_reducible apply eachModule_shelf | with_reducible apply watchModule_shelf
    | with_reducible apply addRunSeconds_shelf | with_reducible apply addRule_shelf | with_reducible apply shedRule_shelf
    | with_reducible apply rotationCheck_shelf | with_reducible apply decideShortfall_shelf | with_reducible apply takeLoad_shelf
    | with_reducible apply rosterJudge_shelf | intro _ _ _

theorem firstModuleState_shelf (h : Shelf s t) {m : Nat} : Shelf s (firstModuleState m t) := by
  unfold firstModuleState
  repeat' first
    | with_reducible assumption | with_reducible apply modEnter_shelf | with_reducible apply Shelf.ite | split

theorem rotateNow_shelf (h : Shelf s t) : Shelf s (rotateNow t).1 := by
  unfold rotateNow
  repeat' first
    | with_reducible assumption | with_reducible apply startSwap_shelf | with_reducible apply Shelf.ite | split

theorem handCapacity_shelf (h : Shelf s t) : Shelf s (handCapacity t) := by
  unfold handCapacity
  repeat' first
    | with_reducible assumption | with_reducible apply takeCapacity_shelf | with_reducible apply Shelf.ite | split

end Sys2Proof.Machine
end

