-- ==== Sys2Proof/WellFormed.lean ====
section
/-! DEFINITION. Well-formed commands: operands that the spec's rules admit. A command that is not well formed still has its meaning; the
statements that need the checks name them. -/

namespace Sys2Proof

/-- The operands that the spec's rules admit: the offsets of the guarded areas (08 §8.1), the three inputs with an edge alarm (R150), an
opcode outside the command table (R171), and edges of one second whose first and last lie no more than that second apart, 0 µs for fewer
than two (R152). -/
def Instr.wellFormed : Instr → Bool
  | .guardedWrite o _ => decide (0x180 ≤ o.toNat ∧ o.toNat < 0x400)
  | .edgeAlarmClear n => decide (13 ≤ n.val)
  | .unknownCommand _ op _ => !Machine.knownOpcode op.toNat
  | .pm0FrequencyResult e u => decide (u ≤ 1000000 ∧ (e < 2 → u = 0))
  | .pm2FrequencyResult e u => decide (u ≤ 1000000 ∧ (e < 2 → u = 0))
  | .powerOn .. | .pinReset .. | .softReset .. | .loadAnchorEnd | .loadSettingsEnd | .loadCountersEnd | .logScanEnd | .settleEnd ..
  | .scanCompletion .. | .stringSupervisorEvaluation | .settleSpanComplete .. | .boostMaximumReached .. | .baselineMinute ..
  | .temperatureMinute .. | .runawaySpanExpiry .. | .runawayReturnSpanExpiry .. | .overtempSpanExpiry .. | .startVoltageSpanExpiry
  | .reconnectTimeout | .inrushTimerExpiry | .busRegulatorEvaluation | .equalizeScheduleCheck | .equalizeDurationReached
  | .testDurationReached | .rosterEvaluation | .moduleStartExpiry .. | .stopUnconfirmed .. | .watchSpanExpiry .. | .retryHoldEnd ..
  | .shedSpanExpiry | .sourceControllerEvaluation | .outageDelayReached | .retransferSpanReached | .mainsSenseLoss
  | .mainsSenseReturn .. | .pm3LongResult | .dipToleranceExpiry | .mainsQualified | .qualitySpanReached | .confirmTimerExpiry
  | .mismatchWatchExpiry | .deadTimeExpiry | .mainsReleaseExpiry | .generatorEvaluation | .requestEndTime | .runLimit
  | .exerciseSlotReached | .prestartExpiry | .crankTimerExpiry | .crankRestExpiry | .barEnd | .warmupExpiry | .oilArmingExpiry
  | .loadCheckStart | .derate | .underspeedSpanReached | .shutdownRundownExpiry | .cooldownExpiry | .stopTimerExpiry | .tallyQuantum
  | .alarmEvaluation | .raiseTimerExpiry .. | .clearTimerExpiry .. | .dinLineChange .. | .debounceExpiry ..
  | .inputConditionerEvaluation | .commandInterpreterEvaluation | .checkpointInterval | .freezeControlWrite .. | .freezeExpiry
  | .hostWrite .. | .descriptorWrite .. | .ownCycleBegin | .ownWordComplete .. | .ownRequestComplete | .silenceMonitorEvaluation
  | .silenceLimitReached | .graceExpiry | .setClock .. | .ackPoint .. | .ackAll .. | .genRun .. | .genStop .. | .genReset ..
  | .genService .. | .transferRetry .. | .moduleService .. | .moduleReturn .. | .rotateNow .. | .stringIsolate .. | .stringReconnect ..
  | .equalizeStart .. | .equalizeCancel .. | .testStart .. | .testAbort .. | .loadPreset .. | .settingsLock .. | .resume ..
  | .logNote .. | .siteClockSecond | .pin1RisingEdge => true

end Sys2Proof
end

