-- ==== Sys2Proof/Tests/Slice0.lean ====
section
/-! SUPPORT. Tests: the well-formedness checks, small steps, and for every statement with hypotheses states and operands that meet them,
each clause's at a boundary value. -/

namespace Sys2Proof.Tests

open Sys2Proof Sys2Proof.Machine

set_option Elab.async false

/-! ## Small states -/

/-- The defaults with the per-string words written: profile 0, capacity 2,000 dA, own temperature. -/
def words : List Word :=
  (List.range 4).foldl (fun l k => setWord (setWord (setWord l (0x200 + 3 * k) 0) (0x201 + 3 * k) 2000) (0x202 + 3 * k) 0) defaultSettings

/-- A copy with some words written. -/
def put (l : List (Nat × Word)) (s : State) : State := { s with settings := l.foldl (fun a p => setWord a p.1 p.2) s.settings }

/-- A start-up state after a soft reset that keeps or does not keep the power train. -/
def inStart (st : StartState) (keep : Bool) : State :=
  { State.reset with
    st := { State.reset.st with state := st, keepTrain := keep, desc := some ⟨3, 4, 0xFF, true, false⟩ }, settings := words,
    clk := ⟨1000000, .set, 1000⟩, log := ⟨[], false, 0, 0, true⟩, path := { State.reset.path with queue := [] } }

/-- RUN with nothing going on, the clock SET at 1,000,000. -/
def run : State := inStart .run false

/-- A channel whose mean is valid. -/
def withMean (c : Nat) (v : Int) (s : State) : State :=
  { s with scan := { s.scan with chans := s.scan.chans.set c ⟨[v], some v, v, 0, 1, false⟩ } }

/-- A debounced level. -/
def withDin (n : Nat) (b : Bool) (s : State) : State := { s with inp := { s.inp with levels := s.inp.levels.set n b } }

/-- The line of an input. -/
def withLine (n : Nat) (b : Bool) (s : State) : State := { s with inp := { s.inp with lines := s.inp.lines.set n b } }

/-- A string record on float. -/
def str0 : StringRec := { rebuiltString run 0 false [] with phase := .full, unknownCharge := false, baseline := 5, tempValid := true, temp := 250, lastEqualize := 0 }

def withString (k : Nat) (r : StringRec) (s : State) : State := { s with str := { s.str with recs := s.str.recs.set k (some r) } }

/-- A resting module. -/
def mod0 : ModuleRec := { rebuiltModule false [] with state := .resting }

def withModule (m : Nat) (r : ModuleRec) (s : State) : State := { s with ros := { s.ros with mods := s.ros.mods.set m (some r) } }

/-- The argument words of slot 0. -/
def withArgs (a b : Word) (s : State) : State :=
  { s with cmd := { s.cmd with slots := s.cmd.slots.set 0 ⟨[0, a, b, 0, 0, 0, 0], .none, 0⟩ } }

def withPoint (p : Nat) (st : PointState) (s : State) : State :=
  { s with alm := { s.alm with points := s.alm.points.set p ⟨st, none, false, 0, 0⟩ } }

def withSil (st : SilenceState) (n : Nat) (s : State) : State := { s with sil := ⟨st, n⟩ }

def withPath (f : Path → Path) (s : State) : State := setPath f s

def withLog (n : Nat) (s : State) : State := { s with log := { s.log with queue := List.replicate n ⟨.inputEdge, 0, 0, 0, 0, false⟩ } }

/-- A reconnecting string. -/
def rec0 (st : ReconnectStage) : StringRec :=
  { str0 with phase := .reconnecting, stage := st, reconnectStart := 1000000 - 180, inrushTimer := true }

/-! ## Well-formed commands: an ill-formed term for each check, refused -/

theorem test_guarded_low : Instr.wellFormed (.guardedWrite 0x17F 0) = false := by decide
theorem test_guarded_high : Instr.wellFormed (.guardedWrite 0x400 0) = false := by decide
theorem test_guarded_edges : Instr.wellFormed (.guardedWrite 0x180 0) = true ∧ Instr.wellFormed (.guardedWrite 0x3FF 0) = true := by decide
theorem test_edge_alarm_low : Instr.wellFormed (.edgeAlarmClear 12) = false ∧ Instr.wellFormed (.edgeAlarmClear 13) = true := by decide
theorem test_known_opcode : Instr.wellFormed (.unknownCommand 0 0x48 0) = false ∧ Instr.wellFormed (.unknownCommand 0 0x49 0) = true := by
  decide
theorem test_pm0_span : Instr.wellFormed (.pm0FrequencyResult 50 1000001) = false ∧ Instr.wellFormed (.pm0FrequencyResult 1 7) = false := by
  decide
theorem test_pm2_span : Instr.wellFormed (.pm2FrequencyResult 50 1000001) = false ∧ Instr.wellFormed (.pm2FrequencyResult 0 1) = false := by
  decide

/-! ## The decoder: the table gives no row a bit -/

theorem test_no_words : decodeTableWord 16 0x1234 = none ∧ (run.withFetchWord 16 0x1234).pending = [] := by decide +kernel

/-! ## Small steps -/

/-- The next state of a command. -/
def after (c : Instr) (s : State) : State :=
  match exec c s with
  | .next t => t
  | .fault _ => s
  | .refused _ => s

theorem test_clock_second : (after .siteClockSecond run).clk.value = 1000001 := by decide +kernel
theorem test_clock_wraps : (after .siteClockSecond { run with clk := ⟨4294967295, .set, 0⟩ }).clk.value = 0 := by decide +kernel
theorem test_frequency_50 : frequencyOf 51 1000000 = 5000 := by decide +kernel
theorem test_vref : vrefCode 43000 = 614 ∧ vrefCode 57600 = 3603 ∧ vrefCode 39999 = 0 ∧ vrefCode 60001 = 4095 := by decide +kernel
theorem test_sample_54V : sampleOf words 0 3375 = some 53999 := by decide +kernel
theorem test_sample_faults : sampleOf words 0 0 = none ∧ sampleOf words 0 4095 = none := by decide +kernel
theorem test_float_compensated : levelOf words 0 { str0 with temp := 350 } = 53280 := by decide +kernel
theorem test_soc : socOf words 0 { str0 with deficit := 500 } = 75 := by decide +kernel
theorem test_slot_from : slotFrom words 0 = some 298800 := by decide +kernel
theorem test_crc_algorithm : crcBytes [0x31, 0x32, 0x33, 0x34, 0x35, 0x36, 0x37, 0x38, 0x39] = 0x29B1 := by decide +kernel
theorem test_remap_words : remapWords 0x3ABCD 5 = (0xABCD, 0x8053) := by decide +kernel
theorem test_idle : step State.reset = .next State.reset := by simp only [step, State.reset, State.afterPowerOn]
theorem test_dip : (after .mainsSenseLoss (setMains (fun m => { m with state := .present, sense := true })
    { run with pm := { run.pm with sense := true } })).src.mains.state = .dip := by decide +kernel
theorem test_prestart_outputs : (after .prestartExpiry (setGen (fun g => { g with state := .prestart, timer := true }) run)).gen.crank =
    .asserted := by decide +kernel
theorem test_post_unknown : replyOf (after (.unknownCommand 0 0x77 9) run) 0 = (.refusedUnknown, 0) := by decide +kernel
theorem test_post_settings_lock : (after (.settingsLock 2 1) run).st.lock = true ∧ replyOf (after (.settingsLock 2 1) run) 2 = (.done, 0) := by
  decide +kernel
theorem test_log_note : (after (.logNote 0 7) (withArgs 5 6 run)).log.queue =
    [⟨.logNote, 0, 5, 6, 1000000, false⟩, ⟨.command, 0, 0x4801, 7, 1000000, false⟩] := by decide +kernel
theorem test_guarded_stored : wordIn (after (.guardedWrite 0x216 100) run).settings 0x216 = 100 := by decide +kernel
theorem test_guarded_range : (after (.guardedWrite 0x216 1001) run).path.refusal = ⟨25110, 1001, 3, 1000000, 1⟩ := by decide +kernel
theorem test_guarded_order : (after (.guardedWrite 0x214 57600) run).path.refusal.reason = 4 := by decide +kernel
theorem test_host_write_outside : memRead (after (.hostWrite 77 5) run) 77 = 5 := by decide +kernel
theorem test_host_write_protected : (after (.hostWrite 131000 5) run).path.refusal.reason = 6 := by decide +kernel
theorem test_profile_waits : strGet (put [(0x200, 1)] (withString 0 str0 run)) 0 9 (·.profile) = 0 ∧
    strGet (after .stringSupervisorEvaluation (put [(0x200, 1)] (withString 0 str0 run))) 0 9 (·.profile) = 1 := by decide +kernel
theorem test_full_counts_entry :
    strGet (stringTimers (withMean 6 0 (withString 0 { str0 with phase := .topping, settleSpan := 899 } run))) 0 9 (·.baselineMinute) = 1 := by
  decide +kernel
theorem test_lock_first : (after (.guardedWrite 0x216 100) { inStart .commissioning false with
    st := { (inStart .commissioning false).st with lock := true } }).path.refusal.reason = 1 := by decide +kernel
theorem test_retransfer_at_zero_delay : retransferDue (put [(0x230, 0)] run) = true := by decide +kernel
theorem test_last_word_frees_the_read :
    let s := withPath (fun p => { p with busy := some ⟨.logEntry 3 ⟨.reset, 1, 0, 0, 0, false⟩, 9, false⟩ }) run
    entryInWriting s = none ∧ hostRead s (prBase s + 0x1018) = some 0 := by decide +kernel
theorem test_load_end_releases :
    let s := withPath (fun p => { p with busy := some ⟨.startupLoad 0 1, 0, true⟩, held := [.addr 77 5] }) (inStart .logScan false)
    (after .logScanEnd s).path.held = [] ∧ memRead (after .logScanEnd s) 77 = 5 := by decide +kernel
theorem test_boost_spent_again :
    let s := withString 0 { str0 with phase := .charging, incomplete := true, boostTimer := str0.prof words 8 - 1 } run
    (after (.boostMaximumReached 0) { s with str := { s.str with boost := true } }).log.queue.head? =
      some ⟨.phaseChange, 0, 4, 4, 1000000, false⟩ := by decide +kernel
theorem test_underspeed_span_kept : (after .underspeedSpanReached
    (setGen (fun g => { g with state := .loaded, underspeedSpan := 9, lastFreq := 4499 }) run)).gen.underspeedSpan = 10 := by decide +kernel
theorem test_strike_bars : ((modRec (after (.moduleStartExpiry 1) (withModule 1 { mod0 with
    state := .starting, entered := 0, strikes := [999999, 999998] } run)) 1).map (·.state)) = some .barred := by decide +kernel

theorem test_zero_withdraws_fail_stop : ∀ st ∈ [GenState.cranking, .warmup, .ready, .loaded, .cooldown, .shutdown],
    condOf (after (.pm0FrequencyResult 0 0)
      (setCond Pt.genFailStop true (setGen (fun g => { g with state := st }) run))) Pt.genFailStop = false := by decide +kernel
/-- A LOADED engine one result short of an underspeed shutdown, with GEN_FAIL_STOP kept active. -/
def failedStop : State :=
  setCond Pt.genFailStop true (setGen (fun g => { g with state := .loaded, underspeedSpan := 9 })
    (put ([4, 5].flatMap fun p => [(0x300 + 8 * p, 3), (0x302 + 8 * p, 0), (0x303 + 8 * p, 0)]) run))

theorem test_zero_takes_shutdown_first : (((after (.pm0FrequencyResult 0 0) { failedStop with log := run.log }).log.queue.filter
    fun e => e.kind == .pointChange).map (·.subject)) = [4, 5] := by decide +kernel
theorem test_pin_reset_keeps_means : ((after (.pinReset 1) (withMean 5 431 run)).scan.chans.getD 5 .reset) = { Channel.reset with mean := 431 } ∧
    (after (.powerOn 1 0 false) (withMean 5 431 run)).scan = .reset := by decide +kernel

/-- A channel that has failed with a kept mean. -/
def withFailed (c : Nat) (v : Int) (s : State) : State :=
  { s with scan := { s.scan with chans := s.scan.chans.set c ⟨[], none, v, 10, 0, true⟩ } }

theorem test_kept_mean_is_fuel_level : (after .generatorEvaluation (withFailed 15 431 run)).gen.fuelLevel = 431 := by decide +kernel
theorem test_load_of_failed_channel : (after .rosterEvaluation (withFailed 1 431 run)).ros.load = 0 ∧
    (after .rosterEvaluation (withFailed 1 431 { run with ros := { run.ros with loadSeen := true } })).ros.load = 431 := by decide +kernel
theorem test_temperature_from_kept_mean :
    ((strRec (takeTemp 0 (withFailed 10 300 (withString 0 { str0 with tempChan := some 10 } run))) 0).map (·.temp)) = some 300 ∧
      ((strRec (takeTemp 0 (withFailed 10 300 (withString 0 str0 run))) 0).map (·.temp)) = some 250 := by decide +kernel
/-- A kept transfer in CLOSING_MAINS whose confirm timer ran out in start-up, at RUN with other feedbacks. -/
def lateConfirm : State :=
  after (.settleEnd 0) { setXfer (fun x => { x with state := .closingMains, confirmTimer := false }) (inStart .settle true) with
    st := { (inStart .settle true).st with settleScans := 10 } }

theorem test_late_confirm_waits : lateConfirm.src.xfer.state = .closingMains ∧
    (after .sourceControllerEvaluation lateConfirm).src.xfer.state = .fault ∧
    (after .sourceControllerEvaluation (after (.debounceExpiry 8) { lateConfirm with
      inp := { lateConfirm.inp with lines := lateConfirm.inp.lines.set 8 true, timers := lateConfirm.inp.timers.set 8 (some 5) } })).src.xfer.state
        = .onMains := by decide +kernel

/-! ## The statements' hypotheses are met: steps, frames, start-up -/

theorem test_meets_StepKeepsInv : Inv run ∧ step { run with pending := [.mainsSenseLoss] } = exec .mainsSenseLoss { run with pending := [] } :=
  ⟨⟨by decide +kernel, by decide +kernel, fun h => by revert h; decide +kernel, Or.inr (by decide +kernel), by decide +kernel,
    ⟨by decide +kernel, by decide +kernel⟩⟩, by simp only [step]⟩

theorem test_meets_RowsThatStoreNothing : storesNothing .siteClockSecond = true ∧ storesNothing (.freezeControlWrite 1) = true ∧
    storesNothing (.settleEnd 0) = true ∧ (inStart .loadSettings false).path.held = [] := by decide +kernel

theorem test_meets_HostWriteFrame : Memory.wf run.path.cells = true ∧ hostAddr run (.hostWrite 77 5) = some 77 ∧
    hostAddr run (.logNote 15 0) = some (24576 + 0x178) ∧ hostAddr run (.descriptorWrite 15 0) = some 131023 ∧ run.path.redirect 77 ≠ 78 := by
  decide +kernel

theorem test_meets_RowFrames : jobRow .rosterEvaluation = true ∧ jobRow (.raiseTimerExpiry 31) = true ∧
    measureRow (.pm2FrequencyResult 2 1) = true ∧ measureRow .tallyQuantum = true := by decide

theorem test_meets_LockHolds : ({ run with st := { run.st with lock := true } } : State).st.lock = true ∧
    (∀ m d p, Instr.siteClockSecond ≠ .powerOn m d p) ∧ ∀ m, Instr.siteClockSecond ≠ .pinReset m :=
  ⟨rfl, nofun, nofun⟩

theorem test_meets_HardResets_cut :
    let s := withPath (fun p => { p with busy := some ⟨.checkpoint 13 (List.replicate 16 7), 15, true⟩ }) run
    ownWriteInProgress s = some (25823, 7) ∧ Memory.wf s.path.cells = true ∧
      s.path.faulty.contains (s.path.redirect 25823) = false ∧ ownWriteInProgress run = none := by decide +kernel

theorem test_meets_HardResets : ownWordActive run = false ∧ (setEq (fun e => { e with running := true }) run).bus.eq.running = true ∧
    (setTest (fun t => { t with state := .running }) run).bus.test.state = .running ∧ run.bus.test.state ≠ .running := by decide +kernel

theorem test_meets_HardResets_rest :
    (let s := setSwap (fun w => { w with inProgress := true }) (setCond Pt.testFailed true run);
      s.ros.swap.inProgress = true ∧ condOf s Pt.testFailed = true) ∧
    run.ros.swap.inProgress = false ∧ run.bus.eq.running = false ∧ run.scan.chans.length = 16 := by decide +kernel

theorem test_meets_SoftReset :
    (Shape run ∧ Listens run ∧ dispatchRefusal Op.softReset run = none) ∧
    1 < arg (atPost 0 Op.softReset 1 (withArgs 2 0 run)) 0 1 ∧
    (arg (atPost 0 Op.softReset 1 (withArgs 1 2 run)) 0 1 ≤ 1 ∧ 1 < arg (atPost 0 Op.softReset 1 (withArgs 1 2 run)) 0 2) ∧
    (arg (atPost 0 Op.softReset 1 (withArgs 1 1 run)) 0 1 = 1 ∧ arg (atPost 0 Op.softReset 1 (withArgs 1 1 run)) 0 2 = 1 ∧
      inRun (withArgs 1 1 run) = true ∧ reconnecting (atPost 0 Op.softReset 1 (withArgs 1 1 run)) = none) ∧
    (let u := atPost 0 Op.softReset 1 (withArgs 0 1 (withString 3 { rec0 .checking with priorFault := true } run));
      arg u 0 2 = 1 ∧ reconnecting u = some 3 ∧ strRec u 3 = some { rec0 .checking with priorFault := true }) ∧
    (arg (atPost 0 Op.softReset 1 run) 0 1 = 0 ∧ arg (atPost 0 Op.softReset 1 run) 0 2 = 0) ∧
    (Listens (inStart .commissioning false) ∧ dispatchRefusal Op.softReset (inStart .commissioning false) = none ∧
      inRun (inStart .commissioning false) = false) := by decide +kernel

theorem test_meets_SoftReset_kept :
    let u := atPost 0 Op.softReset 1 (withArgs 1 0 (postClaim .equalize 56400 (setEq (fun e => { e with running := true }) run)))
    u.bus.eq.running = true ∧ u.bus.claims ≠ { u.bus.claims with equalize := none } ∧ arg u 0 1 = 1 ∧ inRun u = true ∧
      u.bus.test.state ≠ .running ∧ (atPost 0 Op.softReset 1 (setTest (fun t => { t with state := .running }) run)).bus.test.state = .running ∧
      (atPost 0 Op.softReset 1 run).bus.eq.running = false := by decide +kernel

/-- Sixteen descriptor words: base unit 3, four strings, modules 0xFF, a generator, 50 Hz, and their CRC. -/
def descWords : List Word := let w := [0x4804, 1, 3, 4, 255, 1, 50] ++ List.replicate 8 0; w ++ [crcWords w]

theorem test_meets_LoadAnchorEnd : State.reset.st.state = .loadAnchor ∧
    usableDescriptor 131072 descWords = some ⟨3, 4, 0xFF, true, false⟩ ∧
    usableDescriptor State.reset.path.size (readWords State.reset (State.reset.path.size - 64) 16) = none ∧
    (let s := withPath (fun p => { p with cells := (List.range 16).foldl (fun m i => writeCells m (131008 + i) (descWords.getD i 0)) [] })
      State.reset; usableDescriptor s.path.size (readWords s (s.path.size - 64) 16) = some ⟨3, 4, 0xFF, true, false⟩) := by decide +kernel

theorem test_meets_StartUpLoads_settings : (inStart .loadSettings false).st.state = .loadSettings ∧
    replacedOffsets (List.replicate 640 0) ≠ [] := by decide +kernel

theorem test_meets_StartUpLoads_sound : replacedOffsets words = [] := by decide +kernel

theorem test_meets_StartUpLoads_counters : Shape (inStart .loadCounters false) ∧ (inStart .loadCounters false).st.state = .loadCounters ∧
    (inStart .loadCounters false).st.kind = .powerOn ∧ goodRecord 13 (recordWords 13 [1, 2]) = true ∧
    goodRecord 13 (readWords (inStart .loadCounters false) (recordAddr (inStart .loadCounters false) 13) 16) = false ∧
    13 ∈ recordsToRead (inStart .loadCounters false) := by decide +kernel

theorem test_meets_StartUpLoads_records :
    let s := inStart .loadCounters false
    (s.st.forCommissioning = false ∧ modulePresent s 7 = true ∧ modRec s 7 = none ∧ s.st.keepTrain = false ∧ genFitted s = true ∧
      3 < stringCount s ∧ strRec s 3 = none ∧ (modRec (withModule 7 mod0 s) 7).isSome) ∧
    goodRecord 0 (readWords s (recordAddr s 0) 16) = false ∧
    (let w := recordWords 8 [1, 2, 3]; goodRecord 8 w = true ∧ pairNat (w.getD 1 0) (w.getD 2 0) = 65538) ∧
    (let w := recordWords 12 [2001, 0, 3, 4, 0, 5, 0, 6, 0xFFFF]; goodRecord 12 w = true ∧ (w.getD 9 0).toInt = -1 ∧
      min (w.getD 1 0).toNat (strCapacity s.settings 3) = 2000) ∧
    goodRecord 0 (recordWords 0 [1, 2, 3, 4, 5, 6, 7]) = true := by decide +kernel

theorem test_rebuilt_string : strRec (after .loadCountersEnd (inStart .loadCounters false)) 3 =
    some { StringRec.fresh 0 with lastEqualize := 1000000, baseline := 20 } := by decide +kernel

theorem test_meets_LogScanEnd : (inStart .logScan false).st.state = .logScan ∧ (inStart .logScan false).st.forCommissioning = false ∧
    highestSeq [none, some 3, some 7] = some 7 ∧ highestSeq [none, none] = none ∧
    entrySeq 5 [0, 517, 0, 0, 8, 0, 0, 0] = some 517 := by decide +kernel

theorem test_meets_SettleEnd : (inStart .settle false).st.state = .settle ∧ (inStart .settle false).st.settleScans < 10 ∧
    10 ≤ (setStart (fun x => { x with settleScans := 10 }) (inStart .settle false)).st.settleScans := by decide +kernel

/-- The end of SETTLE after a reset that kept nothing. -/
def settled : State := setStart (fun x => { x with settleScans := 10 }) (inStart .settle false)

theorem test_meets_SettleEnd_derived : Shape settled ∧ settled.st.state = .settle ∧ 10 ≤ settled.st.settleScans ∧
    settled.st.keepTrain = false ∧ feedbacks (withDin 8 true settled) = (true, false) ∧ feedbacks settled ≠ (true, false) ∧
    inFreqWindow settled 4700 = true ∧ inFreqWindow settled 5301 = false ∧ genFitted settled = true ∧ settled.pm.sense = false ∧
    settled.pm.pm2Last = none ∧ settled.pm.pm0Seen = false ∧ settled.gen.requests.isEmpty = true ∧ testRunning settled = false ∧
    (let s := { settled with pm := { settled.pm with sense := true, pm2Last := some 4700, pm0Seen := true } };
      s.pm.sense = true ∧ s.pm.pm2Last = some 4700 ∧ inFreqWindow s 4700 = true ∧ s.pm.pm0Seen = true) ∧
    genFitted (setStart (fun x => { x with desc := some ⟨3, 4, 0xFF, false, false⟩ }) settled) = false := by decide +kernel

theorem test_settle_derives :
    (let t := after (.settleEnd 0) (withDin 8 true { settled with pm := { settled.pm with sense := true, pm2Last := some 5000 } });
      t.src.xfer.state = .onMains ∧ t.src.mains.state = .present ∧ t.gen.state = .standby) ∧
    (let t := after (.settleEnd 0) settled; t.src.xfer.state = .fault ∧ t.src.mains.state = .absent ∧ t.src.xfer.mopen = .released) := by
  decide +kernel

/-! ## Measurement -/

theorem test_meets_ScanUpdatesChannels : Shape run ∧ run.scan.on = false ∧ ({ run with scan := { run.scan with on := true } } : State).scan.on = true ∧
    (let c : Channel := ⟨[1], some 1, 1, 9, 0, false⟩; c.failed = false ∧ c.invalid = 9) ∧
    (let c : Channel := ⟨[1], none, 1, 0, 9, true⟩; c.failed = true ∧ c.valid = 9) := by decide +kernel

/-- Channels one invalid sample short of a failure, the scanner on. -/
def failing (cs : List Nat) : State :=
  { run with scan := { run.scan with on := true, chans := cs.foldl (fun l c => l.set c ⟨[1], some 1, 1, 9, 0, false⟩) run.scan.chans } }

/-- A scan whose codes are all 0. -/
def darkScan : Vector (BitVec 12) 16 := Vector.ofFn fun _ => 0

theorem test_meets_ScanUpdatesChannels_failed :
    let t := after (.scanCompletion darkScan) (failing [3, 15])
    (failing [3, 15]).scan.on = true ∧ (chan (failing [3, 15]) 15).failed = false ∧ (chan t 15).failed = true ∧ (chan t 3).failed = true ∧
      t.scan.lastFailed = some 15 ∧ condOf t Pt.sensorFail = true ∧ t.log.queue.take 2 =
        [⟨.channelState, 3, 1, 0, 1000000, false⟩, ⟨.channelState, 15, 1, 0, 1000000, false⟩] := by decide +kernel

theorem test_meets_ScanUpdatesChannels_steady :
    let t := after (.scanCompletion darkScan) (failing [])
    (∀ c : Fin 16, (chan t c.val).failed = true → (chan (failing []) c.val).failed = true) ∧ t.scan.lastFailed = none ∧
      (withLog 32 (failing [])).log.queue.length + 0 ≤ 32 := by decide +kernel

/-- RUN with a string on the bus and the scanner on. -/
def scanning : State := { withString 0 { str0 with dischargeResidue := 35980 } run with scan := { run.scan with on := true } }

theorem test_meets_ScanAccruesCharge : Shape scanning ∧ scanning.scan.on = true ∧ inRun scanning = true ∧
    strRec scanning 0 = some { str0 with dischargeResidue := 35980 } ∧ ({ str0 with dischargeResidue := 35980 } : StringRec).closed = true ∧
    sampleOf words 6 2044 = some (-20) ∧ 36000 ≤ 35980 + (-20 : Int).natAbs ∧ 35980 + (-19 : Int).natAbs < 36000 ∧
    sampleOf words 6 2049 = some 4 ∧ sampleOf words 6 2048 = some 0 ∧ sampleOf words 6 4095 = none := by decide +kernel

theorem test_meets_InputRows : Shape run ∧ run.inp.lines.getD 3 false = false ∧
    ((withDin 3 true run).inp.lines.getD 3 false ≠ true ∧ dinLevel (withDin 3 true run) 3 = true) ∧
    (dinLevel run 3 ≠ true ∧ debounceOf run.settings 3 ≠ 0) ∧ debounceOf (put [(0x273, 0)] run).settings 3 = 0 ∧
    ({ run with inp := { run.inp with timers := run.inp.timers.set 3 (some 50) } } : State).inp.timers.getD 3 none = some 50 ∧
    run.inp.timers.getD 3 none = none := by decide +kernel

theorem test_meets_InputRows_alarm : edgePoint 15 = some 28 ∧ edgePoint 13 = some 26 ∧
    (let s := { run with conds := run.conds.set 28 true }; condOf s 28 = true ∧ inputQuiet s 15 (pointWord s.settings 28 3) = true) ∧
    condOf run 28 = false := by decide +kernel

theorem test_meets_TallyEdge :
    (let s := { run with pm := { run.pm with counting := true, tally := 98 } }; s.pm.counting = true ∧ s.pm.tally + 1 < tallyQuantumOf s.settings) ∧
    (let s := { run with pm := { run.pm with counting := true, tally := 99 } }; tallyQuantumOf s.settings ≤ s.pm.tally + 1 ∧ inRun s = true) ∧
    trainRuns (inStart .logScan false) = false := by decide +kernel

theorem test_meets_TallyEdge_stored :
    let s := fun n => { run with pm := { run.pm with tally := n } }
    Stores 0x241 1 (s 99) ∧ 0 < (stored 0x241 1 (s 99)).pm.tally / (1 : Word).toNat ∧
      (stored 0x241 10 (s 9)).pm.tally / (10 : Word).toNat = 0 := by decide +kernel

theorem test_meets_Pm0Result : inRun run = true ∧ frequencyOf 15 1000000 < crankCut run.settings ∧
    0 < frequencyOf 2 1000000 ∧ frequencyOf 1 0 = 0 ∧ GenState.shutdown.running = false ∧ GenState.barred.running = false ∧
    (crankCut run.settings ≤ frequencyOf 16 1000000 ∧ frequencyOf 16 1000000 < overspeed run.settings) ∧
    overspeed run.settings ≤ frequencyOf 58 1000000 ∧ dinLevel run 11 = false ∧
    (setGen (fun g => { g with state := .cranking }) run).gen.state = .cranking := by decide +kernel

theorem test_meets_Pm0Result_stopping :
    let s := fun (f : Gen → Gen) => setGen (fun g => f { g with state := .stopping }) run
    Shape (s id) ∧ (s id).gen.state = .stopping ∧ frequencyOf 1 0 = 0 ∧ (s id).gen.destDisabled = false ∧
      (s id).gen.requests.isEmpty = true ∧ (s fun g => { g with destDisabled := true }).gen.destDisabled = true ∧
      (s fun g => { g with requests := { g.requests with depth := some ⟨0, true, 0⟩ } }).gen.requests.isEmpty = false ∧
      testRunning (s id) = false ∧ testRunning (setTest (fun t => { t with state := .running }) (s id)) = true ∧
      GenState.stopping.running = false ∧ 0 < frequencyOf 2 1000000 := by decide +kernel

theorem test_meets_Pm0Result_running :
    let s := fun (f : Gen → Gen) => setGen (fun g => f { g with state := .loaded, loadCheckFrom := 1000000 }) run
    GenState.loaded.running = true ∧ overspeed run.settings ≤ frequencyOf 58 1000000 ∧ frequencyOf 57 1000000 < overspeed run.settings ∧
      frequencyOf 46 1000000 = underspeed run.settings ∧ frequencyOf 45 1000000 < underspeed run.settings ∧
      10 ≤ (s fun g => { g with underspeedSpan := 9 }).gen.underspeedSpan + 1 ∧
      ¬ 10 ≤ (s fun g => { g with underspeedSpan := 8 }).gen.underspeedSpan + 1 ∧ loadChecking (s id) = true ∧
      loadChecking (s fun g => { g with loadCheckFrom := 1000001 }) = false ∧ frequencyOf 49 1000000 = droopLimit run.settings ∧
      frequencyOf 48 1000000 < droopLimit run.settings ∧ 5 ≤ (s fun g => { g with droopSpan := 4 }).gen.droopSpan + 1 ∧
      ¬ 5 ≤ (s fun g => { g with droopSpan := 3 }).gen.droopSpan + 1 := by decide +kernel

theorem test_meets_Pm0Result_warmup :
    let s := fun (due : Bool) => setGen (fun g => { g with state := .warmup, warmupDue := due }) run
    (s true).gen.state = .warmup ∧ (s true).gen.warmupDue = true ∧ (s false).gen.warmupDue = false ∧ GenState.cooldown ≠ .warmup ∧
      inFreqWindow (s true) (frequencyOf 48 1000000) = true ∧ inFreqWindow (s true) (frequencyOf 47 1000000) = false := by decide +kernel

theorem test_meets_Pm2Result : trainKept (inStart .settle true) = true ∧ trainRuns (inStart .settle false) = false ∧
    trainRuns (inStart .commissioning true) = false ∧ inRun run = true ∧ inFreqWindow run (frequencyOf 48 1000000) = true ∧
    inFreqWindow run (frequencyOf 47 1000000) = false ∧
    (setMains (fun m => { m with state := .qualifying, qualifySpan := 58 }) run).src.mains.qualifySpan + 1 < qualifyTime run.settings ∧
    qualifyTime run.settings ≤ (setMains (fun m => { m with state := .qualifying, qualifySpan := 59 }) run).src.mains.qualifySpan + 1 ∧
    (setMains (fun m => { m with state := .present }) run).src.mains.state = .present ∧
    (setMains (fun m => { m with state := .absent, sense := true }) run).src.mains.sense = true := by decide +kernel

theorem test_meets_Pm2Result_outside :
    (let s := setMains (fun m => { m with state := .present, qualitySpan := 3 }) run;
      Shape s ∧ s.src.mains.state = .present ∧ s.src.mains.qualitySpan + 1 < qualityTime s.settings) ∧
    (let s := setMains (fun m => { m with state := .present, qualitySpan := 4 }) run;
      Shape s ∧ s.src.mains.state = .present ∧ qualityTime s.settings ≤ s.src.mains.qualitySpan + 1) ∧
    (setMains (fun m => { m with state := .dip }) run).src.mains.state = .dip ∧
    (let s := setMains (fun m => { m with state := .absent, sense := false }) run; s.src.mains.state = .absent ∧ s.src.mains.sense = false) ∧
    (let s := setMains (fun m => { m with state := .absent, sense := true }) run;
      Shape s ∧ s.src.mains.state = .absent ∧ s.src.mains.sense = true) := by decide +kernel

theorem test_meets_SenseRows :
    (let s := setMains (fun m => { m with state := .present }) { run with pm := { run.pm with sense := true } };
      inRun s = true ∧ s.pm.sense = true ∧ s.src.mains.state = .present) ∧
    (setMains (fun m => { m with state := .qualifying }) run).src.mains.state = .qualifying ∧
    (let s := setMains (fun m => { m with state := .dip, dipTimer := some 2000 }) run;
      s.pm.sense = false ∧ s.pm.long = false ∧ s.src.mains.dipTimer = some 2000 ∧ s.src.mains.state = .dip) ∧ 65534 < 65535 ∧
    (let s := { run with pm := { run.pm with long := true, width := 65 } }; inRun s = true ∧ s.pm.sense = false ∧ s.pm.long = true ∧
      s.src.mains.state ≠ .dip ∧ (after (.mainsSenseReturn 3600400) s).pm.width = 3600) := by decide +kernel

/-! ## Strings -/

theorem test_meets_StringEvaluation : inRun run = true ∧ inRun (inStart .settle false) = false := by decide +kernel

/-- A string in RUN with its current's mean. -/
def onString (r : StringRec) (current : Int) : State := withMean 6 current (withString 0 r run)

theorem test_meets_StringEvaluation_phase :
    let tops := fun (n : Nat) => { str0 with phase := .topping, settleSpan := n }
    (let s := onString str0 (-20); Shape s ∧ inRun s = true ∧ strRec s 0 = some str0 ∧ str0.phase.connected = true ∧ currentBad s 0 = false ∧
      strCurrent s 0 ≤ -20 ∧ str0.runaway = 0 ∧ str0.runawaySpan + 1 < 600 ∧ str0.overtempSpan + 1 < 60) ∧
    currentBad (withString 0 str0 run) 0 = true ∧ strCapacity run.settings 0 / 100 = 20 ∧
    percentC run.settings 0 (profWord run.settings 0 6) = 20 ∧ min ((tops 899).settleSpan + 1) 900 = profWord run.settings 0 7 ∧
    min ((tops 898).settleSpan + 1) 900 ≠ profWord run.settings 0 7 ∧
    strPhase (after .stringSupervisorEvaluation (onString (tops 899) 20)) 0 = .full ∧
    strPhase (after .stringSupervisorEvaluation (onString (tops 899) 21)) 0 = .topping ∧
    strPhase (after .stringSupervisorEvaluation (onString { tops 898 with deficit := 1 } 0)) 0 = .charging ∧
    strPhase (after .stringSupervisorEvaluation (onString { str0 with deficit := 20 } 0)) 0 = .full ∧
    strPhase (after .stringSupervisorEvaluation (onString { str0 with deficit := 21 } 0)) 0 = .charging := by decide +kernel

theorem test_meets_StringEvaluation_thermal :
    let s := withPoint Pt.battOvertemp .activeUnack (withString 3 { str0 with runaway := 1, stage1Level := 53500 } (onString str0 0))
    thermalAsks (after .stringSupervisorEvaluation s) = [53500, 53040] ∧ thermalAsks (after .stringSupervisorEvaluation run) = [] ∧
      (after .stringSupervisorEvaluation s).bus.claims.thermal = some ⟨53040, 1000000⟩ := by decide +kernel

theorem test_meets_StringEvaluation_match :
    let s := fun (bus : Int) (ago : Nat) =>
      withMean 0 bus (withMean 5 51200 (withString 3 { rec0 .matching with reconnectStart := 1000000 - ago } run))
    (Shape (s 51700 180) ∧ inRun (s 51700 180) = true ∧ reconnecting (s 51700 180) = some 3 ∧
      strRec (s 51700 180) 3 = some (rec0 .matching) ∧ (rec0 .matching).stage = .matching) ∧
    (chanBad (s 51700 180) 5 = false ∧ chanBad (s 51700 180) 0 = false ∧
      meanOf (s 51700 180) 0 - meanOf (s 51700 180) 5 ≤ matchWindow (s 51700 180).settings) ∧
    ¬ meanOf (s 51701 180) 0 - meanOf (s 51701 180) 5 ≤ matchWindow (s 51701 180).settings ∧
    180 ≤ since (s 51701 180) (1000000 - 180) ∧ since (s 51701 179) (1000000 - 179) < 180 ∧
    chanBad (withString 3 (rec0 .matching) run) 5 = true := by decide +kernel

theorem test_meets_ChargeRows :
    (let r := { str0 with phase := .topping, settleSpan := 899 }; let s := onString r 0;
      Shape s ∧ inRun s = true ∧ strRec s 0 = some r ∧ settleDue s 0 = true) ∧
    (let r := { str0 with phase := .charging, boostTimer := 43199 }; let s := onString r 100; let s := { s with str := { s.str with boost := true } };
      Shape s ∧ strRec s 0 = some r ∧ boostDue s 0 = true) ∧
    (let s := withString 3 { str0 with deficit := 500 } run; (0x20A#13).toNat = 0x201 + 3 * (3 : Fin 4).val ∧ Stores 0x20A 200 s ∧
      strRec (stored 0x20A 200 s) 3 = some { str0 with deficit := 500 } ∧ strRec (stored 0x20A 200 s) 0 = none) := by decide +kernel

theorem test_meets_StringMinutes :
    (let r := { str0 with baselineMinute := 59 }; let s := onString r 7; strRec s 0 = some r ∧ baselineDue s 0 = true) ∧
    (let r := { str0 with baselineMinute := 59 }; let s := withString 0 r run; baselineDue s 0 = true ∧ currentBad s 0 = true) ∧
    (let r := { str0 with tempMinute := 59, runaway := 1, tempHistory := [220] }; let s := onString r 21;
      strRec s 0 = some r ∧ temperatureDue s 0 = true ∧ 4 * r.baseline < strCurrent s 0 ∧ currentBad s 0 = false ∧
      30 ≤ temperatureRise (pushLast 30 r.tempHistory r.temp)) ∧
    (let r := { str0 with tempMinute := 59, runaway := 1 }; let s := onString r 20;
      temperatureDue s 0 = true ∧ ¬ 4 * r.baseline < strCurrent s 0) := by decide +kernel

theorem test_meets_StringFaultRows :
    (let r := { str0 with runawaySpan := 599 }; let s := onString r 26; Shape s ∧ strRec s 0 = some r ∧ runawayDue s 0 = true) ∧
    (let r := { str0 with runaway := 1, returnSpan := 599 }; let s := onString r 7; strRec s 0 = some r ∧ returnDue s 0 = true) ∧
    (let r := { str0 with temp := 501, overtempSpan := 59 }; let s := onString r 0; strRec s 0 = some r ∧ overtempDue s 0 = true) := by
  decide +kernel

theorem test_meets_StartVoltageSpan :
    let w := withString 0 { str0 with deficit := 101 } run
    let s := withMean 0 46500 { w with str := { w.str with busSpan := 59 } }
    inRun s = true ∧ busSpanDue s = true ∧ s.src.mains.state ≠ .present ∧ pointActive s Pt.fuelCritical = false ∧ depthOver s = false ∧
      s.str.depthSpent = false ∧ s.str.depthHeld = false ∧ testRunning s = false := by decide +kernel

theorem test_meets_ReconnectRows :
    (let s := withString 2 (rec0 .matching) run; Shape s ∧ reconnecting s = some 2 ∧ strRec s 2 = some (rec0 .matching) ∧
      (rec0 .matching).stage = .matching ∧ reconnectOverdue s 2 = true ∧ matchHolds s 2 = false) ∧
    (let s := withMean 8 100 (withString 2 (rec0 .checking) run); reconnecting s = some 2 ∧ strRec s 2 = some (rec0 .checking) ∧
      (rec0 .checking).stage = .checking ∧ (rec0 .checking).inrushTimer = true ∧ currentBad s 2 = false ∧
      (strCurrent s 2).natAbs ≤ percentC s.settings 2 ((rec0 .checking).prof s.settings 13)) ∧
    (let s := withMean 8 1001 (withString 2 (rec0 .checking) run); reconnecting s = some 2 ∧
      ¬ (strCurrent s 2).natAbs ≤ percentC s.settings 2 ((rec0 .checking).prof s.settings 13)) := by decide +kernel

theorem test_meets_StringCommands_isolate :
    let at_ := fun (r : StringRec) => atPost 0 Op.stringIsolate 1 (withArgs 3 0 (withString 3 r run))
    (Shape run ∧ Listens run ∧ dispatchRefusal Op.stringIsolate run = none ∧ dispatchRefusal Op.stringReconnect run = none) ∧
      strRec (atPost 0 Op.stringIsolate 1 (withArgs 4 0 run)) 4 = none ∧ arg (at_ str0) 0 1 = 3 ∧
      ((strRec (at_ { str0 with phase := .isolated }) 3).map (·.phase)) = some .isolated ∧
      ((strRec (at_ { str0 with phase := .fault }) 3).map (·.phase)) = some .fault ∧
      ((strRec (at_ (rec0 .matching)) 3).map (·.phase)) = some .reconnecting ∧
      ((strRec (at_ str0) 3).map (·.phase.connected)) = some true := by decide +kernel

/-- A string ready to reconnect. -/
def apart : State := withMean 0 54000 (withMean 5 30000 (withArgs 3 0 (withString 3 { str0 with phase := .isolated } run)))

theorem test_meets_StringCommands_reconnect :
    let u := atPost 0 Op.stringReconnect 1 apart
    strRec u 3 = some { str0 with phase := .isolated } ∧ Phase.isolated.open = true ∧ reconnecting u = none ∧ u.bus.eq.running = false ∧
      testRunning u = false ∧ chanBad u 5 = false ∧ chanBad u 0 = false ∧ (str0.prof u.settings 14 : Int) ≤ meanOf u 5 := by decide +kernel

theorem test_meets_StringCommands_refused :
    (reconnecting (atPost 0 Op.stringReconnect 1 (withString 1 (rec0 .matching) apart))).isSome ∧
      (atPost 0 Op.stringReconnect 1 (setEq (fun e => { e with running := true }) apart)).bus.eq.running = true ∧
      testRunning (atPost 0 Op.stringReconnect 1 (setTest (fun t => { t with state := .running }) apart)) = true ∧ chanBad run 5 = true ∧
      (let u := atPost 0 Op.stringReconnect 1 (withMean 5 29999 apart); meanOf u 5 < str0.prof u.settings 14) := by decide +kernel

/-! ## Bus Regulator -/

/-- A claim table. -/
def table (l : List (Slot × Int × Nat)) : Claims := l.foldl (fun c p => c.put p.1 (some ⟨p.2.1, p.2.2⟩)) .empty

theorem test_meets_TargetRule : Claims.empty.held raisingSlots = [] ∧
    ((table [(.test, 46000, 1)]).held raisingSlots = [] ∧ (table [(.test, 46000, 1)]).get .test = some ⟨46000, 1⟩ ∧
      (46000 : Int) < noBattery words ∧ (table [(.test, 46000, 1)]).get .matching = none) ∧
    (let c := table [(.strings, 54000, 2), (.equalize, 56400, 5), (.generator, 56400, 5), (.thermal, 56400, 1)];
      c.get .equalize = some ⟨56400, 5⟩ ∧ c.get .generator = some ⟨56400, 5⟩ ∧ c.get .thermal = some ⟨56400, 1⟩ ∧
      raisingSlots.idxOf .equalize < raisingSlots.idxOf .generator ∧ decidingLevel words c = (56400, some .equalize)) ∧
    (let c := table [(.strings, 54000, 2), (.matching, 51450, 9), (.thermal, 51450, 8), (.test, 53999, 1)];
      decidingLevel words c = (51450, some .thermal) ∧ (51450 : Int) < 54000) ∧
    busMin words ≤ busMax words ∧ (targetOf words (table [(.strings, 70000, 0)])).2 = some .window ∧
    (postClaim .test 46000 run).bus.target.isSome ∧ ((postClaim .test 46000 run).bus.claims.get .test).isSome ∧ Slot.test ≠ Slot.strings := by
  decide +kernel

theorem test_meets_TargetRule_stored :
    let s := setBus (fun b => { b with target := some 54000, setpoint := some 54000 }) run
    Stores 0x20C 57600 s ∧ Stores 0x214 54001 s ∧ Stores 0x215 53999 s ∧ Stores 0x215 54000 s ∧
      clampWindow (stored 0x214 54001 s).settings 54000 = 54001 ∧ clampWindow (stored 0x215 53999 s).settings 54000 = 53999 ∧
      clampWindow (stored 0x215 54000 s).settings 54000 = 54000 ∧ (stored 0x214 54001 s).bus.target.isSome ∧
      (stored 0x214 54001 s).bus.setpoint = some 54000 := by decide +kernel

theorem test_meets_TargetRule_decides :
    (table [(.strings, 54000, 2), (.equalize, 56400, 5), (.generator, 56400, 5)]).decides (· > ·) raisingSlots .equalize ⟨56400, 5⟩ ∧
      (table [(.strings, 54000, 2), (.matching, 51450, 9), (.thermal, 51450, 8)]).decides (· < ·) ceilingSlots .thermal ⟨51450, 8⟩ := by
  refine ⟨⟨by decide, by decide, ?_⟩, ⟨by decide, by decide, ?_⟩⟩ <;>
  · intro j hj w hw
    simp only [raisingSlots, ceilingSlots, List.mem_cons, List.not_mem_nil, or_false] at hj
    rcases hj with rfl | rfl | rfl <;> cases hw <;> decide

/-- The regulator with a target and a setpoint. -/
def ramping (target setpoint : Int) : State := setBus (fun b => { b with target := some target, setpoint := some setpoint }) run

theorem test_meets_BusEvaluation : inRun (ramping 54000 53950) = true ∧ (ramping 54000 53950).bus.target = some 54000 ∧
    (ramping 54000 53950).bus.setpoint = some 53950 ∧ ((54000 - 53950 : Int).natAbs : Int) ≤ rampRate words ∧
    (rampRate words : Int) < (54000 - 53949 : Int).natAbs ∧ (rampRate words : Int) < (53949 - 54000 : Int).natAbs ∧
    shelfRating run = 4000 ∧ shelfRating State.reset = 0 ∧ ((39949 : Int) + 50 < 40000) := by decide +kernel

/-- Words with an equalize allowed every day. -/
def eqWords : List (Nat × Word) := [(0x183, 1), (0x18F, 1), (0x190, 60)]

/-- A mains supply and a string ready for an equalize. -/
def eqReady : State :=
  let s := setXfer (fun x => { x with state := .onMains }) (setMains (fun m => { m with state := .present }) (withString 0 str0 (put eqWords run)))
  { s with str := { s.str with handed := { s.str.handed with equalizeLevel := some 56400, connected := [⟨0, .full, 0⟩] } } }

theorem test_meets_ScheduleAndDuration_due : inRun eqReady = true ∧ eqReady.bus.recheck = false ∧ eqReady.clk.state ≠ .unset ∧
    eqReady.bus.eq.nextCheck ≤ now eqReady ∧ scheduleDue eqReady = true ∧ equalizeFails true eqReady = 0 ∧
    equalizeFails true (withDin 12 true eqReady) = 9 ∧ scheduleDue (withDin 12 true eqReady) = true ∧ scheduleDue run = false := by decide +kernel

theorem test_meets_ScheduleAndDuration_ends :
    (let s := setEq (fun e => { e with running := true, duration := 60, elapsed := 59 }) (withString 1 { str0 with phase := .isolated } eqReady);
      Shape s ∧ inRun s = true ∧ equalizeDue s = true ∧ strRec s 0 = some str0 ∧ str0.phase.connected = true ∧
      strRec s 1 = some { str0 with phase := .isolated }) ∧
    (let s := withMean 0 46000 (setTest (fun t => { t with state := .running, duration := 60, elapsed := 59, endVoltage := 46000 }) run);
      Shape s ∧ testDue s = true ∧ validMean s 0 = some 46000 ∧ s.bus.test.endVoltage = 46000) ∧
    (let s := withMean 0 46001 (setTest (fun t => { t with state := .running, duration := 60, elapsed := 59, endVoltage := 46000 }) run);
      testDue s = true ∧ validMean s 0 = some 46001) := by decide +kernel

theorem test_meets_ScheduleAndDuration_order :
    AllHold (equalizeCases true eqReady) ∧ FirstFails (equalizeCases true (setEq (fun e => { e with running := true }) eqReady)) 0 ∧
    FirstFails (equalizeCases true (withDin 12 true eqReady)) 8 ∧ AllHold (equalizeCases false (withDin 12 true eqReady)) := by
  decide +kernel

theorem test_meets_EqualizeAndTestCommands_equalize : Shape eqReady ∧ Listens eqReady ∧ dispatchRefusal Op.equalizeStart eqReady = none ∧
    dispatchRefusal Op.equalizeCancel eqReady = none ∧ equalizeFails false (atPost 0 Op.equalizeStart 1 eqReady) = 0 ∧
    equalizeFails false (atPost 0 Op.equalizeStart 1 run) ≠ 0 ∧ (atPost 0 Op.equalizeCancel 1 run).bus.eq.running = false ∧
    (atPost 0 Op.equalizeCancel 1 (setEq (fun e => { e with running := true }) run)).bus.eq.running = true := by decide +kernel

theorem test_meets_EqualizeAndTestCommands_test :
    dispatchRefusal Op.testStart eqReady = none ∧ dispatchRefusal Op.testAbort eqReady = none ∧
    testRefusal 600 50000 (atPost 0 Op.testStart 1 (setGen (fun g => { g with state := .standby }) eqReady)) = none ∧
    arg (atPost 0 Op.testStart 1 (withArgs 600 50000 eqReady)) 0 1 = 600 ∧
    testRefusal 0 50000 (atPost 0 Op.testStart 1 eqReady) = some (.refusedRange, 1) ∧
    (atPost 0 Op.testAbort 1 run).bus.test.state ≠ .running ∧
    (atPost 0 Op.testAbort 1 (setTest (fun t => { t with state := .running }) run)).bus.test.state = .running := by decide +kernel

theorem test_meets_EqualizeAndTestCommands_equalizeOrder :
    AllHold (equalizeCases false (atPost 0 Op.equalizeStart 1 eqReady)) ∧
    FirstFails (equalizeCases false (atPost 0 Op.equalizeStart 1 (setEq (fun e => { e with running := true }) eqReady))) 0 ∧
    FirstFails (equalizeCases false (atPost 0 Op.equalizeStart 1 (withPoint Pt.battOvertemp .activeUnack eqReady))) 7 := by
  decide +kernel

/-- A state ready for a reserve test, with the argument words of its post. -/
def testReady (minutes volts : Word) : State := withArgs minutes volts (setGen (fun g => { g with state := .standby }) eqReady)

/-- What TEST_START asks of a state at its post. -/
def casesAtPost (s : State) : List Bool := let u := atPost 0 Op.testStart 1 s; testCases (arg u 0 1) (arg u 0 2) u

theorem test_meets_EqualizeAndTestCommands_testOrder :
    AllHold (casesAtPost (testReady 600 50000)) ∧ FirstFails (casesAtPost (testReady 9 50000)) 0 ∧
    FirstFails (casesAtPost (testReady 601 50000)) 0 ∧ FirstFails (casesAtPost (testReady 10 50001)) 1 ∧
    FirstFails (casesAtPost (put [(0x217, 42001)] (testReady 10 42000))) 2 ∧
    FirstFails (casesAtPost (withPoint Pt.mainsAbsent .activeUnack (put [(0x300, 3)] (testReady 600 50000)))) 10 := by decide +kernel

/-! ## Rectifier Roster -/

theorem test_meets_RosterEvaluation : Shape run ∧ inRun run = true ∧ validMean (withMean 1 200 run) 1 = some 200 ∧ validMean run 1 = none ∧
    run.ros.loadSeen = false ∧ (noteLoadSeen (withMean 1 200 run)).ros.loadSeen = true := by
  decide +kernel

/-- A module in a state entered some seconds ago. -/
def aged (st : ModState) (n : Nat) : ModuleRec := { mod0 with state := st, entered := 1000000 - n }

/-- A module online and one resting at the head of the queue, under an unlimited source. -/
def adding : State :=
  let s := withDin 0 true (withModule 0 (aged .online 9) (withModule 7 { aged .resting 9 with starts := 65535 } run))
  { s with ros := { s.ros with queue := [7], cap := .unlimited } }

theorem test_meets_RosterEvaluation_add : Shape adding ∧ inRun adding = true ∧ adding.ros.queue.head? = some 7 ∧ (modRec adding 7).isSome ∧
    WantsModule 0 adding ∧ adding.ros.cap.dead = false ∧ headFits adding = true ∧
    modState (after .rosterEvaluation adding) 7 = .starting := by decide +kernel

theorem test_meets_RosterEvaluation_load :
    let s := put [(0x220, 0)] adding
    ¬ WantsModule 0 s ∧ WantsModule 401 s ∧ ¬ WantsModule 400 s ∧ s.ros.shedSpan + 1 < 600 := by decide +kernel

theorem test_meets_RosterEvaluation_settled : ModulesSettled adding ∧ ModulesSettled (withModule 3 (aged .failed 299) adding) := by decide +kernel

theorem test_meets_RosterEvaluation_unsettled : ¬ ModulesSettled (withModule 3 (aged .failed 300) adding) := by decide +kernel

/-- `adding` without a minimum count: a rotation alone can start the head of the queue. -/
def swapping : State := put [(0x220, 0), (0x222, 0), (0x223, 0), (0x226, 0)] adding

theorem test_meets_RosterEvaluation_swap : ModulesSettled swapping ∧ ¬ WantsModule 0 swapping ∧
    SwapDue swapping (addRunSeconds swapping) (7, 0) ∧ (modRec swapping 7).isSome ∧
    modState (after .rosterEvaluation swapping) 7 = .starting ∧ modState (after .rosterEvaluation swapping) 0 = .online := by decide +kernel

theorem test_meets_RosterEvaluation_noSwap :
    let s := put [(0x226, 1)] swapping
    swapPair (addRunSeconds s) = some (7, 0) ∧ ¬ SwapDue s (addRunSeconds s) (7, 0) ∧
      modulesIn (after .rosterEvaluation s) .starting = [] := by decide +kernel

theorem test_meets_ModuleRows_start :
    (let s := withModule 7 (aged .starting 30) run; Shape s ∧ inRun s = true ∧ modRec s 7 = some (aged .starting 30) ∧
      (aged .starting 30).state = .starting ∧ 30 ≤ since s (aged .starting 30).entered ∧ modOk s 7 = false) ∧
    (let s := withDin 7 true (withModule 7 (aged .starting 30) run); modOk s 7 = true ∧ incoming s 7 = false) ∧
    (let s := setSwap (fun w => { w with inProgress := true, incoming := 7, outgoing := 2 })
        (withDin 7 true (withModule 2 (aged .online 9) (withModule 7 (aged .starting 30) run)));
      modOk s 7 = true ∧ incoming s 7 = true ∧ s.ros.swap.outgoing ≠ 7 ∧ modState s s.ros.swap.outgoing = .online) := by decide +kernel

theorem test_meets_ModuleRows_swap :
    (let s := setSwap (fun w => { w with inProgress := true, incoming := 7, outgoing := 2 })
        (withModule 2 (aged .online 9) (withModule 7 (aged .starting 30) run));
      modOk s 7 = false ∧ incoming s 7 = true ∧ s.log.queue.length + 3 ≤ 32) ∧
    (withLog 29 run).log.queue.length + 3 ≤ 32 ∧ incoming (withModule 7 (aged .starting 30) run) 7 = false := by decide +kernel

theorem test_meets_ModuleRows_stop :
    (let s := withDin 3 true (withModule 3 (aged .stopping 10) run); modRec s 3 = some (aged .stopping 10) ∧ modOk s 3 = true ∧
      10 ≤ since s (aged .stopping 10).entered ∧ (aged .stopping 10).destService = false ∧ s.log.queue.length + 2 ≤ 32) ∧
    (withLog 30 run).log.queue.length + 2 ≤ 32 ∧
    (let r := { aged .online 9 with watch := 4 }; let s := { withModule 0 r run with ros := { (withModule 0 r run).ros with cap := .unlimited } };
      modRec s 0 = some r ∧ watchDue s 0 = true) := by decide +kernel

theorem test_meets_RetryHoldEnd :
    (let s := withModule 0 (aged .failed 300) run; Shape s ∧ trainRuns s = true ∧ modRec s 0 = some (aged .failed 300) ∧
      (aged .failed 300).state = .failed ∧ 300 ≤ since s (aged .failed 300).entered) ∧
    (let s := withModule 7 (aged .failed 299) run; modRec s 7 = some (aged .failed 299) ∧ since s (aged .failed 299).entered < 300) ∧
    trainRuns (inStart .logScan true) = true := by decide +kernel

/-- Three modules online without load. -/
def shedding : State :=
  let s := withModule 0 (aged .online 9) (withModule 1 (aged .online 9) (withModule 2 { aged .online 9 with hours := 7 } run))
  { s with ros := { s.ros with shedSpan := 599 } }

theorem test_meets_ShedRows : Shape shedding ∧ inRun shedding = true ∧ shedCandidate shedding = some 2 ∧ 600 ≤ shedding.ros.shedSpan + 1 ∧
    (modulesIn (withModule 4 (aged .starting 1) shedding) .starting).length ≤ 1 ∧
    (withModule 4 (aged .starting 1) shedding).ros.cap.holds (onlineCapacity (withModule 4 (aged .starting 1) shedding)) = false := by
  decide +kernel

theorem test_meets_ShedRows_stored :
    let s := { shedding with ros := { shedding.ros with cap := .limited 1500 } }
    Stores 0x218 501 s ∧ Stores 0x221 60 s ∧ (modulesIn (stored 0x218 501 s) .starting).length ≤ 1 ∧
      (stored 0x218 501 s).ros.cap.holds (onlineCapacity (stored 0x218 501 s)) = false ∧
      (stored 0x221 60 s).ros.cap.holds (onlineCapacity (stored 0x221 60 s)) = true := by decide +kernel

theorem test_meets_ModuleCommands_service :
    let at_ := fun (r : ModuleRec) => modRec (atPost 0 Op.moduleService 1 (withArgs 7 0 (withModule 7 r run))) 7
    Shape run ∧ Listens run ∧ dispatchRefusal Op.moduleService run = none ∧ dispatchRefusal Op.moduleReturn run = none ∧
      arg (atPost 0 Op.moduleService 1 (withArgs 7 0 run)) 0 1 = 7 ∧ modRec (atPost 0 Op.moduleService 1 (withArgs 8 0 run)) 8 = none ∧
      at_ (aged .service 1) = some (aged .service 1) ∧ at_ (aged .stopping 1) = some (aged .stopping 1) ∧
      (aged .stopping 1).destService = false ∧ at_ (aged .online 1) = some (aged .online 1) ∧ at_ (aged .resting 1) = some (aged .resting 1) ∧
      at_ (aged .barred 1) = some (aged .barred 1) := by decide +kernel

/-- A swap that can start: module 1 rests at the head, module 0 is the most worn. -/
def rotating : State :=
  let s := withModule 0 { aged .online 9 with hours := 240 } (withModule 1 (aged .resting 9) run)
  { s with ros := { s.ros with queue := [1], cap := .unlimited } }

theorem test_meets_ModuleCommands_rotate :
    let u := atPost 0 Op.rotateNow 1 rotating
    dispatchRefusal Op.rotateNow rotating = none ∧ u.ros.swap.inProgress = false ∧ anyStarting u = false ∧ u.ros.cap = .unlimited ∧
      attended u = false ∧ swapPair u = some (1, 0) ∧ marginMet u (1, 0) = true ∧ (modRec u 1).isSome ∧
      (atPost 0 Op.rotateNow 1 (setSwap (fun w => { w with inProgress := true }) rotating)).ros.swap.inProgress = true ∧
      anyStarting (atPost 0 Op.rotateNow 1 (withModule 3 (aged .starting 1) rotating)) = true ∧
      (atPost 0 Op.rotateNow 1 run).ros.cap ≠ .unlimited ∧ attended (atPost 0 Op.rotateNow 1 (withDin 12 true rotating)) = true ∧
      swapPair (atPost 0 Op.rotateNow 1 { rotating with ros := { rotating.ros with queue := [] } }) = none ∧
      marginMet (atPost 0 Op.rotateNow 1 (put [(0x226, 241)] rotating)) (1, 0) = false := by decide +kernel

/-! ## Source Controller -/

/-- The transfer on the mains with a generator ready and called. -/
def called : State :=
  setXfer (fun x => { x with state := .onMains })
    (setGen (fun g => { g with state := .ready, requests := { g.requests with manual := some ⟨0, true, 2000000⟩ } }) (withDin 8 true run))

theorem test_meets_SourceRows :
    (inRun called = true ∧ called.src.xfer.state = .onMains ∧ mainsFailDue called = false ∧ called.src.mains.failHeld = false ∧
      callForGen called = true ∧ feedbacks called = (true, false)) ∧
    callForGen (setXfer (fun x => { x with state := .onMains }) run) = false ∧
    (let s := setMains (fun m => { m with state := .present, retransferSpan := 299 }) (setXfer (fun x => { x with state := .onGen }) run);
      s.src.xfer.state = .onGen ∧ retransferDue (countRetransfer s) = true) ∧
    (let s := setXfer (fun x => { x with state := .closingMains, confirmTimer := false }) (withDin 8 true run);
      s.src.xfer.state.confirms = some .onMains ∧ s.src.xfer.confirmTimer = false ∧ mainsFailDue s = false ∧
      s.src.mains.failHeld = false ∧ feedbacksAgree s = true ∧ feedbacksAgree (withDin 9 true s) = false) := by decide +kernel

/-- An outage whose delay has run, the generator ready and no request standing. -/
def outage (held : Bool) (st : XferState) : State :=
  setMains (fun m => { m with state := .absent, outageStart := 1000000 - 1800, failHeld := held })
    (setXfer (fun x => { x with state := st }) (setGen (fun g => { g with state := .ready }) run))

theorem test_meets_SourceRows_mainsFail :
    (outage false .onMains).src.mains.failHeld = false ∧ mainsFailDue (outage false .onMains) = true ∧
    requested (outage false .onMains) .mainsFail = false ∧ callForGen (checkMainsFail (outage false .onMains)) = true ∧
    (outage true .onMains).src.mains.failHeld = true ∧ mainsFailOver (outage true .onMains) = false ∧
    mainsFailOver (setMains (fun m => { m with state := .present }) (outage true .onMains)) = true ∧
    callForGen (checkMainsFail (setMains (fun m => { m with state := .present }) (outage true .onMains))) = false ∧
    callForGen (checkMainsFail (setGen (fun g => { g with requests := { g.requests with mainsFail := some ⟨0, true, 0⟩ } })
      (outage true .onMains))) = true := by decide +kernel

theorem test_meets_SourceRows_open :
    let s := setXfer (fun x => { x with deadRun := true, headingGen := true }) (outage false .open)
    s.src.xfer.state = .open ∧ s.src.xfer.deadRun = true ∧ s.src.xfer.headingGen = true ∧ callForGen (checkMainsFail s) = true ∧
      onlineCapacity s ≤ s.gen.capacity ∧ (outage false .open).src.xfer.deadRun = false ∧
      (let u := withModule 0 (aged .online 9) (setGen (fun g => { g with capacity := 499 }) s); u.gen.capacity < onlineCapacity u) ∧
      callForGen (checkMainsFail (setGen (fun g => { g with state := .standby }) s)) = false ∧
      (setXfer (fun x => { x with headingGen := false }) s).src.xfer.headingGen = false := by decide +kernel

theorem test_meets_SourceRows_onGen :
    let s := fun (n : Nat) => setMains (fun m => { m with state := .present, retransferSpan := n }) (outage false .onGen)
    (s 299).src.xfer.state = .onGen ∧ retransferDelay (s 299).settings = 299 + 1 ∧ loadForced (checkMainsFail (s 299)) = false ∧
      release (checkMainsFail (s 298)) = false ∧
      release (checkMainsFail (setGen (fun g => { g with runStart := some (1000000 - 1800) }) (s 298))) = true ∧
      (outage false .fault).src.xfer.state = .fault ∧ (XferState.opening.confirms).isSome ∧
      (setXfer (fun x => { x with confirmTimer := true }) (outage false .opening)).src.xfer.confirmTimer = true := by decide +kernel

theorem test_meets_MainsRows :
    (let s := setMains (fun m => { m with state := .absent, outageStart := 1000000 - 1800 }) run; inRun s = true ∧ mainsFailDue s = true ∧
      s.src.mains.failHeld = false ∧ requested s .mainsFail = false) ∧
    (let s := setMains (fun m => { m with state := .dip }) (inStart .settle true); Shape s ∧ trainRuns s = true ∧ s.src.mains.state = .dip) ∧
    (let s := setMains (fun m => { m with state := .qualifying, qualifySpan := 59, lastFreq := 5300 }) run; qualifyDue s = true ∧
      inFreqWindow s s.src.mains.lastFreq = true) ∧
    (let s := setMains (fun m => { m with state := .present, qualitySpan := 4, lastFreq := 5301 }) run; qualityDue s = true ∧
      inFreqWindow s s.src.mains.lastFreq = false) ∧
    (let s := setMains (fun m => { m with failHeld := true }) run; Stores 0x22F 0 s ∧ (stored 0x22F 0 s).src.mains.failHeld = true ∧
      Stores 0x22F 1 s ∧ (1 : Word) ≠ 0 ∧ (stored 0x22F 0 run).src.mains.failHeld = false) := by decide +kernel

/-- A transfer in a state, its timers running. -/
def inXfer (st : XferState) (gen : Bool) : State :=
  setXfer (fun x => { x with
    state := st, confirmTimer := true, mismatchWatch := true, deadTimer := true, headingGen := gen, mopen := driveOf st.mopens,
    gclose := driveOf st.gcloses }) run

theorem test_meets_TransferTimers_confirm :
    (let s := inXfer .opening true; Shape s ∧ inRun s = true ∧ s.src.xfer.state.confirms = some .open ∧ s.src.xfer.confirmTimer = true ∧
      feedbacksAgree s = true) ∧
    feedbacksAgree (inXfer .closingMains false) = false ∧ (inXfer .closingMains false).src.xfer.state.confirms = some .onMains ∧
    (let s := setGen (fun g => { g with state := .loaded }) (inXfer .onGen true); s.src.xfer.mismatchWatch = true ∧ feedbacksAgree s = false) := by
  decide +kernel

theorem test_meets_TransferTimers_dead :
    (let s := inXfer .open false; s.src.xfer.state = .open ∧ s.src.xfer.deadTimer = true ∧ s.src.xfer.headingGen = false) ∧
    (let s := setGen (fun g => { g with state := .ready, requests := { g.requests with manual := some ⟨0, true, 2000000⟩ }, capacity := 0 })
        (inXfer .open true);
      s.src.xfer.headingGen = true ∧ callForGen s = true ∧ onlineCapacity s ≤ s.gen.capacity) ∧
    callForGen (inXfer .open true) = false ∧ inRun (inStart .settle true) = false ∧ XferState.opening.confirms.isSome = true ∧
    (setXfer (fun x => { x with state := .fault, releasePending := true }) run).src.xfer.releasePending = true ∧
    run.src.xfer.state ≠ .fault := by decide +kernel

theorem test_meets_TransferRetry :
    let s := setXfer (fun x => { x with state := .fault }) (withDin 8 true run)
    Shape s ∧ Listens s ∧ dispatchRefusal Op.transferRetry s = none ∧
      (let u := atPost 0 Op.transferRetry 1 s; u.src.xfer.state = .fault ∧ u.src.xfer.releasePending = false ∧ feedbacks u = (true, false)) ∧
      feedbacks (atPost 0 Op.transferRetry 1 (withDin 9 true s)) ≠ (true, false) ∧
      (atPost 0 Op.transferRetry 1 (setXfer (fun x => { x with releasePending := true }) s)).src.xfer.releasePending = true ∧
      (atPost 0 Op.transferRetry 1 run).src.xfer.state ≠ .fault := by decide +kernel

/-! ## Generator Controller -/

/-- A generator in a state, its timer running. -/
def inGen (st : GenState) : State := setGen (fun g => { g with state := st, timer := true, oilTimer := true, rundownWatch := true }) run

theorem test_meets_GeneratorEvaluation : Shape run ∧ inRun run = true ∧ (inGen .ready).gen.state.running = true ∧
    (setGen (fun g => { g with residue := 358 }) (inGen .ready)).gen.residue < 359 ∧
    359 ≤ (setGen (fun g => { g with residue := 359 }) (inGen .ready)).gen.residue ∧ (inGen .standby).gen.state.running = false ∧
    meanOf (withMean 15 500 run) 15 = 500 := by decide +kernel

/-- A request of every kind. -/
def allRequests (s : State) : State :=
  setGen (fun g => { g with requests := ⟨some ⟨0, true, 0⟩, some ⟨0, true, 0⟩, some ⟨0, true, 1000000⟩, some ⟨0, false, 1000001⟩⟩ }) s

theorem test_meets_RequestRows :
    inRun (allRequests run) = true ∧ requestEnded (allRequests run) .exercise = true ∧ requestEnded (allRequests run) .manual = false ∧
    runLimitDue (setGen (fun g => { g with state := .loaded, runStart := some (1000000 - 28800) }) (allRequests run)) = true ∧
    (let s := setGen (fun g => { g with state := .standby, nextSlot := some 1000000 }) run; s.gen.slotStale = false ∧
      s.gen.nextSlot = some 1000000 ∧ 1000000 ≤ now s ∧ now s < 1000000 + 604800 ∧ skipReason 1000000 s = 0 ∧ requested s .exercise = false) ∧
    skipReason 1000000 (withDin 12 true (inGen .standby)) = 4 ∧ (withLog 31 run).log.queue.length < 32 := by decide +kernel

theorem test_meets_RequestRows_late :
    (let s := setGen (fun g => { g with state := .standby, nextSlot := some 395200 }) run; 395200 ≤ now s ∧ 395200 + 604800 ≤ now s ∧
      exerciseDay s.settings < 7 ∧ exerciseTime s.settings < 1440 ∧ skipReason 395200 s = 6) ∧
    7 ≤ exerciseDay (put [(0x238, 7)] run).settings ∧ Stores 0x238 7 run ∧ Stores 0x23B 1 run ∧
    (setGen (fun g => { g with slotStale := true }) run).gen.slotStale = true := by decide +kernel

theorem test_meets_StartRows :
    ((inGen .prestart).gen.timer = true ∧ (inGen .prestart).gen.state = .prestart ∧ (inGen .cranking).gen.state = .cranking) ∧
    (let s := setGen (fun g => { g with attempt := 2 }) (inGen .crankRest); Shape s ∧ s.gen.state = .crankRest ∧
      s.gen.attempt < startAttempts s.settings) ∧
    (let s := setGen (fun g => { g with attempt := 3 }) (inGen .crankRest); startAttempts s.settings ≤ s.gen.attempt ∧
      s.gen.firstFailure = none ∧ since s (1000000 - 86399) < 86400 ∧ 86400 ≤ since s (1000000 - 86400)) ∧
    (let s := setGen (fun g => { g with barStart := 1000000 - 1800 }) (inGen .barred); barOver s = true ∧ s.gen.requests.isEmpty = true ∧
      testRunning s = false ∧ (allRequests s).gen.requests.isEmpty = false ∧ barOver (allRequests s) = true) ∧
    barOver (setGen (fun g => { g with barStart := 1000000 - 1799 }) (inGen .barred)) = false := by decide +kernel

theorem test_meets_RunningRows :
    (Shape run ∧ (inGen .warmup).gen.state = .warmup ∧ (inGen .warmup).gen.timer = true ∧
      inFreqWindow (inGen .warmup) (inGen .warmup).gen.lastFreq = false ∧ inFreqWindow run 5300 = true) ∧
    ((inGen .loaded).gen.oilTimer = true ∧ (inGen .loaded).gen.state.running = true ∧ dinLevel (withDin 10 true run) 10 = true ∧
      dinLevel run 10 = false ∧ dinLevel (withDin 11 true run) 11 = true ∧ dinLevel run 11 = false) ∧
    (let s := setGen (fun g => { g with loadCheckFrom := 1000000, droopSpan := 4, lastFreq := 4799 }) (inGen .loaded);
      loadChecking s = true ∧ derateDue s = true ∧ s.gen.lastFreq < droopLimit s.settings ∧
      (setXfer (fun x => { x with state := .onGen }) s).src.xfer.state = .onGen) ∧
    loadChecking (setGen (fun g => { g with loadCheckFrom := 1000001 }) (inGen .loaded)) = false ∧
    (let s := setGen (fun g => { g with underspeedSpan := 9, lastFreq := 4499 }) (inGen .loaded); underspeedDue s = true ∧
      s.gen.lastFreq < underspeed s.settings) ∧
    inRun (inStart .settle true) = false := by decide +kernel

theorem test_meets_RunningRows_stored :
    (let s := setGen (fun g => { g with derates := 1 }) run; Stores 0x232 1000 s ∧ (stored 0x232 1000 s).gen.derates ≠ 0) ∧
    (let u := stored 0x232 1000 run; Stores 0x232 1000 run ∧ u.gen.derates = 0 ∧ u.src.xfer.state ≠ .onGen ∧ u.ros.cap = sourceCapacity u) ∧
    (let s := setXfer (fun x => { x with state := .onGen }) run; Stores 0x232 1000 s ∧ (stored 0x232 1000 s).src.xfer.state = .onGen ∧
      (stored 0x232 1000 s).ros.cap ≠ .limited (1000 : Word).toNat ∧ (modulesIn (stored 0x232 1000 s) .starting).length ≤ 1) := by
  decide +kernel

theorem test_meets_EndTimers :
    (let s := setGen (fun g => { g with lastFreq := 1 }) (inGen .shutdown); Shape s ∧ inRun s = true ∧ s.gen.state = .shutdown ∧
      s.gen.rundownWatch = true ∧ 0 < s.gen.lastFreq) ∧
    (let s := { inGen .shutdown with st := (inStart .settle true).st }; trainKept s = true ∧ s.gen.state = .shutdown ∧
      s.gen.rundownWatch = true) ∧
    ((inGen .cooldown).gen.timer = true ∧ (inGen .cooldown).gen.requests.isEmpty = true ∧ ranFor (inGen .cooldown) 1800 = false ∧
      ranFor (setGen (fun g => { g with runStart := some (1000000 - 1800) }) (inGen .cooldown)) 1800 = true) ∧
    ((inGen .stopping).gen.state = .stopping ∧ (inGen .stopping).gen.timer = true) := by decide +kernel

/-- SETTLE at its end after a reset that kept the power train, some conditions kept, their points URGENT with no raise delay, and the
generator so. -/
def keptWith (ids : List Nat) (f : Gen → Gen) : State :=
  let s := setGen f (withDin 11 true (put ([4, 5, 6].flatMap fun p => [(0x300 + 8 * p, 3), (0x302 + 8 * p, 0)]) settled))
  { s with conds := ids.foldl (fun l p => l.set p true) s.conds, st := { s.st with keepTrain := true } }

theorem test_kept_conditions_in_order : ((after (.settleEnd 0) (keptWith [6] fun g => { g with state := .cooldown })).log.queue.filter
    fun e => e.kind == .pointChange).map (·.subject) = [4, 6] := by decide +kernel

theorem test_rundown_judged_at_run : condOf (after (.settleEnd 0) (keptWith [4] fun g => { g with
    state := .shutdown, rundownDue := true, lastFreq := 1 })) Pt.genFailStop = true := by decide +kernel

theorem test_shed_at_run_waits :
    let m := fun st => { mod0 with state := st, entered := 999999 }
    let t := after (.settleEnd 0) (withModule 1 (m .stopping) (withModule 2 (m .online) (keptWith [] id)))
    modState t 1 = .resting ∧ modState t 2 = .stopping ∧ modState (after .rosterEvaluation t) 2 = .resting := by decide +kernel

/-- GEN_RUN as posted in slot 0. -/
def postedRun (minutes loaded : Word) (s : State) : State := atPost 0 Op.genRun 1 (withArgs minutes loaded s)

theorem test_meets_GenCommands_run : Shape run ∧ Listens run ∧ dispatchRefusal Op.genRun run = none ∧
    arg (postedRun 0 0 run) 0 1 < 1 ∧ 1440 < arg (postedRun 1441 0 run) 0 1 ∧ arg (postedRun 1440 1 run) 0 1 = 1440 ∧
    1 < arg (postedRun 1 2 run) 0 2 ∧ arg (postedRun 1 1 run) 0 2 ≤ 1 ∧ (postedRun 1 1 (inGen .disabled)).gen.state = .disabled ∧
    (let s := withPoint 8 .activeUnack run; (postedRun 1 1 s).gen.state ≠ .disabled ∧ pointActive (postedRun 1 1 s) Pt.fuelCritical = true) ∧
    testRunning (postedRun 1 1 (setTest (fun t => { t with state := .running }) run)) = true ∧
    requested (postedRun 1 1 (allRequests run)) .manual = true ∧ pointActive (postedRun 1 1 run) Pt.fuelCritical = false ∧
    testRunning (postedRun 1 1 run) = false ∧ requested (postedRun 1 1 run) .manual = false := by decide +kernel

theorem test_meets_GenCommands_reset : dispatchRefusal Op.genReset run = none ∧
    (atPost 0 Op.genReset 1 (inGen .barred)).gen.state = .barred ∧ (atPost 0 Op.genReset 1 (inGen .barred)).gen.requests.isEmpty = true ∧
    (atPost 0 Op.genReset 1 (inGen .shutdown)).gen.state = .shutdown ∧ (atPost 0 Op.genReset 1 (inGen .shutdown)).gen.lastFreq = 0 ∧
    (atPost 0 Op.genReset 1 (setGen (fun g => { g with lastFreq := 1 }) (inGen .shutdown))).gen.lastFreq ≠ 0 ∧
    (atPost 0 Op.genReset 1 (inGen .ready)).gen.state ≠ .barred := by decide +kernel

/-- GEN_SERVICE as posted in slot 0. -/
def postedService (v : Word) (s : State) : State := atPost 0 Op.genService 1 (withArgs v 0 s)

theorem test_meets_GenCommands_service : dispatchRefusal Op.genService run = none ∧ 1 < arg (postedService 2 run) 0 1 ∧
    arg (postedService 1 run) 0 1 = 1 ∧ arg (postedService 0 run) 0 1 = 0 ∧ genFitted (postedService 1 run) = true ∧
    genFitted (postedService 1 { run with st := { run.st with desc := some ⟨3, 4, 0xFF, false, false⟩ } }) = false ∧
    (postedService 1 run).gen.service = false ∧ (postedService 1 (setGen (fun g => { g with service := true }) run)).gen.service = true ∧
    (postedService 1 (inGen .standby)).gen.state = .standby ∧ (postedService 1 (inGen .barred)).gen.state = .barred ∧ (postedService 1 (inGen .crankRest)).gen.state.inSeries = true ∧
    (postedService 1 (inGen .cooldown)).gen.state.running = true ∧ (postedService 0 (inGen .disabled)).gen.state = .disabled ∧
    (postedService 0 (inGen .disabled)).gen.requests.isEmpty = true ∧ (postedService 0 (inGen .stopping)).gen.state = .stopping := by
  decide +kernel

theorem test_meets_GenStop : Shape run ∧ inRun run = true ∧ ownWordActive run = false ∧ (withSil .autonomous 0 run).sil.state = .autonomous ∧
    run.sil.state ≠ .autonomous ∧ requested (atPost 0 Op.genStop 1 run) .manual = false ∧
    requested (atPost 0 Op.genStop 1 run) .exercise = false ∧ requested (atPost 0 Op.genStop 1 (allRequests run)) .manual = true ∧
    requested (atPost 0 Op.genStop 1 (allRequests run)) .exercise = true := by decide +kernel

/-! ## Alarm Unit, silence, command window, memory -/

theorem test_meets_AlarmEvaluation : Shape run ∧ inRun run = true ∧ inRun (inStart .settle true) = false ∧ Pt.lowSoc ∈ thresholdPoints ∧
    thresholdInput run Pt.lowSoc = none ∧ thresholdInput (withMean 0 43999 run) Pt.busLow = some 43999 ∧
    thresholdJudged (withMean 0 43999 run) Pt.busLow = true ∧ thresholdJudged (withMean 0 44000 run) Pt.busLow = false := by decide +kernel

theorem test_meets_PointTimers : (point (withPoint 0 .raising run) 0).state = .raising ∧ (point (withPoint 31 .clearing run) 31).state = .clearing ∧
    (point run 31).state ≠ .raising ∧ (point run 0).state ≠ .clearing ∧ Shape (withPoint 31 .clearing run) ∧ inRun (withPoint 0 .raising run) = true := by
  decide +kernel

theorem test_meets_PointTimers_class :
    let at_ := fun (c : Word) (st : PointState) => withPoint 31 st (put [(0x3F8, c), (0x3FA, 0)] run)
    let held := fun (s : State) => { s with alm := { s.alm with copies := s.alm.copies.set 31 true } }
    (0x3F8#13).toNat = 0x300 + 8 * (31 : Fin 32).val ∧ Stores 0x3F8 0 (at_ 3 .activeUnack) ∧ pointClass (at_ 3 .activeUnack) 31 = 3 ∧
      Stores 0x3F8 0 (at_ 3 .normal) ∧ (point (stored 0x3F8 0 (at_ 3 .normal)) 31).state = .normal ∧
      (point (stored 0x3F8 0 (at_ 3 .activeUnack)) 31).state ≠ .normal ∧
      (stored 0x3F8 0 (at_ 3 .activeUnack)).log.queue.length < 32 ∧ Stores 0x3F8 3 (at_ 0 .normal) ∧ pointClass (at_ 0 .normal) 31 = 0 ∧
      copyOf (stored 0x3F8 3 (at_ 0 .normal)) 31 = false ∧ copyOf (stored 0x3F8 3 (held (at_ 0 .normal))) 31 = true ∧
      heldBack (stored 0x3F8 3 (held (at_ 0 .normal))) 31 = false ∧
      pointWord (stored 0x3F8 3 (held (at_ 0 .normal))).settings 31 2 = 0 ∧ pointWord (put [(0x3FA, 1)] run).settings 31 2 ≠ 0 := by
  decide +kernel

theorem test_meets_PointTimers_urgent :
    let s := setTest (fun t => { t with state := .running }) (withPoint 0 .activeAck (put [(0x300, 2), (0x301, 1)] run))
    (0x300#13).toNat = 0x300 + 8 * (0 : Fin 32).val ∧ Stores 0x300 3 s ∧ pointClass s 0 = 2 ∧ (point (stored 0x300 3 s) 0).state.active = true ∧
      (stored 0x300 3 s).bus.test.state = .running ∧ Stores 0x300 1 s ∧ Stores 0x300 2 s ∧
      (0x301#13).toNat = 0x301 + 8 * (0 : Fin 32).val ∧ Stores 0x301 0 (withPoint 0 .clearedUnack s) ∧ Stores 0x301 1 s ∧
      (point (stored 0x301 0 (withPoint 0 .clearedUnack s)) 0).state = .clearedUnack ∧
      (point (stored 0x301 0 s) 0).state ≠ .clearedUnack := by decide +kernel

theorem test_meets_AckCommands :
    let at_ := fun (p : Word) (st : PointState) => atPost 0 Op.ackPoint 1 (withArgs p 0 (withPoint 31 st run))
    dispatchRefusal Op.ackPoint run = none ∧ dispatchRefusal Op.ackAll run = none ∧ 31 < arg (at_ 32 .normal) 0 1 ∧
      arg (at_ 31 .normal) 0 1 ≤ 31 ∧ (point (at_ 31 .activeUnack) 31).state = .activeUnack ∧
      (point (at_ 31 .clearedUnack) 31).state = .clearedUnack ∧ (point (at_ 31 .activeAck) 31).state ≠ .activeUnack ∧
      (point (at_ 31 .activeAck) 31).state ≠ .clearedUnack := by decide +kernel

theorem test_meets_Silence :
    inRun run = true ∧ (withSil .supervised 598 run).sil.count + 1 < silenceLimit run.settings * 10 ∧
    silenceLimit (put [(0x240, 0)] run).settings = 0 ∧ (withSil .grace 600 run).sil.state = .grace ∧
    (withSil .autonomous 600 run).sil.state = .autonomous ∧ silenceDue (withSil .supervised 599 run) = true ∧
    (withSil .supervised 599 run).sil.count < 4294967295 ∧ Listens (withSil .autonomous 0 run) ∧
    dispatchRefusal Op.resume (withSil .autonomous 0 run) = none ∧ run.sil.state ≠ .autonomous ∧ dispatchRefusal Op.resume run = none := by
  decide +kernel

theorem test_meets_Silence_grace :
    (withSil .supervised 599 run).sil.state = .supervised ∧ 0 < silenceLimit run.settings ∧
    silenceLimit run.settings * 10 ≤ min 4294967295 ((withSil .supervised 599 run).sil.count + 1) ∧
    (let s := withSil .grace 600 (withString 3 { rec0 .checking with priorFault := true } run); Shape s ∧ s.sil.state = .grace ∧
      reconnecting s = some 3 ∧ strRec s 3 = some { rec0 .checking with priorFault := true } ∧
      strPhase (after .graceExpiry s) 3 = .fault ∧ (after .graceExpiry s).str.iso.getD 3 .unpowered = .asserted) ∧
    reconnecting (withSil .grace 600 run) = none := by decide +kernel

theorem test_meets_WindowRows : starting (inStart .settle false) = true ∧ starting run = false ∧ starting (inStart .commissioning false) = false ∧
    (let s := { run with cmd := { run.cmd with interval := 598 } }; inRun s = true ∧ s.cmd.interval + 1 < 600) ∧
    (let s := { run with cmd := { run.cmd with interval := 599 } }; 600 ≤ s.cmd.interval + 1) ∧
    recordFields run 13 = some [15, 16960] ∧ recordFields run 1 = none ∧ Listens run ∧
    ({ run with cmd := { run.cmd with freeze := .frozen } } : State).cmd.freeze = .frozen ∧ run.cmd.freeze ≠ .frozen ∧ 1 < (2 : Word).toNat := by
  decide +kernel

theorem test_meets_Posts : postOf (.logNote 15 3) = some (15, Op.logNote, 3) ∧ holds run = false ∧ starting run = false ∧
    holds (withPath (fun p => { p with busy := some ⟨.startupLoad 0 1, 0, true⟩ }) run) = true ∧ holds State.reset = true ∧
    (holds (inStart .settle false) = false ∧ starting (inStart .settle false) = true) ∧ Shape run ∧ Listens run ∧
    dispatchRefusal 0x77 run = some (.refusedUnknown, 0) ∧ knownOpcode 0x77 = false ∧ knownOpcode Op.logNote = true ∧
    takenInCommissioning Op.genRun = false ∧ takenInAutonomy Op.genRun = false ∧ (inStart .commissioning false).st.state = .commissioning ∧
    (atPost 0 0x77 1 (withLog 31 run)).log.queue.length < 32 := by decide +kernel

theorem test_meets_Posts_full : 32 ≤ (atPost 0 0x77 1 (withLog 32 run)).log.queue.length ∧
    (after (.unknownCommand 0 0x77 1) (withLog 32 run)).log.gap = true := by decide +kernel

theorem test_meets_LogNote : Shape run ∧ Listens run ∧ Listens (inStart .commissioning false) ∧
    (atPost 0 Op.logNote 1 (withLog 30 run)).log.queue.length + 2 ≤ 32 ∧ 32 ≤ (atPost 0 Op.logNote 1 (withLog 32 run)).log.queue.length := by
  decide +kernel

/-- LOAD_PRESET as posted in slot 0. -/
def postedPreset (p n : Word) (s : State) : State := atPost 0 Op.loadPreset 1 (withArgs p n s)

theorem test_meets_WindowCommands : dispatchRefusal Op.setClock run = none ∧ (atPost 0 Op.setClock 1 (withLog 31 run)).log.queue.length < 32 ∧
    inRun run = true ∧ dispatchRefusal Op.settingsLock run = none ∧ dispatchRefusal Op.loadPreset run = none ∧
    3 < arg (postedPreset 4 0 run) 0 1 ∧ 2 < arg (postedPreset 3 3 run) 0 2 ∧ arg (postedPreset 3 2 run) 0 1 ≤ 3 ∧
    chemistryOf (arg (postedPreset 3 2 run) 0 2) = some .nicad ∧ run.st.lock = false ∧ profileInUse (postedPreset 3 2 run) 3 = false ∧
    profileWriteStands (postedPreset 3 2 run) = false ∧
    profileInUse (postedPreset 0 2 (setEq (fun e => { e with running := true }) eqReady)) 0 = true ∧
    profileWriteStands (postedPreset 3 2 (withPath (fun p => { p with queue := [.profileWrite 1] }) run)) = true ∧
    (atPost 0 Op.logNote 1 (withLog 31 run)).log.queue.length = 31 := by decide +kernel

theorem test_meets_HostWrites : Memory.wf run.path.cells = true ∧ holds run = false ∧ holds State.reset = true ∧
    areaOf run.path.size (prBase run) 24575 = .other ∧ areaOf run.path.size (prBase run) 32768 = .other ∧
    areaOf run.path.size (prBase run) 131071 = .anchorRest ∧ areaOf run.path.size (prBase run) 131024 = .remapTable ∧
    areaOf run.path.size (prBase run) 130992 = .spare ∧ areaOf run.path.size (prBase run) 131072 = .other ∧
    run.path.faulty.contains (run.path.redirect 24575) = false ∧ run.st.lock = false ∧
    areaOf run.path.size (prBase run) 131008 = .descriptor 0 ∧ areaOf run.path.size (prBase run) 131023 = .descriptor 15 ∧
    areaOf run.path.size (prBase run) 24576 = .pr (0 : BitVec 13).toNat ∧
    areaOf run.path.size (prBase run) 32767 = .pr (8191 : BitVec 13).toNat ∧
    (holds (inStart .settle false) = false ∧ starting (inStart .settle false) = true) := by decide +kernel

theorem test_meets_HostWrites_guarded : Listens run ∧ Listens (inStart .commissioning false) ∧ guardFails 0x216 1000 run = none ∧
    guardFails 0x216 1001 run = some 3 ∧ inRange run.settings 0x216 1001 = false ∧ inRange run.settings 0x216 0 = false ∧
    guardFails 0x180 56400 run = some 4 ∧ guardFails 0x3FF 5 run = none ∧
    guardFails 0x180 54001 (setEq (fun e => { e with running := true }) eqReady) = some 5 ∧
    guardFails 0x216 100 { run with st := { run.st with lock := true } } = some 1 ∧
    guardFails 0x216 100 (inStart .commissioning false) = some 2 ∧
    (let s := setStart (fun x => { x with lock := true }) (inStart .commissioning false);
      Shape s ∧ Listens s ∧ s.st.lock = true ∧ s.st.state ≠ .run ∧ guardFails 0x216 100 s = some 1) ∧
    (takenAtOnce 0x180 = false ∧ Stores 0x180 54001 run ∧ takenAtOnce 0x3FF = false ∧ Stores 0x3FF 5 run) ∧
    keepsOrder run.settings 0x180 56400 = false ∧ inRange run.settings 0x180 56400 = true ∧
    profileInUse (setEq (fun e => { e with running := true }) eqReady) 0 = true := by decide +kernel

theorem test_meets_HostWrites_pr : Shape run ∧ SlotsWhole run ∧ Memory.wf run.path.cells = true ∧ Listens run ∧
    prArea (0x400 : BitVec 13).toNat = .counter ∧ prArea (0x5FF : BitVec 13).toNat = .counter ∧
    prArea (0x1000 : BitVec 13).toNat = .logRing ∧ prArea (0x1FFF : BitVec 13).toNat = .logRing ∧
    prArea (1 : BitVec 13).toNat = .live ∧ prArea (0xFF : BitVec 13).toNat = .live ∧ (1 : BitVec 13) ≠ 0 ∧
    prArea (0x17F : BitVec 13).toNat = .command 15 7 ∧ prArea (0x600 : BitVec 13).toNat = .ordinary ∧
    prArea (0xFFF : BitVec 13).toNat = .ordinary ∧ prArea (0x101 : BitVec 13).toNat = .command 0 1 ∧
    prArea (0x17E : BitVec 13).toNat = .command 15 6 ∧ prArea (0x178 : BitVec 13).toNat = .command 15 0 := by decide +kernel

/-- The engine with a word of a request in progress. -/
def writing (r : OwnRequest) (i : Nat) : State := withPath (fun p => { p with busy := some ⟨r, i, true⟩, remap := List.replicate 16 none }) run

theorem test_meets_OwnCycleRows_begin :
    (let s := withLog 1 (withPath (fun p => { p with queue := [.profileWrite 2] }) run);
      s.path.busy = none ∧ s.log.ready = true ∧ entryStanding s = false ∧ s.log.queue ≠ []) ∧
    (let s := withLog 1 (withPath (fun p => { p with busy := some ⟨.profileWrite 2, 31, false⟩ }) run);
      entryStanding s = false ∧ (31 : Nat) < (OwnRequest.profileWrite 2).total) ∧
    (withPath (fun p => { p with busy := some ⟨.profileWrite 2, 32, false⟩ }) run).path.busy = some ⟨.profileWrite 2, 32, false⟩ := by
  decide +kernel

theorem test_meets_OwnCycleRows :
    (let s := withPath (fun p => { p with queue := [.profileWrite 2] }) run; s.path.busy = none ∧ s.path.queue = [.profileWrite 2]) ∧
    (run.path.queue = [] ∧ run.log.ready = true ∧ run.log.queue = [] ∧ (withLog 1 run).log.queue.length = 1) ∧
    (let s := writing (.checkpoint 13 (List.replicate 16 7)) 15; Shape s ∧ s.path.held = [] ∧ Memory.wf s.path.cells = true ∧
      ownWrite s (.checkpoint 13 (List.replicate 16 7)) 15 = some (25823, 7) ∧ s.path.entryFor 25823 = none ∧ s.path.freeSpare = some 0 ∧
      s.path.freeEntry = some 0) ∧
    (writing (.remapWrite 15 1 2) 1).path.busy = some ⟨.remapWrite 15 1 2, 1, true⟩ ∧ (OwnRequest.remapWrite 15 1 2).isRemapWrite = true ∧
    (withPath (fun p => { p with spareFailed := List.range 16 }) (writing (.profileWrite 0) 0)).path.freeSpare = none ∧
    (OwnRequest.logEntry 5 ⟨.reset, 0, 0, 0, 0, false⟩).total = 9 := by decide +kernel

theorem test_meets_OwnCycleRows_request :
    let b : OwnBusy := ⟨.logEntry 5 ⟨.reset, 0, 0, 0, 0, false⟩, 9, false⟩
    (withPath (fun p => { p with busy := some b }) run).path.busy = some b ∧ b.word = false ∧ b.request.total ≤ b.next ∧
      b.request.isLogEntry = true ∧ (OwnRequest.profileWrite 0).isLogEntry = false ∧ (31 < (OwnRequest.profileWrite 0).total) := by decide +kernel

end Sys2Proof.Tests
end

section
/-! PROOFS. GEN_STOP (R101): what a removal does to the Run Request Set, what the command's rule makes of it, and what a command posted
in RUN answers. -/

namespace Sys2Proof.Machine

variable {s t : State} {slot : Fin 16} {tag : BitVec 8} {r : Reply}

/-! ## The Run Request Set under the generator's operations -/

@[simp] theorem logEv_gen {k : LogKind} {x a b : Word} : (logEv k x a b s).gen = s.gen := by
  unfold logEv logAt
  split <;> rfl

@[simp] theorem withdrawClaim_gen {k : Slot} : (withdrawClaim k s).gen = s.gen := by
  unfold withdrawClaim
  split <;> rfl

@[simp] theorem dropMainsFail_gen : (dropMainsFail s).gen = s.gen := rfl

/-- A change of state leaves the set as it is (R96). -/
@[simp] theorem genEnter_requests {st : GenState} {subject : Word} : (genEnter st subject s).gen.requests = s.gen.requests := by
  unfold genEnter
  dsimp only
  split
  · rw [withdrawClaim_gen, logEv_gen]; rfl
  · rw [logEv_gen]; rfl

/-- The Start Attempt List does not reach the set (R108). -/
@[simp] theorem addAttempt_requests {o : AttemptOutcome} {peak : Nat} : (addAttempt o peak s).gen.requests = s.gen.requests := by
  simp [addAttempt]

/-- A series abandoned leaves the set as it is (R109). -/
@[simp] theorem abandonSeries_requests {toDisabled : Bool} : (abandonSeries toDisabled s).gen.requests = s.gen.requests := by
  unfold abandonSeries
  rw [genEnter_requests]
  dsimp only
  split <;> simp

/-- Emptying a place that is empty changes nothing. -/
theorem RequestSet.put_none_absent {q : RequestSet} {k : RequestKind} (h : (q.get k).isSome = false) : q.put k none = q := by
  obtain ⟨mainsFail, depth, exercise, manual⟩ := q
  cases k <;> simp_all [RequestSet.get, RequestSet.put]

/-- A removal empties the kind's place in the set and no other, whether the kind was there or not (R99). -/
theorem removeRequest_requests {k : RequestKind} {reason : Word} :
    (removeRequest k reason s).gen.requests = s.gen.requests.put k none := by
  unfold removeRequest
  split
  case isTrue =>
    dsimp only
    split <;> split <;> simp
  case isFalse h => exact (RequestSet.put_none_absent (Bool.eq_false_iff.mpr h)).symm

/-! ## The rule of GEN_STOP -/

/-- With neither kind in the set GEN_STOP is refused and changes nothing (R101). -/
theorem genStopCommand_refused (hm : requested s .manual = false) (he : requested s .exercise = false) :
    genStopCommand s = (s, .refusedState, 1) := by
  simp [genStopCommand, hm, he]

/-- With either kind in the set GEN_STOP removes both, and counts those that were there (R101). -/
theorem genStopCommand_taken (h : requested s .manual = true ∨ requested s .exercise = true) :
    genStopCommand s = (s |> removeRequest .exercise Reason.genStop |> removeRequest .manual Reason.genStop, .done,
      (if requested s .exercise then 1 else 0) + (if requested s .manual then 1 else 0)) := by
  have hn : (if requested s .exercise then 1 else 0) + (if requested s .manual then 1 else 0) ≠ 0 := by
    rcases h with h | h <;> simp [h]
  exact if_neg hn

/-- The set after a GEN_STOP that is taken: EXERCISE and MANUAL empty, MAINS_FAIL and DEPTH as they were. -/
theorem genStopCommand_requests (h : requested s .manual = true ∨ requested s .exercise = true) :
    (genStopCommand s).1.gen.requests = { s.gen.requests with exercise := none, manual := none } := by
  rw [genStopCommand_taken h]
  simp only [removeRequest_requests, RequestSet.put]

/-! ## A command posted in RUN -/

/-- In RUN with no own word in progress the block listens. -/
theorem listens_of_inRun (hr : inRun s = true) (hw : ownWordActive s = false) : Listens s :=
  ⟨by simp [starting, hr], hw⟩

/-- A command posted in RUN passes the check of COMMISSIONING. -/
theorem inCommissioning_of_inRun (hr : inRun s = true) : inCommissioning s = false := by
  simp_all [inRun, inCommissioning]

/-- In AUTONOMOUS the checks of R171 turn away a known command that AUTONOMOUS does not take. -/
theorem dispatchRefusal_autonomous {op : Nat} (hr : inRun s = true) (hk : knownOpcode op = true) (ha : s.sil.state = .autonomous)
    (ht : takenInAutonomy op = false) : dispatchRefusal op s = some (.refusedAutonomy, 0) := by
  simp [dispatchRefusal, hk, inCommissioning_of_inRun hr, ha, ht]

/-- In RUN, unless AUTONOMOUS, the checks of R171 let every known command through. -/
theorem dispatchRefusal_passes {op : Nat} (hr : inRun s = true) (hk : knownOpcode op = true) (ha : s.sil.state ≠ .autonomous) :
    dispatchRefusal op s = none := by
  simp [dispatchRefusal, hk, inCommissioning_of_inRun hr, ha]

/-- A command that the checks turn away is answered with their refusal alone. -/
theorem takeCommand_refused {op n : Nat} (h : dispatchRefusal op s = some r) :
    takeCommand slot.val op n s = answer slot.val op n r s := by
  simp only [takeCommand, h]

/-- An answer leaves the generator's record as it is. -/
theorem answer_gen {op n : Nat} : (answer slot.val op n r t).gen = t.gen := logEv_gen

/-- The state in which a command is judged has sixteen command slots. -/
theorem atPost_slots_length {op : Nat} (hs : Shape s) : (atPost slot op tag s).cmd.slots.length = 16 := by
  have h16 : s.cmd.slots.length = 16 := by simp_all [Shape, shape]
  show (updAt _ _ (heartbeat s).cmd.slots).length = 16
  rw [updAt_length, heartbeat_cmd, h16]

/-- GEN_STOP changes no command slot. -/
theorem genStopCommand_cmd : (genStopCommand s).1.cmd = s.cmd :=
  congrArg (·.2.2.2.2.1) (genStopCommand_quiet (Quiet.refl s)).out

/-- GEN_STOP posted where the block listens is taken in the state that the post leaves. -/
theorem exec_genStop (h : Listens s) :
    exec (.genStop slot tag) s = .next (takeCommand slot.val Op.genStop tag.toNat (atPost slot Op.genStop tag s)) :=
  congrArg Host.Outcome.next (post_listens h (by decide))

/-- GEN_STOP posted in AUTONOMOUS is answered with the refusal alone. -/
theorem exec_genStop_autonomous (hr : inRun s = true) (hw : ownWordActive s = false) (ha : s.sil.state = .autonomous) :
    exec (.genStop slot tag) s =
      .next (answer slot.val Op.genStop tag.toNat (.refusedAutonomy, 0) (atPost slot Op.genStop tag s)) := by
  have hd := dispatchRefusal_autonomous (op := Op.genStop) hr rfl ha rfl
  rw [exec_genStop (listens_of_inRun hr hw), takeCommand_refused (dispatchRefusal_atPost.trans hd)]

/-- GEN_STOP posted in RUN, unless AUTONOMOUS, runs its rule in the state that the post leaves. -/
theorem exec_genStop_runs (hr : inRun s = true) (hw : ownWordActive s = false) (ha : s.sil.state ≠ .autonomous) :
    exec (.genStop slot tag) s = .next (answer slot.val Op.genStop tag.toNat (genStopCommand (atPost slot Op.genStop tag s)).2
      (genStopCommand (atPost slot Op.genStop tag s)).1) := by
  have hd := dispatchRefusal_passes (op := Op.genStop) hr rfl ha
  rw [exec_genStop (listens_of_inRun hr hw), takeCommand_runs (dispatchRefusal_atPost.trans hd) (by decide)]
  rfl

/-- Settles O50: by the checks of R171 in AUTONOMOUS and by the two cases of R101 otherwise. -/
theorem genStop : Obligations.GenStop := by
  intro slot tag s hs hr hw u
  have hslot : slot.val < u.cmd.slots.length := by
    rw [atPost_slots_length hs]
    exact slot.isLt
  have hslot' : slot.val < (genStopCommand u).1.cmd.slots.length := by rwa [genStopCommand_cmd]
  by_cases ha : s.sil.state = .autonomous
  · exact ⟨_, exec_genStop_autonomous hr hw ha, fun _ => ⟨replyOf_answer hslot, answer_gen⟩, fun h => absurd ha h⟩
  · refine ⟨answer slot.val Op.genStop tag.toNat (genStopCommand u).2 (genStopCommand u).1, exec_genStop_runs hr hw ha,
      fun h => absurd h ha, fun _ => ⟨fun hm he => ?refused, fun hreq => ?taken⟩⟩
    case refused =>
      rw [replyOf_answer hslot', answer_gen, genStopCommand_refused hm he]
      exact ⟨rfl, rfl⟩
    case taken =>
      refine ⟨?reply, ?set⟩
      case reply => rw [replyOf_answer hslot', genStopCommand_taken hreq]
      case set => simp [requested, answer_gen, genStopCommand_requests hreq, RequestSet.get]

end Sys2Proof.Machine
end

section
/-! PROOFS. LOG_NOTE (R179): the command passes the checks of R171 wherever the block listens, and its note and its COMMAND entry are two log
events that join the queue one after the other, or are both lost. -/

namespace Sys2Proof.Machine

variable {s t : State} {slot : Fin 16} {tag : BitVec 8} {r : Reply}

/-! ## What a log event and a post leave unchanged -/

/-- A log event changes the log alone (R177). -/
theorem logEv_rest {k : LogKind} {x a b : Word} : { logEv k x a b s with log := s.log } = s := by
  unfold logEv logAt
  split <;> rfl

theorem logEv_cmd {k : LogKind} {x a b : Word} : (logEv k x a b s).cmd = s.cmd :=
  congrArg (·.2.2.2.2.1) (logEv_quiet (Quiet.refl s)).out

theorem logEv_now {k : LogKind} {x a b : Word} : now (logEv k x a b s) = now s :=
  congrArg (·.2.1.value) (logEv_quiet (Quiet.refl s)).out

theorem atPost_now {op : Nat} : now (atPost slot op tag s) = now s := congrArg (·.value) atPost_clk

/-! ## The COMMAND entry of an answer (R170) -/

/-- Where the queue has room the COMMAND entry joins it, with the reply's code and detail. -/
theorem answer_log_room {op n : Nat} (h : t.log.queue.length < 32) : (answer slot.val op n r t).log = { t.log with
    queue := t.log.queue ++ [⟨.command, wordOf slot.val, bytesWord op r.1.code, bytesWord r.2 n, now t, t.log.gap⟩], gap := false } :=
  logEv_room h

/-- Where the queue is full the COMMAND entry is lost (R177). -/
theorem answer_log_full {op n : Nat} (h : 32 ≤ t.log.queue.length) : (answer slot.val op n r t).log = { t.log with gap := true } :=
  logEv_full h

/-! ## A log event and then an answer -/

section EventThenAnswer

variable {k : LogKind} {x a b : Word} {op n : Nat}

/-- With two places left a command's own entry and its COMMAND entry join the queue in this order, and the first takes the gap mark. -/
theorem answer_logEv_room (h : t.log.queue.length + 2 ≤ 32) :
    (answer slot.val op n r (logEv k x a b t)).log.queue = t.log.queue ++
      [⟨k, x, a, b, now t, t.log.gap⟩, ⟨.command, wordOf slot.val, bytesWord op r.1.code, bytesWord r.2 n, now t, false⟩] := by
  have hlog := logEv_room (k := k) (x := x) (a := a) (b := b) (show t.log.queue.length < 32 by omega)
  have hroom : (logEv k x a b t).log.queue.length < 32 := by
    rw [hlog, List.length_append, List.length_singleton]
    omega
  rw [answer_log_room hroom, logEv_now, hlog, List.append_assoc]
  rfl

/-- A full queue loses both entries (R177). -/
theorem answer_logEv_full (h : 32 ≤ t.log.queue.length) :
    (answer slot.val op n r (logEv k x a b t)).log = { t.log with gap := true } := by
  have hlog := logEv_full (k := k) (x := x) (a := a) (b := b) h
  rw [answer_log_full (by rwa [hlog]), hlog]

/-- Outside the command window and the log neither changes anything. -/
theorem answer_logEv_rest : { answer slot.val op n r (logEv k x a b t) with cmd := t.cmd, log := t.log } = t :=
  calc { answer slot.val op n r (logEv k x a b t) with cmd := t.cmd, log := t.log }
    _ = { logEv k x a b t with cmd := t.cmd, log := t.log } :=
      congrArg (fun u : State => { u with cmd := t.cmd, log := t.log }) answer_rest
    _ = t := congrArg (fun u : State => { u with cmd := t.cmd }) logEv_rest

end EventThenAnswer

/-! ## LOG_NOTE posted -/

/-- The checks of R171 let LOG_NOTE through: it is known, and COMMISSIONING and AUTONOMOUS both take it. -/
theorem dispatchRefusal_logNote : dispatchRefusal Op.logNote s = none := by
  have hk : knownOpcode Op.logNote = true := rfl
  have hc : takenInCommissioning Op.logNote = true := rfl
  have ha : takenInAutonomy Op.logNote = true := rfl
  simp [dispatchRefusal, hk, hc, ha]

/-- LOG_NOTE posted where the block listens logs the note, and is answered DONE with detail 0. -/
theorem exec_logNote (h : Listens s) :
    let u := atPost slot Op.logNote tag s
    exec (.logNote slot tag) s = .next (answer slot.val Op.logNote tag.toNat (.done, 0)
      (logEv .logNote (wordOf slot.val) (argWord u slot.val 1) (argWord u slot.val 2) u)) := by
  intro u
  have hpost : post slot Op.logNote tag s = takeCommand slot.val Op.logNote tag.toNat u := post_listens h (by decide)
  rw [takeCommand_runs dispatchRefusal_logNote (by decide)] at hpost
  exact congrArg Host.Outcome.next hpost

/-- Settles O57: the note and its COMMAND entry as two log events after the post, in a queue with room for both and in a full one. -/
theorem logNote : Obligations.LogNote := by
  intro slot tag s hs hl u
  have hnow : now u = now s := atPost_now
  refine ⟨_, 0, exec_logNote hl, ?reply, fun hroom => ?joined, fun hfull => ?lost, answer_logEv_rest⟩
  case reply =>
    refine replyOf_answer ?_
    rw [logEv_cmd, atPost_slots_length hs]
    exact slot.isLt
  case joined =>
    rw [answer_logEv_room hroom, hnow]
    rfl
  case lost =>
    rw [answer_logEv_full hfull]
    exact ⟨rfl, rfl⟩

end Sys2Proof.Machine
end

section
/-! PROOFS. What a step does in any case (O1, O2, O4, O5): the step runs the front of the queue, every row answers a next state, a job's row
makes a quiet change and every other row keeps the queue and the invariant. -/

namespace Sys2Proof.Machine

variable {s t u : State} {c : Instr}

/-! ## Rows and what they answer -/

/-- The row answers a next state that a relation allows. -/
abbrev Answers (R : State → State → Prop) (s : State) (a : Answer) : Prop := ∃ t, a = .next t ∧ R s t

/-- A row with a condition: what holds of the state left alone and of the effect holds of the answer. -/
theorem whenDue_answers {R : State → State → Prop} {due : Bool} {f : State → State} (h0 : R s s) (h1 : R s (f s)) :
    Answers R s (whenDue due f s) := by
  refine ⟨_, rfl, ?_⟩
  split
  · exact h1
  · exact h0

/-- A row with a quiet effect. -/
theorem whenDue_quiet {due : Bool} {f : State → State} (h : Quiet s (f s)) : Answers Quiet s (whenDue due f s) :=
  whenDue_answers (Quiet.refl s) h

/-- A row with an effect that keeps the invariant. -/
theorem whenDue_keeps {due : Bool} {f : State → State} (h : Keeps s (f s)) : Answers Keeps s (whenDue due f s) :=
  whenDue_answers (Keeps.refl s) h

/-- A row with a condition that holds. -/
theorem whenDue_true {due : Bool} {f : State → State} (h : due = true) : whenDue due f s = .next (f s) := by simp [whenDue, h]

/-- A row with a condition that fails changes nothing. -/
theorem whenDue_false {due : Bool} {f : State → State} (h : due = false) : whenDue due f s = .next s := by simp [whenDue, h]

/-- An answer determines the state it names. -/
theorem next_inj {a : Answer} (h : a = .next t) (k : a = .next u) : t = u := by
  rw [h] at k
  injection k

/-- A command posted in the window is a post of its opcode. -/
theorem exec_post {slot : Fin 16} {op : Nat} {tag : BitVec 8} (h : postOf c = some (slot, op, tag)) :
    exec c s = .next (post slot op tag s) := by
  cases c <;> cases h <;> rfl

/-! ## The rows of the jobs -/

/-- RECONNECT_TIMEOUT acts on the string that reconnects, if one does. -/
theorem execReconnectTimeout_quiet : Answers Quiet s (execReconnectTimeout s) := by
  unfold execReconnectTimeout
  split
  · exact whenDue_quiet (refreshStringConds_quiet (handleMatching_quiet (Quiet.refl s)))
  · exact ⟨s, rfl, Quiet.refl s⟩

/-- INRUSH_TIMER_EXPIRY acts on the string that reconnects, if one does. -/
theorem execInrushTimerExpiry_quiet : Answers Quiet s (execInrushTimerExpiry s) := by
  unfold execInrushTimerExpiry
  split
  · exact whenDue_quiet (refreshStringConds_quiet (inrushExpiry_quiet (Quiet.refl s)))
  · exact ⟨s, rfl, Quiet.refl s⟩

/-- A job's row answers a state that differs only inside the jobs' blocks and the two queues. -/
theorem jobRow_quiet (h : jobRow c = true) : Answers Quiet s (exec c s) := by
  have r := Quiet.refl s
  cases c with
  | stringSupervisorEvaluation => exact ⟨_, rfl, stringEvaluation_quiet r⟩
  | settleSpanComplete k => apply whenDue_quiet; exact refreshStringConds_quiet (judgePhase_quiet r)
  | boostMaximumReached k => apply whenDue_quiet; exact refreshStringConds_quiet (countBoost_quiet r)
  | baselineMinute k => apply whenDue_quiet; exact countBaseline_quiet r
  | temperatureMinute k => apply whenDue_quiet; exact refreshStringConds_quiet (judgeStage2_quiet (countTemperature_quiet r))
  | runawaySpanExpiry k => apply whenDue_quiet; exact refreshStringConds_quiet (countRunaway_quiet r)
  | runawayReturnSpanExpiry k => apply whenDue_quiet; exact refreshStringConds_quiet (countRunaway_quiet r)
  | overtempSpanExpiry k => apply whenDue_quiet; exact refreshStringConds_quiet (countOvertemp_quiet r)
  | startVoltageSpanExpiry => apply whenDue_quiet; exact checkDepth_quiet (countBusSpan_quiet r)
  | reconnectTimeout => exact execReconnectTimeout_quiet
  | inrushTimerExpiry => exact execInrushTimerExpiry_quiet
  | busRegulatorEvaluation => exact ⟨_, rfl, busEvaluation_quiet r⟩
  | equalizeScheduleCheck => apply whenDue_quiet; exact checkSchedule_quiet (refreshCheck_quiet r)
  | equalizeDurationReached => apply whenDue_quiet; exact advanceEqualize_quiet r
  | testDurationReached => apply whenDue_quiet; exact testStep_quiet r
  | rosterEvaluation => exact ⟨_, rfl, rosterEvaluation_quiet r⟩
  | moduleStartExpiry m => apply whenDue_quiet; exact refreshModuleConds_quiet (judgeStart_quiet r)
  | stopUnconfirmed m => apply whenDue_quiet; exact refreshModuleConds_quiet (judgeStop_quiet r)
  | watchSpanExpiry m => apply whenDue_quiet; exact refreshModuleConds_quiet (watchModule_quiet r)
  | retryHoldEnd m => apply whenDue_quiet; exact refreshModuleConds_quiet (endHold_quiet r)
  | shedSpanExpiry => apply whenDue_quiet; exact shedRule_quiet r
  | sourceControllerEvaluation => exact ⟨_, rfl, sourceEvaluation_quiet r⟩
  | outageDelayReached => apply whenDue_quiet; exact checkMainsFail_quiet r
  | retransferSpanReached => apply whenDue_quiet; exact checkOnGen_quiet r
  | dipToleranceExpiry => apply whenDue_quiet; exact dipExpiry_quiet r
  | mainsQualified => apply whenDue_quiet; exact sourceFrequency_quiet r
  | qualitySpanReached => apply whenDue_quiet; exact sourceFrequency_quiet r
  | confirmTimerExpiry => exact ⟨_, rfl, confirmExpiry_quiet r⟩
  | mismatchWatchExpiry => exact ⟨_, rfl, mismatchExpiry_quiet r⟩
  | deadTimeExpiry => exact ⟨_, rfl, deadTimeExpiry_quiet r⟩
  | mainsReleaseExpiry => exact ⟨_, rfl, mainsRelease_quiet r⟩
  | generatorEvaluation => exact ⟨_, rfl, genEvaluation_quiet r⟩
  | requestEndTime => apply whenDue_quiet; exact checkEndTimes_quiet r
  | runLimit => apply whenDue_quiet; exact checkRunLimit_quiet r
  | exerciseSlotReached => apply whenDue_quiet; exact checkSlot_quiet (refreshSlot_quiet r)
  | prestartExpiry => exact ⟨_, rfl, prestartExpiry_quiet r⟩
  | crankTimerExpiry => exact ⟨_, rfl, crankExpiry_quiet r⟩
  | crankRestExpiry => exact ⟨_, rfl, restExpiry_quiet r⟩
  | barEnd => apply whenDue_quiet; exact checkBar_quiet r
  | warmupExpiry => exact ⟨_, rfl, warmupExpiry_quiet r⟩
  | oilArmingExpiry => exact ⟨_, rfl, oilArming_quiet r⟩
  | loadCheckStart => apply whenDue_quiet; exact setGen_quiet r fun hg => hg.congr rfl rfl rfl rfl
  | derate => apply whenDue_quiet; exact judgeDroop_quiet r
  | underspeedSpanReached => apply whenDue_quiet; exact judgeUnderspeed_quiet r
  | shutdownRundownExpiry => exact ⟨_, rfl, rundownExpiry_quiet r⟩
  | cooldownExpiry => exact ⟨_, rfl, cooldownExpiry_quiet r⟩
  | stopTimerExpiry => exact ⟨_, rfl, stopExpiry_quiet r⟩
  | alarmEvaluation => apply whenDue_quiet; exact alarmEvaluation_quiet r
  | raiseTimerExpiry p => apply whenDue_quiet; exact fireRaise_quiet r
  | clearTimerExpiry p => apply whenDue_quiet; exact fireClear_quiet r
  | _ => cases h

/-! ## Every row -/

/-- Every row answers a next state that keeps the queue of commands and the invariant: a job's row because it is quiet, a post as a host write,
and every other row by its own operation. -/
theorem exec_keeps (c : Instr) (s : State) : Answers Keeps s (exec c s) := by
  have r := Keeps.refl s
  by_cases hj : jobRow c = true
  · obtain ⟨t, ht, hq⟩ := jobRow_quiet (s := s) hj
    exact ⟨t, ht, hq.keeps⟩
  cases hp : postOf c with
  | some p =>
    obtain ⟨slot, op, tag⟩ := p
    exact ⟨_, exec_post hp, post_keeps r⟩
  | none =>
    have hother : (jobRow c || (postOf c).isSome) = false := by simp [hj, hp]
    cases c with
    | powerOn msz din pin3 => exact ⟨_, rfl, powerOnReset_keeps r (by simp)⟩
    | pinReset msz => exact ⟨_, rfl, warmReset_keeps r (by simp)⟩
    | loadAnchorEnd => exact ⟨_, rfl, loadAnchorEnds_keeps r⟩
    | loadSettingsEnd => exact ⟨_, rfl, loadSettingsEnds_keeps r⟩
    | loadCountersEnd => exact ⟨_, rfl, loadCountersEnds_keeps r⟩
    | logScanEnd => exact ⟨_, rfl, logScanEnds_keeps r⟩
    | settleEnd ms => exact ⟨_, rfl, settleEnds_keeps r⟩
    | scanCompletion raw => exact ⟨_, rfl, scanCompletion_keeps r⟩
    | mainsSenseLoss => exact ⟨_, rfl, pm3Loss_keeps r⟩
    | mainsSenseReturn ms => exact ⟨_, rfl, pm3Return_keeps r⟩
    | pm3LongResult => exact ⟨_, rfl, pm3Long_keeps r⟩
    | pm2FrequencyResult edges spanUs => exact ⟨_, rfl, pm2Result_keeps r⟩
    | pm0FrequencyResult edges spanUs => exact ⟨_, rfl, pm0Result_keeps r⟩
    | tallyQuantum => apply whenDue_keeps; exact tallyEdge_keeps r
    | dinLineChange n high => exact ⟨_, rfl, lineChange_keeps r⟩
    | debounceExpiry n => exact ⟨_, rfl, debounceEnd_keeps r⟩
    | inputConditionerEvaluation => exact ⟨_, rfl, inputEvaluation_keeps r⟩
    | edgeAlarmClear n => exact ⟨_, rfl, edgeAlarmCheck_keeps r⟩
    | commandInterpreterEvaluation => exact ⟨_, rfl, commandEvaluation_keeps r⟩
    | checkpointInterval => apply whenDue_keeps; exact countInterval_keeps r
    | freezeControlWrite data => exact ⟨_, rfl, arrive_keeps r⟩
    | freezeExpiry => exact ⟨_, rfl, freezeExpires_keeps r⟩
    | hostWrite addr data => exact ⟨_, rfl, arrive_keeps r⟩
    | guardedWrite offset data => exact ⟨_, rfl, arrive_keeps r⟩
    | descriptorWrite word data => exact ⟨_, rfl, arrive_keeps r⟩
    | ownCycleBegin => exact ⟨_, rfl, beginOwn_keeps (placeLogEntry_keeps r)⟩
    | ownWordComplete readBack spareReadBack => exact ⟨_, rfl, releaseHeld_keeps (finishOwnWord_keeps r)⟩
    | ownRequestComplete => exact ⟨_, rfl, completeOwn_keeps r⟩
    | silenceMonitorEvaluation => exact ⟨_, rfl, silenceEvaluation_keeps r⟩
    | silenceLimitReached => apply whenDue_keeps; exact silenceEvaluation_keeps r
    | graceExpiry => exact ⟨_, rfl, graceExpires_keeps r⟩
    | siteClockSecond => exact ⟨_, rfl, clockSecond_keeps r⟩
    | pin1RisingEdge => exact ⟨_, rfl, tallyEdge_keeps r⟩
    | _ => cases hother

/-- The invariant does not read the queue of commands. -/
theorem Inv.withPending (h : Inv s) {l : List Instr} : Inv { s with pending := l } :=
  ⟨h.shape, h.slots, h.interlock, h.genDrives, h.memory, h.log⟩

/-! ## The statements -/

/-- Settles O1: by the two cases of the step. -/
theorem stepRunsFront : Obligations.StepRunsFront := by
  refine ⟨fun c s => rfl, fun s hs => ?_⟩
  simp [step, hs]

/-- Settles O2: every row keeps the queue. -/
theorem everyCommandAnswers : Obligations.EveryCommandAnswers := by
  intro c s
  obtain ⟨t, ht, hk⟩ := exec_keeps c s
  exact ⟨t, ht, hk.pending⟩

/-- The lengths of the lists after a power-on. -/
theorem shape_reset : Shape State.reset := by
  simp [Shape, shape, State.reset, State.afterPowerOn, Strings.reset, Roster.reset, Alarm.reset, Scanner.reset, Inputs.reset,
    Commands.reset, resetSettings]

/-- Settles O4: the lengths by evaluation, the rest from the values of a power-on. -/
theorem invAtReset : Obligations.InvAtReset where
  shape := shape_reset
  slots := slotsWhole_reset
  interlock := interlock_unpowered
  genDrives := Or.inr rfl
  memory := rfl
  log := ⟨by decide, by decide⟩

/-- Settles O5: an idle step changes nothing, and a row keeps the invariant from the state with the queue's rest. -/
theorem stepKeepsInv : Obligations.StepKeepsInv := by
  intro s t hi hstep
  unfold step at hstep
  split at hstep
  · exact next_inj (a := .next s) rfl hstep ▸ hi
  · next c rest _ =>
    obtain ⟨u, hu, hk⟩ := exec_keeps c { s with pending := rest }
    exact next_inj hu hstep ▸ hk.inv hi.withPending

end Sys2Proof.Machine
end

section
/-! PROOFS. What a row leaves unchanged (O6, O8, O9, O16): a quiet change keeps every record outside the jobs, a measurement row keeps all but the
measured records, and the rows that store nothing keep the memory. -/

namespace Sys2Proof.Machine

variable {s t u : State} {c : Instr}

/-! ## What a quiet change keeps -/

theorem Quiet.clk_eq (h : Quiet s t) : t.clk = s.clk := congrArg (·.2.1) h.out
theorem Quiet.cmd_eq (h : Quiet s t) : t.cmd = s.cmd := congrArg (·.2.2.2.2.1) h.out
theorem Quiet.st_eq (h : Quiet s t) : t.st = s.st := congrArg (·.2.2.2.2.2.1) h.out
theorem Quiet.settings_eq (h : Quiet s t) : t.settings = s.settings := congrArg (·.2.2.2.2.2.2.1) h.out
theorem Quiet.sil_eq (h : Quiet s t) : t.sil = s.sil := congrArg (·.2.2.2.2.2.2.2.1) h.out
theorem Quiet.scan_eq (h : Quiet s t) : t.scan = s.scan := congrArg (·.2.2.2.2.2.2.2.2.1) h.out
theorem Quiet.inp_eq (h : Quiet s t) : t.inp = s.inp := congrArg (·.2.2.2.2.2.2.2.2.2.1) h.out
theorem Quiet.pm_eq (h : Quiet s t) : t.pm = s.pm := congrArg (·.2.2.2.2.2.2.2.2.2.2) h.out
theorem Quiet.logHead_eq (h : Quiet s t) : t.log.head = s.log.head := congrArg (·.2.2.2.1.1) h.out
theorem Quiet.logCount_eq (h : Quiet s t) : t.log.count = s.log.count := congrArg (·.2.2.2.1.2.1) h.out
theorem Quiet.refusal_eq (h : Quiet s t) : t.path.refusal = s.path.refusal := congrArg (·.2.2.1.refusal) h.out
theorem Quiet.held_eq (h : Quiet s t) : t.path.held = s.path.held := congrArg (·.2.2.1.held) h.out
theorem Quiet.busy_eq (h : Quiet s t) : t.path.busy = s.path.busy := congrArg (·.2.2.1.busy) h.out
theorem Quiet.remap_eq (h : Quiet s t) : t.path.remap = s.path.remap := congrArg (·.2.2.1.remap) h.out
theorem Quiet.msz_eq (h : Quiet s t) : t.path.msz = s.path.msz := congrArg (·.2.2.1.msz) h.out
theorem Quiet.faulty_eq (h : Quiet s t) : t.path.faulty = s.path.faulty := congrArg (·.2.2.1.faulty) h.out
theorem Quiet.now_eq (h : Quiet s t) : now t = now s := congrArg (·.value) h.clk_eq
theorem Quiet.inRun_eq (h : Quiet s t) : inRun t = inRun s := congrArg (·.state == .run) h.st_eq

/-! ## The measurement rows -/

/-- What a measurement row leaves as it is. -/
def unmeasured (s : State) :=
  (s.clk, { s.path with queue := [] }, s.settings, s.cmd, s.sil, s.st.state, s.st.lock, s.log.head, s.log.count)

/-- A quiet change leaves it as it is. -/
theorem Quiet.unmeasured (h : Quiet s t) : unmeasured t = unmeasured s :=
  congrArg (fun x => (x.2.1, x.2.2.1, x.2.2.2.2.2.2.1, x.2.2.2.2.1, x.2.2.2.2.2.2.2.1, x.2.2.2.2.2.1.state, x.2.2.2.2.2.1.lock,
    x.2.2.2.1.1, x.2.2.2.1.2.1)) h.out

theorem scanChannel_unmeasured {ch raw : Nat} : unmeasured (scanChannel ch raw s) = unmeasured s := by
  unfold scanChannel
  dsimp only
  split
  · rfl
  · exact (logEv_quiet (Quiet.refl _)).unmeasured

theorem scanAll_unmeasured {raw : List Nat} : unmeasured (scanAll raw s) = unmeasured s := by
  have step : ∀ (l : List Nat) (t : State), unmeasured (l.foldl (fun t ch => scanChannel ch (raw.getD ch 0) t) t) = unmeasured t := by
    intro l
    induction l with
    | nil => exact fun _ => rfl
    | cons ch l ih => exact fun t => (ih _).trans scanChannel_unmeasured
  unfold scanAll
  dsimp only
  exact (setCond_quiet (Quiet.refl _)).unmeasured.trans (step (List.range 16) s)

theorem scanCompletion_unmeasured {raw : List Nat} : unmeasured (scanCompletion raw s) = unmeasured s := by
  have h : unmeasured (s |> scanAll raw |> noteLoadSeen |> accountStrings) = unmeasured s :=
    (accountStrings_quiet (noteLoadSeen_quiet (Quiet.refl _))).unmeasured.trans scanAll_unmeasured
  unfold scanCompletion
  split
  · dsimp only at h ⊢
    generalize accountStrings (noteLoadSeen (scanAll raw s)) = w at h ⊢
    split
    · exact h
    · exact h
  · rfl

theorem namedEdge_unmeasured {n deb : Nat} {level : Bool} : unmeasured (namedEdge n level deb s) = unmeasured s := by
  have h := (logEv_quiet (k := .inputEdge) (x := wordOf n) (a := wordOfBool level) (b := wordOf deb)
    (Quiet.refl { s with inp := { s.inp with lastNamed := s.inp.lastNamed.set n (some s.clk.uptime) } })).unmeasured
  unfold namedEdge
  dsimp only
  split
  · split
    · exact h
    · exact (setCond_quiet (Quiet.refl _)).unmeasured.trans h
  · exact h

/-- The users of an input change only their own records. -/
theorem handLevel_quiet {n : Nat} : Quiet s (handLevel n s) := by
  unfold handLevel
  split
  · exact feedbackChanged_quiet (Quiet.refl s)
  · split
    · exact checkSwitches_quiet (Quiet.refl s)
    · exact Quiet.refl s

theorem inputEdge_unmeasured {n deb : Nat} {level : Bool} : unmeasured (inputEdge n level deb s) = unmeasured s := by
  unfold inputEdge
  dsimp only
  split
  · exact handLevel_quiet.unmeasured.trans namedEdge_unmeasured
  · exact handLevel_quiet.unmeasured

theorem lineChange_unmeasured {n : Nat} {high : Bool} : unmeasured (lineChange n high s) = unmeasured s := by
  unfold lineChange
  dsimp only
  split
  · rfl
  · split
    · rfl
    · split
      · exact inputEdge_unmeasured
      · rfl

theorem debounceEnd_unmeasured {n : Nat} : unmeasured (debounceEnd n s) = unmeasured s := by
  unfold debounceEnd
  split
  · exact inputEdge_unmeasured
  · rfl

theorem edgeAlarmCheck_quiet {n : Nat} : Quiet s (edgeAlarmCheck n s) := by
  unfold edgeAlarmCheck
  split
  · split
    · exact setCond_quiet (Quiet.refl s)
    · exact Quiet.refl s
  · exact Quiet.refl s

theorem inputEvaluation_unmeasured : unmeasured (inputEvaluation s) = unmeasured s :=
  (((edgeAlarmCheck_quiet (n := 13)).trans edgeAlarmCheck_quiet).trans edgeAlarmCheck_quiet).unmeasured

theorem pm0Result_unmeasured {f : Nat} : unmeasured (pm0Result f s) = unmeasured s := by
  unfold pm0Result
  dsimp only
  split
  · exact (genFrequency_quiet (Quiet.refl _)).unmeasured
  · split
    · exact (noteRundown_quiet (notePeak_quiet (setGen_quiet (Quiet.refl _) fun h => h.congr rfl rfl rfl rfl))).unmeasured
    · rfl

theorem pm2Result_unmeasured {f : Nat} : unmeasured (pm2Result f s) = unmeasured s := by
  unfold pm2Result
  dsimp only
  split
  · exact (sourceFrequency_quiet (Quiet.refl _)).unmeasured
  · split <;> rfl

theorem tallyEdge_unmeasured : unmeasured (tallyEdge s) = unmeasured s := by
  unfold tallyEdge
  split
  · split
    · exact (takeQuanta_quiet (Quiet.refl _)).unmeasured
    · rfl
  · rfl

theorem pm3Loss_unmeasured : unmeasured (pm3Loss s) = unmeasured s := by
  unfold pm3Loss
  dsimp only
  split
  · split
    · exact (senseLoss_quiet (Quiet.refl _)).unmeasured
    · rfl
  · rfl

theorem pm3Long_unmeasured : unmeasured (pm3Long s) = unmeasured s := by
  unfold pm3Long
  dsimp only
  split
  · split
    · exact (senseLong_quiet (Quiet.refl _)).unmeasured
    · rfl
  · rfl

theorem pm3Return_unmeasured {ms : Nat} : unmeasured (pm3Return ms s) = unmeasured s := by
  have hlong : unmeasured (if 65535 ≤ ms then pm3Long s else s) = unmeasured s := by
    split
    · exact pm3Long_unmeasured
    · rfl
  have hback : ∀ (v : State) (x : Meters) (ms width : Nat) (long : Bool),
      unmeasured ({ v with pm := x } |> fun t => if inRun t then senseReturn ms width long t else t) = unmeasured v := by
    intro v x ms width long
    dsimp only
    split
    · exact (senseReturn_quiet (Quiet.refl _)).unmeasured
    · rfl
  unfold pm3Return
  split
  · rfl
  · exact (hback _ _ _ _ _).trans hlong

/-- A measurement row. -/
theorem measureRow_answers (h : measureRow c = true) : Answers (fun s t => unmeasured t = unmeasured s) s (exec c s) := by
  cases c with
  | scanCompletion raw => exact ⟨_, rfl, scanCompletion_unmeasured⟩
  | dinLineChange n high => exact ⟨_, rfl, lineChange_unmeasured⟩
  | debounceExpiry n => exact ⟨_, rfl, debounceEnd_unmeasured⟩
  | inputConditionerEvaluation => exact ⟨_, rfl, inputEvaluation_unmeasured⟩
  | edgeAlarmClear n => exact ⟨_, rfl, edgeAlarmCheck_quiet.unmeasured⟩
  | pin1RisingEdge => exact ⟨_, rfl, tallyEdge_unmeasured⟩
  | tallyQuantum => exact whenDue_answers (R := fun s t => unmeasured t = unmeasured s) rfl tallyEdge_unmeasured
  | pm0FrequencyResult edges spanUs => exact ⟨_, rfl, pm0Result_unmeasured⟩
  | pm2FrequencyResult edges spanUs => exact ⟨_, rfl, pm2Result_unmeasured⟩
  | mainsSenseLoss => exact ⟨_, rfl, pm3Loss_unmeasured⟩
  | mainsSenseReturn ms => exact ⟨_, rfl, pm3Return_unmeasured⟩
  | pm3LongResult => exact ⟨_, rfl, pm3Long_unmeasured⟩
  | _ => cases h

/-- Settles O8: a job's row is quiet, and a measurement row leaves what `unmeasured` names. -/
theorem rowFrames : Obligations.RowFrames := by
  refine ⟨fun c s t hj ht => ?jobs, fun c s t hm ht => ?measurement⟩
  case jobs =>
    obtain ⟨u, hu, hq⟩ := jobRow_quiet (s := s) hj
    obtain rfl := next_inj hu ht
    exact ⟨hq.clk_eq, hq.cells_eq, hq.refusal_eq, hq.settings_eq, hq.scan_eq, hq.inp_eq, hq.pm_eq, hq.cmd_eq, hq.sil_eq, hq.st_eq,
      hq.logHead_eq, hq.logCount_eq⟩
  case measurement =>
    obtain ⟨u, hu, hm⟩ := measureRow_answers (s := s) hm
    obtain rfl := next_inj hu ht
    simp only [unmeasured, Prod.mk.injEq, Path.mk.injEq] at hm
    obtain ⟨hclk, ⟨_, hcells, _, _, _, _, _, _, _, hrefusal⟩, hsettings, hcmd, hsil, hstate, hlock, hhead, hcount⟩ := hm
    exact ⟨hclk, hcells, hrefusal, hsettings, hcmd, hsil, hstate, hlock, hhead, hcount⟩

/-! ## The clock's second -/

/-- Settles O16: by whether a LONG absence is being measured. -/
theorem siteClockSecond : Obligations.SiteClockSecond := by
  intro s
  refine ⟨_, rfl, ?_⟩
  by_cases h : s.pm.sense = false ∧ s.pm.long = true
  · simp [clockSecond, pm3Second, clockPlus, h]
  · have h' : (!s.pm.sense && s.pm.long) = false := by
      simpa using h
    simp [clockSecond, pm3Second, clockPlus, h, h']

/-- Settles O3: each part is the value that a power-on gives. -/
theorem resetState : Obligations.ResetState := by
  refine ⟨rfl, rfl, rfl, rfl, rfl, rfl, rfl, rfl, rfl, rfl, rfl, rfl, rfl, rfl, rfl, rfl, rfl, rfl, rfl, rfl, rfl, rfl, rfl, rfl, rfl, rfl,
    rfl, rfl, rfl, rfl, fun c hc => ?channels, rfl, rfl, rfl, rfl, rfl⟩
  case channels =>
    rw [List.eq_of_mem_replicate (show c ∈ List.replicate 16 Channel.reset from hc)]
    exact ⟨rfl, rfl, rfl, rfl⟩

end Sys2Proof.Machine
end

section
/-! PROOFS. The memory and the Settings Lock (O6, O7, O9): the operations outside the jobs leave the memory, the held accesses and the lock as
they are, but for the host's stores, the own words and the resets. -/

namespace Sys2Proof.Machine

variable {s t u : State} {c : Instr}

/-! ## The memory, the held accesses and the lock -/

/-- The memory's words, the accesses held on HWAIT and the Settings Lock. -/
def still (s : State) := (s.path.cells, s.path.held, s.st.lock)

/-- A quiet change leaves all three as they are. -/
theorem Quiet.still (h : Quiet s t) : still t = still s :=
  congrArg (fun x => (x.2.2.1.cells, x.2.2.1.held, x.2.2.2.2.2.1.lock)) h.out

/-- A fold of operations that leave them as they are. -/
theorem foldl_still {α : Type} {f : State → α → State} (hf : ∀ t a, still (f t a) = still t) :
    ∀ (l : List α) (t : State), still (l.foldl f t) = still t
  | [], _ => rfl
  | a :: l, t => (foldl_still hf l (f t a)).trans (hf t a)

theorem still_cells (h : still t = still s) : t.path.cells = s.path.cells := congrArg (·.1) h
theorem still_held (h : still t = still s) : t.path.held = s.path.held := congrArg (·.2.1) h
theorem still_lock (h : still t = still s) : t.st.lock = s.st.lock := congrArg (·.2.2) h

/-- A measurement row leaves them as they are. -/
theorem still_of_unmeasured (h : unmeasured t = unmeasured s) : still t = still s := by
  simp only [unmeasured, Prod.mk.injEq, Path.mk.injEq] at h
  obtain ⟨-, ⟨-, hcells, -, -, -, -, -, -, hheld, -⟩, -, -, -, -, hlock, -, -⟩ := h
  simp only [still, hcells, hheld, hlock]

/-! ## The Silence Monitor -/

/-- A change of the silence state is quiet but for the state itself (R189). -/
theorem silenceTo_quiet {st : SilenceState} : Quiet { s with sil := { s.sil with state := st } } (silenceTo st s) :=
  setCond_quiet (logEv_quiet (Quiet.refl _))

/-- The takeover acts on the jobs alone (R190). -/
theorem takeover_quiet : Quiet s (takeover s) :=
  refreshStringConds_quiet (removeRequest_quiet (abortTest_quiet (cancelEqualize_quiet (abandonReconnect_quiet (Quiet.refl s)))))

theorem silenceEvaluation_still : still (silenceEvaluation s) = still s := by
  unfold silenceEvaluation
  dsimp only
  split
  · split
    · split
      · exact silenceTo_quiet.still
      · rfl
    · split
      · exact silenceTo_quiet.still
      · rfl
    · rfl
  · rfl

theorem graceExpires_still : still (graceExpires s) = still s := by
  unfold graceExpires
  split
  · exact takeover_quiet.still.trans silenceTo_quiet.still
  · rfl

theorem heartbeat_still : still (heartbeat s) = still s := heartbeat_quiet.still

/-! ## The Own-Cycle Engine and the interval -/

theorem placeLogEntry_still : still (placeLogEntry s) = still s := by
  unfold placeLogEntry
  split
  · split <;> rfl
  · rfl

theorem beginOwn_still : still (beginOwn s) = still s := by
  unfold beginOwn
  split
  · split <;> rfl
  · split <;> rfl

theorem reportOwn_still {r : OwnRequest} : still (reportOwn r s) = still s := by
  unfold reportOwn
  split
  · rfl
  · split <;> rfl
  · rfl
  · rfl
  · rfl

theorem completeOwn_still : still (completeOwn s) = still s := by
  unfold completeOwn
  split
  · split
    · exact placeLogEntry_still.trans reportOwn_still
    · rfl
  · rfl

theorem checkpointAll_quiet : Quiet s (checkpointAll s) := Quiet.foldl (fun _ _ h => checkpoint_quiet h) _ (Quiet.refl s)

theorem countInterval_still : still (countInterval s) = still s := by
  unfold countInterval
  split
  · split
    · exact checkpointAll_quiet.still
    · rfl
  · rfl

theorem commandEvaluation_still : still (commandEvaluation s) = still s := by
  unfold commandEvaluation
  split
  · rfl
  · exact countInterval_still

theorem freezeWrite_still {one : Bool} : still (freezeWrite one s) = still s := by
  unfold freezeWrite
  split
  · rfl
  · split <;> rfl

theorem freezeExpires_still : still (freezeExpires s) = still s := by
  unfold freezeExpires
  split <;> rfl

theorem pm3Second_still : still (pm3Second s) = still s := by
  unfold pm3Second
  split <;> rfl

/-! ## Start-up -/

theorem endLoads_still : still (endLoads s) = still s := rfl

theorem placeLoads_still {l : List OwnRequest} : still (placeLoads l s) = still s := by
  unfold placeLoads
  split <;> rfl

theorem setStart_still {f : Startup → Startup} (hf : (f s.st).lock = s.st.lock) : still (setStart f s) = still s := by
  simp only [still, setStart, hf]

theorem dropModule_still {m : Nat} : still (dropModule m s) = still s := by
  unfold dropModule
  split
  · dsimp only
    split
    · exact (abandonSwap_quiet (Quiet.refl _)).still
    · rfl
  · rfl

theorem dropString_still {k : Nat} : still (dropString k s) = still s := by
  unfold dropString
  split <;> rfl

/-- A step made only where a block was kept. -/
theorem ite_still {b : Bool} {f : State → State} (hf : still (f s) = still s) : still (if b then f s else s) = still s := by
  split
  · exact hf
  · rfl

theorem takeDescriptor_still {d : Descriptor} : still (takeDescriptor d s) = still s := by
  unfold takeDescriptor
  dsimp only
  refine (ite_still (refreshStringConds_quiet (Quiet.refl _)).still).trans ?_
  refine (ite_still (refreshModuleConds_quiet (Quiet.refl _)).still).trans ?_
  refine (foldl_still (fun _ _ => dropString_still) _ _).trans ?_
  exact foldl_still (fun _ _ => dropModule_still) _ _

theorem judgeDescriptor_still : still (judgeDescriptor s) = still s := by
  unfold judgeDescriptor
  split
  · exact takeDescriptor_still
  · rfl

theorem loadRemap_still : still (loadRemap s) = still s := by
  unfold loadRemap
  dsimp only
  split
  · exact (setCond_quiet (Quiet.refl _)).still
  · rfl

theorem reportDefaulted_still {l : List Nat} : still (reportDefaulted l s) = still s := by
  unfold reportDefaulted
  split
  · rfl
  · exact (logEv_quiet (setCond_quiet (Quiet.refl _))).still

theorem handSettings_still {ss : List Word} : still (handSettings ss s) = still s := by
  have hcap : still (eachString capacityStored (List.range 4)
      { s with settings := ss, pm := { s.pm with counting := true }, scan := { s.scan with on := true } }) = still s :=
    (eachString_quiet (Quiet.refl _) fun _ _ h => capacityStored_quiet h).still
  unfold handSettings
  dsimp only
  split
  · exact (genCapacityStored_quiet (immediateShed_quiet (busWindowStored_quiet (Quiet.refl _)))).still.trans hcap
  · exact hcap

theorem restoreRecord_still {n : Nat} {w : List Word} : still (restoreRecord n w s) = still s := by
  unfold restoreRecord restoreClock
  dsimp only
  split
  · split <;> rfl
  · split
    · rfl
    · split <;> rfl

theorem scanLog_still {ring : List (Option Nat)} : still (scanLog ring s) = still s := by
  unfold scanLog
  split <;> rfl

theorem enterCommissioning_still : still (enterCommissioning s) = still s := (logEv_quiet (Quiet.refl _)).still

theorem logLate_still : still (logLate s) = still s :=
  (foldl_still (f := fun t (e : LogEvent) => logAt e.time e.kind e.subject e.a e.b t) (fun _ _ => (logAt_quiet (Quiet.refl _)).still)
    s.st.late s)

theorem enterRun_still : still (enterRun s) = still s :=
  logLate_still.trans (logEv_quiet (Quiet.refl _)).still

theorem rosterAtRun_still {l : List Nat} : still (rosterAtRun l s) = still s := by
  have hfirst : ∀ t : State, Quiet t
      (t |> eachModule firstModuleState (List.range 8) |> immediateShed |> rosterSteps l |> refreshRosterConds) := fun t =>
    refreshRosterConds_quiet (rosterSteps_quiet (immediateShed_quiet (eachModule_quiet (Quiet.refl t) fun _ _ h => firstModuleState_quiet h)))
  unfold rosterAtRun
  split
  · exact (hfirst _).still
  · exact (hfirst _).still

theorem settleEnds_still {ms : Nat} : still (settleEnds ms s) = still s := by
  unfold settleEnds
  split
  · have hbefore : Quiet (enterRun s) (enterRun s |> alarmStart |> sourceAtRun ms |> genAtRun |> stringsAtRun) :=
      stringsAtRun_quiet (genAtRun_quiet (sourceAtRun_quiet (alarmStart_quiet (Quiet.refl _))))
    exact (alarmEvaluation_quiet (busAtRun_quiet (Quiet.refl _))).still.trans
      (rosterAtRun_still.trans (hbefore.still.trans enterRun_still))
  · rfl

/-! ## Host writes -/

/-- A refused write leaves the memory and the lock as they are (R162). -/
theorem refuseWrite_still {r a : Nat} {v : Word} : still (refuseWrite r a v s) = still s := (logEv_quiet (Quiet.refl _)).still

/-- What a command's own rule can do outside the jobs: nothing to the memory, the window, the scanner, the inputs and the meters, and to the
start-up record nothing but the lock being set (R188). -/
structure Ruled (s t : State) : Prop where
  path : { t.path with queue := [] } = { s.path with queue := [] }
  cmd : t.cmd = s.cmd
  st : t.st = s.st ∨ t.st = { s.st with lock := true }

/-- A quiet change is one. -/
theorem Quiet.ruled (h : Quiet s t) : Ruled s t := ⟨congrArg (·.2.2.1) h.out, h.cmd_eq, .inl h.st_eq⟩

/-- A fold of acknowledgements is quiet. -/
theorem ackAllCommand_quiet : Quiet s (ackAllCommand s).1 := by
  unfold ackAllCommand
  dsimp only
  refine reportAck_quiet (Quiet.foldl ?_ _ (Quiet.refl s))
  exact fun _ _ h => ackPoint_quiet h

theorem ackPointCommand_quiet {p : Nat} : Quiet s (ackPointCommand p s).1 := by
  unfold ackPointCommand
  split
  · exact Quiet.refl s
  · dsimp only
    split
    · exact reportAck_quiet (ackPoint_quiet (Quiet.refl s))
    · exact ackPoint_quiet (Quiet.refl s)

/-- SET_CLOCK is quiet but for the clock's value and state (R176). -/
theorem setClockCommand_quiet {hi lo : Word} :
    Quiet { s with clk := { s.clk with value := pairNat hi lo, state := .set } } (setClockCommand hi lo s).1 := by
  unfold setClockCommand
  dsimp only
  refine setGen_quiet (setBus_quiet (checkpoint_quiet (logEv_quiet (Quiet.refl _)))) ?_
  exact fun h => h.congr rfl rfl rfl rfl

theorem resumeCommand_ruled : Ruled s (resumeCommand s).1 := by
  unfold resumeCommand
  split
  · exact ⟨silenceTo_quiet.ruled.path, silenceTo_quiet.ruled.cmd, silenceTo_quiet.ruled.st⟩
  · exact (Quiet.refl s).ruled

theorem loadPresetCommand_ruled {p chem : Nat} : Ruled s (loadPresetCommand p chem s).1 := by
  unfold loadPresetCommand
  repeat' split
  all_goals exact ⟨rfl, rfl, .inl rfl⟩

/-- The rule of every command in the table. -/
theorem runRule_ruled {slot op : Nat} : Ruled s (runRule slot op s).1 := by
  have r := Quiet.refl s
  unfold runRule
  dsimp only
  split
  · have h := (setClockCommand_quiet (s := s) (hi := argWord s slot 1) (lo := argWord s slot 2)).ruled
    exact ⟨h.path, h.cmd, h.st⟩
  · exact ackPointCommand_quiet.ruled
  · exact ackAllCommand_quiet.ruled
  · exact (genRunCommand_quiet r).ruled
  · exact (genStopCommand_quiet r).ruled
  · exact (genResetCommand_quiet r).ruled
  · exact (genServiceCommand_quiet r).ruled
  · exact (transferRetry_quiet r).ruled
  · exact (moduleService_quiet r).ruled
  · exact (moduleReturn_quiet r).ruled
  · exact (rotateNow_quiet r).ruled
  · exact (stringIsolate_quiet r).ruled
  · exact (stringReconnect_quiet r).ruled
  · exact (equalizeStart_quiet r).ruled
  · exact (equalizeCancelCommand_quiet r).ruled
  · exact (testStartCommand_quiet r).ruled
  · exact (testAbortCommand_quiet r).ruled
  · exact loadPresetCommand_ruled
  · exact ⟨rfl, rfl, .inr rfl⟩
  · exact resumeCommand_ruled
  · exact (logEv_quiet r).ruled
  · exact r.ruled

/-- An answer leaves the memory and the lock as they are. -/
theorem answer_still {slot op tag : Nat} {r : Reply} : still (answer slot op tag r s) = still s := (logEv_quiet (Quiet.refl _)).still

/-- What the owner of a settings word does when it takes the word acts on the jobs and the tally alone. -/
theorem tallyQuantumStored_still : still (tallyQuantumStored s) = still s := (takeQuanta_quiet (Quiet.refl _)).still

theorem plantStored_still {i : Nat} : still (plantStored i s) = still s := by
  have r := Quiet.refl s
  unfold plantStored
  split
  · split
    · exact (capacityStored_quiet r).still
    · rfl
  · split
    · exact (reclamp_quiet r).still
    · split
      · exact (busWindowStored_quiet r).still
      · split
        · exact (immediateShed_quiet r).still
        · split
          · exact (outageDelayStored_quiet r).still
          · split
            · exact (genCapacityStored_quiet r).still
            · split
              · rfl
              · split
                · exact tallyQuantumStored_still
                · rfl

theorem settingTaken_still {o : Nat} {old : Word} : still (settingTaken o old s) = still s := by
  unfold settingTaken
  split
  · rfl
  · split
    · exact plantStored_still
    · unfold alarmStored
      split
      · exact (classChanged_quiet (Quiet.refl s)).still
      · split
        · exact (latchingStored_quiet (Quiet.refl s)).still
        · rfl

end Sys2Proof.Machine
end

section
/-! PROOFS. Host accesses and the rows that write the memory (O6, O7, O9). -/

namespace Sys2Proof.Machine

variable {s t u : State} {c : Instr}

/-! ## A reset before its last part -/

theorem cutOwnWord_idle (h : ownWordActive s = false) : cutOwnWord s = s := by
  unfold cutOwnWord
  split
  · next b hb =>
    have hw : b.word = false := by simpa [ownWordActive, hb] using h
    simp [hw]
  · rfl

/-- Completing an own write touches the memory alone. -/
theorem cutOwnWord_rest : ∃ p : Path, cutOwnWord s = { s with path := p } ∧ p.msz = s.path.msz ∧ p.held = s.path.held := by
  have hsame : ∃ p : Path, s = { s with path := p } ∧ p.msz = s.path.msz ∧ p.held = s.path.held := ⟨s.path, rfl, rfl, rfl⟩
  unfold cutOwnWord
  split
  · split
    · split
      · refine ⟨_, rfl, ?_, ?_⟩
        · unfold Path.store
          split <;> rfl
        · unfold Path.store
          split <;> rfl
      · exact hsame
    · exact hsame
  · exact hsame

/-- The records that the resets of the String Supervisor and the Bus Regulator do not write: they are quiet but for the two jobs' own blocks. -/
theorem resetStrings_path {kt ks : Bool} :
    { (resetStrings kt ks s).path with queue := [] } = { s.path with queue := [] } ∧ (resetStrings kt ks s).st = s.st := by
  unfold resetStrings
  dsimp only
  split
  · have h := abandonReconnect_quiet (o := .abandonedReset) (Quiet.refl s)
    exact ⟨congrArg (·.2.2.1) h.out, h.st_eq⟩
  · exact ⟨rfl, rfl⟩

theorem resetBus_path {kt : Bool} : { (resetBus kt s).path with queue := [] } = { s.path with queue := [] } ∧ (resetBus kt s).st = s.st := by
  have h : Quiet s (s |> withdrawClaim .equalize |> withdrawClaim .test |> withdrawClaim .matching) :=
    withdrawClaim_quiet (withdrawClaim_quiet (withdrawClaim_quiet (Quiet.refl s)))
  unfold resetBus
  dsimp only
  split
  · have h := withdrawClaim_quiet (k := .matching) (withdrawClaim_quiet (k := .test) (withdrawClaim_quiet (k := .equalize)
      (Quiet.refl { s with bus := { s.bus with eq := s.bus.eq.atReset (now s), test := s.bus.test.atReset (now s), recheck := false } })))
    exact ⟨congrArg (·.2.2.1) h.out, h.st_eq⟩
  · exact ⟨rfl, rfl⟩

theorem resetTrain_path {kt : Bool} : (resetTrain kt s).path = s.path ∧ (resetTrain kt s).st = s.st := by
  unfold resetTrain
  split <;> exact ⟨rfl, rfl⟩

/-- What a pin or soft reset leaves of the memory and the lock: the memory after the own write it cuts, the accesses held, and the lock only
where the reset is a soft one (R169, R188). -/
theorem warmReset_still {msz : BitVec 2} {kind : ResetKind} {a b : Bool} {l : List LogEvent} :
    still (warmReset msz kind a b l s) = ((cutOwnWord s).path.cells, s.path.held, s.st.lock && kind == .soft) := by
  obtain ⟨p, hcut, -, hheld⟩ := cutOwnWord_rest (s := s)
  have h1 := resetStrings_path (s := cutOwnWord s) (kt := a && !inCommissioning s) (ks := b && !inCommissioning s)
  have h2 := resetBus_path (s := resetStrings (a && !inCommissioning s) (b && !inCommissioning s) (cutOwnWord s))
    (kt := a && !inCommissioning s)
  have h3 := resetTrain_path (kt := a && !inCommissioning s) (s := resetBus (a && !inCommissioning s)
    (resetStrings (a && !inCommissioning s) (b && !inCommissioning s) (cutOwnWord s)))
  have hst := h3.2.trans (h2.2.trans h1.2)
  have hpath := (congrArg (fun q : Path => { q with queue := [] }) h3.1).trans (h2.1.trans h1.1)
  simp only [Path.mk.injEq] at hpath
  obtain ⟨-, hcells, -, -, -, -, -, -, hheld', -⟩ := hpath
  have hcutst : (cutOwnWord s).st = s.st := by rw [hcut]
  have hcutheld : (cutOwnWord s).path.held = s.path.held := by rw [hcut]; exact hheld
  simp only [still, warmReset, resetRest, Path.reset, Startup.reset, hcells, hheld', hst, hcutst, hcutheld]

/-! ## Commands -/

/-- A soft reset taken keeps the lock (R188). -/
theorem softResetTaken_still {slot tag : Nat} :
    still (softResetTaken slot tag s) = ((cutOwnWord s).path.cells, s.path.held, s.st.lock) :=
  warmReset_still.trans (by simp)

theorem softResetTaken_cells {slot tag : Nat} : (softResetTaken slot tag s).path.cells = (cutOwnWord s).path.cells := by
  have h := congrArg (·.1) (softResetTaken_still (s := s) (slot := slot) (tag := tag))
  exact h

theorem softResetTaken_lock {slot tag : Nat} : (softResetTaken slot tag s).st.lock = s.st.lock := by
  have h := congrArg (·.2.2) (softResetTaken_still (s := s) (slot := slot) (tag := tag))
  exact h

/-- A command's own rule leaves the memory as it is. -/
theorem runRule_cells {slot op : Nat} : (runRule slot op s).1.path.cells = s.path.cells := by
  have h := congrArg Path.cells (runRule_ruled (s := s) (slot := slot) (op := op)).path
  exact h

/-- A command taken leaves the memory as it is but for an own write that a soft reset completes. -/
theorem takeCommand_cells {slot op tag : Nat} (hw : ownWordActive s = false) : (takeCommand slot op tag s).path.cells = s.path.cells := by
  unfold takeCommand
  split
  · exact still_cells answer_still
  · split
    · split
      · exact still_cells answer_still
      · rw [softResetTaken_cells, cutOwnWord_idle hw]
    · exact (still_cells answer_still).trans runRule_cells

/-- A command's own rule keeps the lock set. -/
theorem runRule_lock {slot op : Nat} (h : s.st.lock = true) : (runRule slot op s).1.st.lock = true := by
  rcases (runRule_ruled (s := s) (slot := slot) (op := op)).st with e | e
  · rw [e, h]
  · rw [e]

/-- A command taken keeps the lock set. -/
theorem takeCommand_lock {slot op tag : Nat} (h : s.st.lock = true) : (takeCommand slot op tag s).st.lock = true := by
  unfold takeCommand
  split
  · exact (still_lock answer_still).trans h
  · split
    · split
      · exact (still_lock answer_still).trans h
      · exact softResetTaken_lock.trans h
    · exact (still_lock answer_still).trans (runRule_lock h)

/-! ## Host writes and the lock -/

theorem slotWrite_lock {slot word a : Nat} {v : Word} (h : s.st.lock = true) : (slotWrite slot word a v s).st.lock = true := by
  unfold slotWrite
  split
  · exact (still_lock refuseWrite_still).trans h
  · dsimp only
    split
    · exact takeCommand_lock h
    · exact h

theorem guardedStore_lock {o a : Nat} {v : Word} : (guardedStore o a v s).st.lock = s.st.lock := by
  unfold guardedStore
  split
  · exact still_lock refuseWrite_still
  · dsimp only
    exact (still_lock settingTaken_still).trans rfl

theorem liveWrite_still {o a : Nat} {v : Word} : still (liveWrite o a v s) = still s := by
  unfold liveWrite
  split
  · split
    · exact freezeWrite_still
    · exact refuseWrite_still
  · exact refuseWrite_still

theorem prWrite_lock {o : Nat} {v : Word} (h : s.st.lock = true) : (prWrite o v s).st.lock = true := by
  have hb : (heartbeat s).st.lock = true := (still_lock heartbeat_still).trans h
  unfold prWrite
  dsimp only
  split
  · exact (still_lock refuseWrite_still).trans hb
  · split
    · exact (still_lock liveWrite_still).trans hb
    · exact slotWrite_lock hb
    · exact guardedStore_lock.trans hb
    · exact (still_lock refuseWrite_still).trans hb
    · exact (still_lock refuseWrite_still).trans hb
    · exact hb

theorem anchorWrite_lock {w : Nat} {v : Word} : (anchorWrite w v s).st.lock = s.st.lock := by
  unfold anchorWrite
  dsimp only
  split
  · exact still_lock refuseWrite_still
  · rfl

theorem perform_lock {x : HostAccess} (h : s.st.lock = true) : (perform x s).st.lock = true := by
  unfold perform addrWrite
  split
  · split
    · exact prWrite_lock h
    · exact anchorWrite_lock.trans h
    · exact (still_lock refuseWrite_still).trans h
    · exact (still_lock refuseWrite_still).trans h
    · exact h
    · exact h
  · exact prWrite_lock h
  · exact anchorWrite_lock.trans h

theorem arrive_lock {x : HostAccess} (h : s.st.lock = true) : (arrive x s).st.lock = true := by
  unfold arrive
  split
  · exact h
  · exact perform_lock h

theorem releaseHeld_lock (h : s.st.lock = true) : (releaseHeld s).st.lock = true := by
  have step : ∀ (l : List HostAccess) (t : State), t.st.lock = true → (l.foldl (fun t x => arrive x t) t).st.lock = true := by
    intro l
    induction l with
    | nil => exact fun _ h => h
    | cons x l ih => exact fun t ht => ih _ (arrive_lock ht)
  exact step _ _ h

/-! ## The own words and the lock -/

theorem setWorn_quiet : Quiet s (setWorn s) := setCond_quiet (Quiet.refl s)

theorem remapWord_st {a : Nat} {v back : Word} : (remapWord a v back s).st = s.st := by
  unfold remapWord
  split
  · split
    · exact (logEv_quiet (Quiet.refl _)).st_eq
    · exact setWorn_quiet.st_eq
  · exact setWorn_quiet.st_eq

theorem verifyWrite_st {b : Bool} {a : Nat} {v back spare : Word} : (verifyWrite b a v back spare s).st = s.st := by
  unfold verifyWrite
  dsimp only
  split
  · rfl
  · split
    · exact setWorn_quiet.st_eq
    · exact remapWord_st

theorem finishOwnWord_st {back spare : Word} : (finishOwnWord back spare s).st = s.st := by
  unfold finishOwnWord
  split
  · split
    · rw [setPath_st]
      split
      · exact verifyWrite_st
      · rfl
    · rfl
  · rfl

/-! ## The ends of the start-up states -/

/-- LOAD_ANCHOR's end before the held accesses proceed. -/
def anchorJudged (s : State) : State :=
  s |> judgeDescriptor |> loadRemap |> setStart (fun x => { x with state := .loadSettings })
    |> fun t => t |> endLoads |> placeLoads (settingsLoads t)

theorem loadAnchorEnds_eq : loadAnchorEnds s = if s.st.state = .loadAnchor then releaseHeld (anchorJudged s) else s := rfl

/-- A change of the start-up state alone. -/
theorem setStartState_still {x : StartState} : still (setStart (fun y => { y with state := x }) s) = still s := rfl

theorem anchorJudged_still : still (anchorJudged s) = still s := by
  unfold anchorJudged
  dsimp only
  refine placeLoads_still.trans ?_
  refine endLoads_still.trans ?_
  refine setStartState_still.trans ?_
  exact loadRemap_still.trans judgeDescriptor_still

/-- LOAD_SETTINGS' end changes what `still` names only by releasing the held accesses. -/
theorem loadSettingsEnds_still : still (loadSettingsEnds s) = still (if s.st.state = .loadSettings then loadsEnd s else s) := by
  unfold loadSettingsEnds
  split
  · dsimp only
    refine placeLoads_still.trans ?_
    refine setStartState_still.trans ?_
    exact handSettings_still.trans reportDefaulted_still
  · rfl

/-- COUNTERS_LOST set where a record is bad. -/
theorem countersLost_still {n : Nat} : still (if 0 < n then setCond Pt.countersLost true s else s) = still s := by
  split
  · exact (setCond_quiet (Quiet.refl s)).still
  · rfl

/-- LOAD_COUNTERS' end changes what `still` names only by releasing the held accesses. -/
theorem loadCountersEnds_still : still (loadCountersEnds s) = still (if s.st.state = .loadCounters then loadsEnd s else s) := by
  unfold loadCountersEnds
  split
  · dsimp only
    refine placeLoads_still.trans ?_
    refine setStartState_still.trans ?_
    refine (logEv_quiet (Quiet.refl _)).still.trans ?_
    refine countersLost_still.trans ?_
    exact foldl_still (fun _ _ => restoreRecord_still) _ _
  · rfl

/-- The state that LOG_SCAN leads to. -/
theorem afterLogScan_still : still (if s.st.forCommissioning then enterCommissioning s
    else setStart (fun x => { x with state := .settle, settleScans := 0 }) s) = still s := by
  split
  · exact enterCommissioning_still
  · rfl

/-- LOG_SCAN's end changes what `still` names only by releasing the held accesses. -/
theorem logScanEnds_still : still (logScanEnds s) = still (if s.st.state = .logScan then loadsEnd s else s) := by
  unfold logScanEnds
  split
  · dsimp only
    refine placeLogEntry_still.trans ?_
    refine afterLogScan_still.trans ?_
    exact scanLog_still.trans placeLoads_still
  · rfl

theorem loadsEnd_lock (h : s.st.lock = true) : (loadsEnd s).st.lock = true := releaseHeld_lock h

theorem loadsEnd_nil (h : s.path.held = []) : loadsEnd s = endLoads s := releaseHeld_nil h

/-! ## The rows -/

/-- The lock, once set, stays set. -/
abbrev LockKept (s t : State) : Prop := s.st.lock = true → t.st.lock = true

/-- The release at the end of a start-up state's reads. -/
theorem loadsEnd_lockKept {p : Prop} [Decidable p] : LockKept s (if p then loadsEnd s else s) := by
  intro h
  split
  · exact loadsEnd_lock h
  · exact h

theorem loadAnchorEnds_lock : LockKept s (loadAnchorEnds s) := by
  intro h
  rw [loadAnchorEnds_eq]
  split
  · exact releaseHeld_lock ((still_lock anchorJudged_still).trans h)
  · exact h

/-- Operations that leave what `still` names keep the lock. -/
theorem lockKept_of_still (h : still t = still s) : LockKept s t := fun hl => (still_lock h).trans hl

/-- Every row but the two hard resets keeps the lock set: a job's and a measurement row leave it, a post is a host write, and the rows that
release held accesses make host writes. -/
theorem exec_lock (hpower : ∀ m d p, c ≠ .powerOn m d p) (hpin : ∀ m, c ≠ .pinReset m) : Answers LockKept s (exec c s) := by
  by_cases hj : jobRow c = true
  · obtain ⟨t, ht, hq⟩ := jobRow_quiet (s := s) hj
    exact ⟨t, ht, lockKept_of_still hq.still⟩
  by_cases hm : measureRow c = true
  · obtain ⟨t, ht, hq⟩ := measureRow_answers (s := s) hm
    exact ⟨t, ht, lockKept_of_still (still_of_unmeasured hq)⟩
  cases hp : postOf c with
  | some p =>
    obtain ⟨slot, op, tag⟩ := p
    exact ⟨_, exec_post hp, arrive_lock⟩
  | none =>
    have hother : (jobRow c || measureRow c || (postOf c).isSome) = false := by simp [hj, hm, hp]
    cases c with
    | powerOn msz din pin3 => exact absurd rfl (hpower _ _ _)
    | pinReset msz => exact absurd rfl (hpin _)
    | loadAnchorEnd => exact ⟨_, rfl, loadAnchorEnds_lock⟩
    | loadSettingsEnd => exact ⟨_, rfl, fun h => (still_lock loadSettingsEnds_still).trans (loadsEnd_lockKept h)⟩
    | loadCountersEnd => exact ⟨_, rfl, fun h => (still_lock loadCountersEnds_still).trans (loadsEnd_lockKept h)⟩
    | logScanEnd => exact ⟨_, rfl, fun h => (still_lock logScanEnds_still).trans (loadsEnd_lockKept h)⟩
    | settleEnd ms => exact ⟨_, rfl, lockKept_of_still settleEnds_still⟩
    | commandInterpreterEvaluation => exact ⟨_, rfl, lockKept_of_still commandEvaluation_still⟩
    | checkpointInterval => exact whenDue_answers (R := LockKept) id (lockKept_of_still countInterval_still)
    | freezeControlWrite data => exact ⟨_, rfl, arrive_lock⟩
    | freezeExpiry => exact ⟨_, rfl, lockKept_of_still freezeExpires_still⟩
    | hostWrite addr data => exact ⟨_, rfl, arrive_lock⟩
    | guardedWrite offset data => exact ⟨_, rfl, arrive_lock⟩
    | descriptorWrite word data => exact ⟨_, rfl, arrive_lock⟩
    | ownCycleBegin => exact ⟨_, rfl, lockKept_of_still (beginOwn_still.trans placeLogEntry_still)⟩
    | ownWordComplete readBack spareReadBack =>
      exact ⟨_, rfl, fun h => releaseHeld_lock ((congrArg Startup.lock finishOwnWord_st).trans h)⟩
    | ownRequestComplete => exact ⟨_, rfl, lockKept_of_still completeOwn_still⟩
    | silenceMonitorEvaluation => exact ⟨_, rfl, lockKept_of_still silenceEvaluation_still⟩
    | silenceLimitReached => exact whenDue_answers (R := LockKept) id (lockKept_of_still silenceEvaluation_still)
    | graceExpiry => exact ⟨_, rfl, lockKept_of_still graceExpires_still⟩
    | siteClockSecond => exact ⟨_, rfl, lockKept_of_still pm3Second_still⟩
    | _ => cases hother

/-- Settles O9: every row but the two hard resets keeps the lock set. -/
theorem lockHolds : Obligations.LockHolds := by
  intro c s t hl hpower hpin hc
  obtain ⟨u, hu, hkept⟩ := exec_lock (s := s) hpower hpin
  exact next_inj hu hc ▸ hkept hl

end Sys2Proof.Machine
end

section
/-! PROOFS. The words that a host access and a row that stores nothing leave as they are (O6, O7). -/

namespace Sys2Proof.Machine

variable {s t u : State} {c : Instr}

/-! ## A host write changes one word -/

/-- From s to t at most the word at the address that a is redirected to changes. -/
abbrev StoresAt (a : Nat) (s t : State) : Prop :=
  Memory.wf s.path.cells = true → ∀ b, b ≠ s.path.redirect a → readCells t.path.cells b = readCells s.path.cells b

theorem storesAt_of_cells {a : Nat} (h : t.path.cells = s.path.cells) : StoresAt a s t := fun _ b _ => by rw [h]

theorem hostStore_storesAt {a : Nat} {v : Word} : StoresAt a s (hostStore a v s) := fun hwf _ hb => Path.store_other s.path v hwf hb

/-- The words, the redirection and the own word in progress after a quiet change are those before. -/
theorem Quiet.redirect_eq (h : Quiet s t) (a : Nat) : t.path.redirect a = s.path.redirect a := by
  simp only [Path.redirect, Path.entryFor, Path.spareAddr, Path.size, h.remap_eq, h.msz_eq]

theorem Quiet.ownWordActive_eq (h : Quiet s t) : ownWordActive t = ownWordActive s := by
  simp only [ownWordActive, h.busy_eq]

theorem Quiet.prBase_eq (h : Quiet s t) : prBase t = prBase s := by
  simp only [prBase, h.st_eq, Path.size, h.msz_eq]

/-- A quiet change before a write does not matter to it. -/
theorem StoresAt.afterQuiet {a : Nat} (q : Quiet s t) (h : StoresAt a t u) : StoresAt a s u := by
  intro hwf b hb
  rw [h (by rwa [q.cells_eq]) b (by rwa [q.redirect_eq]), q.cells_eq]

/-- A write leaves the own word in progress as it is. -/
theorem ownWordActive_hostStore {a : Nat} {v : Word} : ownWordActive (hostStore a v s) = ownWordActive s := by
  unfold hostStore Path.store
  split <;> rfl

theorem slotWrite_storesAt {slot word a : Nat} {v : Word} (hw : ownWordActive s = false) : StoresAt a s (slotWrite slot word a v s) := by
  have hcap : ownWordActive (captureWord slot word v (hostStore a v s)) = false := ownWordActive_hostStore.trans hw
  unfold slotWrite
  split
  · exact storesAt_of_cells (still_cells refuseWrite_still)
  · dsimp only
    split
    · intro hwf b hb
      rw [takeCommand_cells hcap]
      exact hostStore_storesAt hwf b hb
    · exact hostStore_storesAt

theorem guardedStore_storesAt {o a : Nat} {v : Word} : StoresAt a s (guardedStore o a v s) := by
  unfold guardedStore
  split
  · exact storesAt_of_cells (still_cells refuseWrite_still)
  · intro hwf b hb
    dsimp only
    rw [still_cells settingTaken_still]
    exact hostStore_storesAt hwf b hb

/-- A write at PR offset o stores at most the word there. -/
theorem prWrite_storesAt {o : Nat} {v : Word} (hw : ownWordActive s = false) : StoresAt (prBase s + o) s (prWrite o v s) := by
  have hq := heartbeat_quiet (s := s)
  have hrefuse : ∀ r, StoresAt (prBase s + o) (heartbeat s) (refuseWrite r (prBase s + o) v (heartbeat s)) :=
    fun _ => storesAt_of_cells (still_cells refuseWrite_still)
  refine StoresAt.afterQuiet (s := { s with sil := heard s.sil }) hq ?_
  unfold prWrite
  dsimp only
  split
  · exact hrefuse _
  · split
    · exact storesAt_of_cells (still_cells liveWrite_still)
    · exact slotWrite_storesAt (hq.ownWordActive_eq.trans hw)
    · exact guardedStore_storesAt
    · exact hrefuse _
    · exact hrefuse _
    · exact hostStore_storesAt

theorem anchorWrite_storesAt {w : Nat} {v : Word} : StoresAt (s.path.size - 64 + w) s (anchorWrite w v s) := by
  unfold anchorWrite
  dsimp only
  split
  · exact storesAt_of_cells (still_cells refuseWrite_still)
  · exact hostStore_storesAt

/-- The address that a host access writes to. -/
def HostAccess.target (s : State) : HostAccess → Nat
  | .addr a _ => a.toNat
  | .pr o _ => prBase s + o
  | .anchor w _ => s.path.size - 64 + w

/-- An address in the PR area is the PR base and its offset. -/
theorem areaOf_pr {size base a o : Nat} (h : areaOf size base a = .pr o) : a = base + o := by
  unfold areaOf at h
  split at h
  · injection h with ho
    omega
  · grind

/-- An address in the descriptor area is its start and the word. -/
theorem areaOf_descriptor {size base a w : Nat} (h : areaOf size base a = .descriptor w) : a = size - 64 + w := by
  unfold areaOf at h
  grind

theorem addrWrite_storesAt {a : Nat} {v : Word} (hw : ownWordActive s = false) : StoresAt a s (addrWrite a v s) := by
  unfold addrWrite
  split
  · next o h =>
    rw [areaOf_pr h]
    exact prWrite_storesAt hw
  · next w h =>
    rw [areaOf_descriptor h]
    exact anchorWrite_storesAt
  · exact storesAt_of_cells (still_cells refuseWrite_still)
  · exact storesAt_of_cells (still_cells refuseWrite_still)
  · exact hostStore_storesAt
  · exact hostStore_storesAt

theorem perform_storesAt {x : HostAccess} (hw : ownWordActive s = false) : StoresAt (x.target s) s (perform x s) := by
  cases x with
  | addr a v => exact addrWrite_storesAt hw
  | pr o v => exact prWrite_storesAt hw
  | anchor w v => exact anchorWrite_storesAt

/-- A host access that is held stores nothing; one that proceeds stores at most the word it addresses. -/
theorem arrive_storesAt {x : HostAccess} : StoresAt (x.target s) s (arrive x s) := by
  unfold arrive
  split
  · exact storesAt_of_cells rfl
  · next h =>
    have hw : ownWordActive s = false := by
      simp only [holds, Bool.or_eq_true, not_or, Bool.not_eq_true] at h
      exact h.2
    exact perform_storesAt hw

/-- A row with a host address is the arrival of a host access at that address. -/
theorem exec_hostAddr {a : Nat} (h : hostAddr s c = some a) : ∃ x : HostAccess, x.target s = a ∧ exec c s = .next (arrive x s) := by
  have hpost : ∀ p, postOf c = some p → prBase s + (0x100 + 8 * p.1.val) = a →
      ∃ x : HostAccess, x.target s = a ∧ exec c s = .next (arrive x s) :=
    fun p hp ha => ⟨.pr (0x100 + 8 * p.1.val) (bytesWord p.2.1 p.2.2.toNat), ha, exec_post hp⟩
  unfold hostAddr at h
  split at h
  · cases h
    exact ⟨.addr _ _, rfl, rfl⟩
  · cases h
    exact ⟨.pr _ _, rfl, rfl⟩
  · cases h
    exact ⟨.anchor _ _, rfl, rfl⟩
  · obtain ⟨p, hp, ha⟩ := Option.map_eq_some_iff.1 h
    exact hpost p hp ha

/-- Settles O7: the row is the arrival of one host access. -/
theorem hostWriteFrame : Obligations.HostWriteFrame := by
  intro c s t a hwf ha hc b hb
  obtain ⟨x, rfl, hx⟩ := exec_hostAddr ha
  exact next_inj hx hc ▸ arrive_storesAt hwf b hb

/-! ## The rows that store nothing -/

/-- The memory's words as they were. -/
abbrev SameCells (s t : State) : Prop := t.path.cells = s.path.cells

/-- A freeze control write stores nothing (R159, R173). -/
theorem freezeControl_cells {v : Word} : SameCells s (arrive (.pr 0 v) s) := by
  have hb : (heartbeat s).path.cells = s.path.cells := heartbeat_cells
  unfold arrive
  split
  · rfl
  · show (prWrite 0 v s).path.cells = s.path.cells
    unfold prWrite
    dsimp only
    split
    · exact (still_cells refuseWrite_still).trans hb
    · exact (still_cells liveWrite_still).trans hb

/-- A row that stores nothing. -/
theorem storesNothing_cells (h : storesNothing c = true) : Answers SameCells s (exec c s) := by
  by_cases hj : jobRow c = true
  · obtain ⟨t, ht, hq⟩ := jobRow_quiet (s := s) hj
    exact ⟨t, ht, hq.cells_eq⟩
  by_cases hm : measureRow c = true
  · obtain ⟨t, ht, hq⟩ := measureRow_answers (s := s) hm
    exact ⟨t, ht, still_cells (still_of_unmeasured hq)⟩
  have hother : (jobRow c || measureRow c || !storesNothing c) = false := by simp [hj, hm, h]
  cases c with
  | settleEnd ms => exact ⟨_, rfl, still_cells settleEnds_still⟩
  | commandInterpreterEvaluation => exact ⟨_, rfl, still_cells commandEvaluation_still⟩
  | checkpointInterval => exact whenDue_answers (R := SameCells) rfl (still_cells countInterval_still)
  | freezeControlWrite data => exact ⟨_, rfl, freezeControl_cells⟩
  | freezeExpiry => exact ⟨_, rfl, still_cells freezeExpires_still⟩
  | ownCycleBegin => exact ⟨_, rfl, still_cells (beginOwn_still.trans placeLogEntry_still)⟩
  | ownRequestComplete => exact ⟨_, rfl, still_cells completeOwn_still⟩
  | silenceMonitorEvaluation => exact ⟨_, rfl, still_cells silenceEvaluation_still⟩
  | silenceLimitReached => exact whenDue_answers (R := SameCells) rfl (still_cells silenceEvaluation_still)
  | graceExpiry => exact ⟨_, rfl, still_cells graceExpires_still⟩
  | siteClockSecond => exact ⟨_, rfl, still_cells pm3Second_still⟩
  | _ => cases hother

/-- With nothing held the end of a start-up state's reads stores nothing. -/
theorem loadsEnd_cells {p : Prop} [Decidable p] (h : s.path.held = []) : (if p then loadsEnd s else s).path.cells = s.path.cells := by
  split
  · rw [loadsEnd_nil h]
    rfl
  · rfl

theorem loadAnchorEnds_cells (h : s.path.held = []) : SameCells s (loadAnchorEnds s) := by
  show (loadAnchorEnds s).path.cells = s.path.cells
  rw [loadAnchorEnds_eq]
  split
  · rw [releaseHeld_nil ((still_held anchorJudged_still).trans h)]
    exact still_cells anchorJudged_still
  · rfl

/-- Settles O6: by the rows that store nothing, and by the four ends with nothing to release. -/
theorem rowsThatStoreNothing : Obligations.RowsThatStoreNothing := by
  refine ⟨fun c s t hn hc a => ?rows, fun c s t hends hheld hc a => ?ends⟩
  case rows =>
    obtain ⟨u, hu, hcells⟩ := storesNothing_cells (s := s) hn
    rw [← next_inj hu hc, hcells]
  case ends =>
    have hcells : Answers SameCells s (exec c s) := by
      rcases hends with rfl | rfl | rfl | rfl
      · exact ⟨_, rfl, loadAnchorEnds_cells hheld⟩
      · exact ⟨_, rfl, (still_cells loadSettingsEnds_still).trans (loadsEnd_cells hheld)⟩
      · exact ⟨_, rfl, (still_cells loadCountersEnds_still).trans (loadsEnd_cells hheld)⟩
      · exact ⟨_, rfl, (still_cells logScanEnds_still).trans (loadsEnd_cells hheld)⟩
    obtain ⟨u, hu, hcells⟩ := hcells
    rw [← next_inj hu hc, hcells]

end Sys2Proof.Machine
end

section
/-! PROOFS. What the operations of the claims, the run requests and the points leave as they are: a point's change reaches the three records it
reports to and no other, and the generator only where FUEL_CRITICAL becomes active (R138). -/

namespace Sys2Proof.Machine

variable {s t u : State} {whole : Bool}

/-- What the claims of an equalize, a test and the generator leave of the Bus Regulator. -/
def Bus.aside (b : Bus) := (b.claims.strings, b.claims.matching, b.claims.thermal, b.setpoint, b.vref, b.ilim, b.recheck)

/-- What a report to the Bus Regulator and the Generator Controller leaves as it is; `whole` where the generator is not reported to. -/
def aside (whole : Bool) (s : State) :=
  ((s.pending, s.clk, s.path, s.cmd, s.st, s.settings, s.sil, s.scan, s.inp, s.pm), (s.log.head, s.log.count, s.log.ready), s.str, s.ros,
    s.src.xfer, { s.src.mains with failHeld := false }, (s.conds, s.alm.copies), s.bus.aside,
    if whole then some (s.gen, s.src, s.bus.claims.generator) else none)

/-! ## The parts of it -/

theorem aside_path (h : aside whole t = aside whole s) : t.path = s.path := congrArg (·.1.2.2.1) h
theorem aside_clk (h : aside whole t = aside whole s) : t.clk = s.clk := congrArg (·.1.2.1) h
theorem aside_cmd (h : aside whole t = aside whole s) : t.cmd = s.cmd := congrArg (·.1.2.2.2.1) h
theorem aside_st (h : aside whole t = aside whole s) : t.st = s.st := congrArg (·.1.2.2.2.2.1) h
theorem aside_settings (h : aside whole t = aside whole s) : t.settings = s.settings := congrArg (·.1.2.2.2.2.2.1) h
theorem aside_sil (h : aside whole t = aside whole s) : t.sil = s.sil := congrArg (·.1.2.2.2.2.2.2.1) h
theorem aside_scan (h : aside whole t = aside whole s) : t.scan = s.scan := congrArg (·.1.2.2.2.2.2.2.2.1) h
theorem aside_inp (h : aside whole t = aside whole s) : t.inp = s.inp := congrArg (·.1.2.2.2.2.2.2.2.2.1) h
theorem aside_pm (h : aside whole t = aside whole s) : t.pm = s.pm := congrArg (·.1.2.2.2.2.2.2.2.2.2) h
theorem aside_str (h : aside whole t = aside whole s) : t.str = s.str := congrArg (·.2.2.1) h
theorem aside_ros (h : aside whole t = aside whole s) : t.ros = s.ros := congrArg (·.2.2.2.1) h
theorem aside_xfer (h : aside whole t = aside whole s) : t.src.xfer = s.src.xfer := congrArg (·.2.2.2.2.1) h
theorem aside_mains (h : aside whole t = aside whole s) : { t.src.mains with failHeld := false } = { s.src.mains with failHeld := false } :=
  congrArg (·.2.2.2.2.2.1) h
theorem aside_conds (h : aside whole t = aside whole s) : t.conds = s.conds := congrArg (·.2.2.2.2.2.2.1.1) h
theorem aside_copies (h : aside whole t = aside whole s) : t.alm.copies = s.alm.copies := congrArg (·.2.2.2.2.2.2.1.2) h
theorem aside_bus (h : aside whole t = aside whole s) : t.bus.aside = s.bus.aside := congrArg (·.2.2.2.2.2.2.2.1) h
theorem aside_claimStrings (h : aside whole t = aside whole s) : t.bus.claims.strings = s.bus.claims.strings :=
  congrArg (·.1) (aside_bus h)
theorem aside_claimMatching (h : aside whole t = aside whole s) : t.bus.claims.matching = s.bus.claims.matching :=
  congrArg (·.2.1) (aside_bus h)
theorem aside_claimThermal (h : aside whole t = aside whole s) : t.bus.claims.thermal = s.bus.claims.thermal :=
  congrArg (·.2.2.1) (aside_bus h)
theorem aside_setpoint (h : aside whole t = aside whole s) : t.bus.setpoint = s.bus.setpoint := congrArg (·.2.2.2.1) (aside_bus h)
theorem aside_vref (h : aside whole t = aside whole s) : t.bus.vref = s.bus.vref := congrArg (·.2.2.2.2.1) (aside_bus h)
theorem aside_ilim (h : aside whole t = aside whole s) : t.bus.ilim = s.bus.ilim := congrArg (·.2.2.2.2.2.1) (aside_bus h)

theorem aside_whole (h : aside true t = aside true s) :
    (t.gen, t.src, t.bus.claims.generator) = (s.gen, s.src, s.bus.claims.generator) :=
  Option.some.inj (congrArg (·.2.2.2.2.2.2.2.2) h)

theorem aside_gen (h : aside true t = aside true s) : t.gen = s.gen := congrArg (·.1) (aside_whole h)
theorem aside_src (h : aside true t = aside true s) : t.src = s.src := congrArg (·.2.1) (aside_whole h)
theorem aside_claimGenerator (h : aside true t = aside true s) : t.bus.claims.generator = s.bus.claims.generator :=
  congrArg (·.2.2) (aside_whole h)

theorem aside_now (h : aside whole t = aside whole s) : now t = now s := congrArg Clock.value (aside_clk h)
theorem aside_inRun (h : aside whole t = aside whole s) : inRun t = inRun s := congrArg (fun x : Startup => x.state == .run) (aside_st h)
theorem aside_condOf (h : aside whole t = aside whole s) (p : Nat) : condOf t p = condOf s p := by rw [condOf, condOf, aside_conds h]
theorem aside_copyOf (h : aside whole t = aside whole s) (p : Nat) : copyOf t p = copyOf s p := by rw [copyOf, copyOf, aside_copies h]

/-- The generator not reported to is a case of both. -/
theorem aside_of_whole (h : aside true t = aside true s) : aside whole t = aside whole s := by
  cases whole
  · have e := congrArg (fun x => (x.1, x.2.1, x.2.2.1, x.2.2.2.1, x.2.2.2.2.1, x.2.2.2.2.2.1, x.2.2.2.2.2.2.1, x.2.2.2.2.2.2.2.1)) h
    simp only [aside, Prod.mk.injEq] at e ⊢
    simp only [e, and_self, Bool.false_eq_true, if_false]
  · exact h

/-- A fold of operations. -/
theorem foldl_aside {α : Type} {f : State → α → State} {l : List α} (hf : ∀ a ∈ l, ∀ t, aside whole (f t a) = aside whole t) :
    ∀ t : State, aside whole (l.foldl f t) = aside whole t := by
  induction l with
  | nil => exact fun _ => rfl
  | cons a l ih =>
    intro t
    exact (ih (fun b hb => hf b (List.mem_cons_of_mem _ hb)) _).trans (hf a List.mem_cons_self t)

/-- An operation made on a condition. -/
theorem ite_aside {c : Prop} [Decidable c] (f : State → State) (hf : aside whole (f s) = aside whole s) :
    aside whole (if c then f s else s) = aside whole s := by
  split
  · exact hf
  · rfl

/-! ## Log and claims -/

theorem logEv_aside {k : LogKind} {x a b : Word} : aside whole (logEv k x a b s) = aside whole s := by
  unfold logEv logAt
  split <;> rfl

theorem retarget_aside : aside whole (retarget s) = aside whole s := rfl

theorem withdrawEqualize_aside : aside whole (withdrawClaim .equalize s) = aside whole s := by
  unfold withdrawClaim
  split <;> rfl

theorem withdrawTest_aside : aside whole (withdrawClaim .test s) = aside whole s := by
  unfold withdrawClaim
  split <;> rfl

theorem withdrawGenerator_aside : aside false (withdrawClaim .generator s) = aside false s := by
  unfold withdrawClaim
  split <;> rfl

theorem endEqualize_aside {o : EqualizeOutcome} : aside whole (endEqualize o s) = aside whole s :=
  logEv_aside.trans (withdrawEqualize_aside (s := s))

theorem cancelEqualize_aside {o : EqualizeOutcome} : aside whole (cancelEqualize o s) = aside whole s := by
  unfold cancelEqualize
  split
  · exact endEqualize_aside
  · rfl

theorem endTest_aside {o : TestOutcome} : aside whole (endTest o s) = aside whole s :=
  logEv_aside.trans (withdrawTest_aside (s := s))

theorem abortTest_aside {o : TestOutcome} : aside whole (abortTest o s) = aside whole s := by
  unfold abortTest
  split
  · exact endTest_aside
  · rfl

/-! ## The generator -/

theorem genEnter_aside {st : GenState} {x : Word} : aside false (genEnter st x s) = aside false s := by
  unfold genEnter
  dsimp only
  split
  · exact withdrawGenerator_aside.trans logEv_aside
  · exact logEv_aside

theorem addAttempt_aside {o : AttemptOutcome} {peak : Nat} : aside false (addAttempt o peak s) = aside false s := logEv_aside

theorem seriesStart_aside : aside false (seriesStart s) = aside false s := by
  unfold seriesStart
  split
  · exact genEnter_aside
  · rfl

theorem abandonSeries_aside {b : Bool} : aside false (abandonSeries b s) = aside false s := by
  unfold abandonSeries
  refine genEnter_aside.trans ?_
  dsimp only
  split
  · exact addAttempt_aside
  · exact addAttempt_aside
  · rfl

theorem addRequest_aside {k : RequestKind} {load : Bool} {e : Nat} : aside false (addRequest k load e s) = aside false s := by
  unfold addRequest
  dsimp only
  split
  · exact genEnter_aside.trans logEv_aside
  · exact seriesStart_aside.trans logEv_aside

theorem dropMainsFail_aside : aside false (dropMainsFail s) = aside false s := rfl

theorem refuseRequest_aside {k : RequestKind} {r : Word} : aside false (refuseRequest k r s) = aside false s := by
  unfold refuseRequest
  dsimp only
  split
  · exact dropMainsFail_aside.trans logEv_aside
  · exact logEv_aside

theorem postRequest_aside {k : RequestKind} {load : Bool} {e : Nat} : aside false (postRequest k load e s) = aside false s := by
  unfold postRequest
  split
  · rfl
  · split
    · exact refuseRequest_aside
    · split
      · exact refuseRequest_aside
      · exact addRequest_aside

theorem removeRequest_aside {k : RequestKind} {r : Word} : aside false (removeRequest k r s) = aside false s := by
  unfold removeRequest
  split
  · refine (ite_aside (abandonSeries false) abandonSeries_aside).trans ?_
    refine (ite_aside dropMainsFail dropMainsFail_aside).trans ?_
    exact logEv_aside
  · rfl

theorem fuelCriticalNotice_aside : aside false (fuelCriticalNotice s) = aside false s :=
  removeRequest_aside.trans (removeRequest_aside.trans removeRequest_aside)

/-! ## Points -/

theorem refreshOutputs_aside : aside whole (refreshOutputs s) = aside whole s := by
  unfold refreshOutputs
  split <;> rfl

theorem movePoint_aside {p : Nat} {st : PointState} {timer : Option Nat} : aside whole (movePoint p st timer s) = aside whole s :=
  refreshOutputs_aside

theorem logPoint_aside {p : Nat} {a b : PointState} : aside whole (logPoint p a b s) = aside whole s := logEv_aside

theorem cancelRaise_aside {p : Nat} : aside whole (cancelRaise p s) = aside whole s := by
  unfold cancelRaise
  split
  · exact logPoint_aside.trans movePoint_aside
  · rfl

theorem cancelChildren_aside {p : Nat} : aside whole (cancelChildren p s) = aside whole s :=
  foldl_aside (fun _ _ _ => cancelRaise_aside) s

/-- A point's report reaches the generator only where it is FUEL_CRITICAL's. -/
theorem reportActive_aside {p : Nat} (hp : whole = true → p ≠ Pt.fuelCritical) : aside whole (reportActive p s) = aside whole s := by
  have hfuel : p = Pt.fuelCritical → ∀ t, aside whole (fuelCriticalNotice t) = aside whole t := by
    intro e t
    cases whole with
    | false => exact fuelCriticalNotice_aside
    | true => exact absurd e (hp rfl)
  unfold reportActive
  refine (ite_aside (abortTest .abortedAlarm) abortTest_aside).trans ?_
  dsimp only
  split
  · next e => exact (hfuel e _).trans (ite_aside (cancelEqualize .cancelledTemp) cancelEqualize_aside)
  · exact ite_aside (cancelEqualize .cancelledTemp) cancelEqualize_aside

theorem fireRaise_aside {p : Nat} {old : PointState} (hp : whole = true → p ≠ Pt.fuelCritical) :
    aside whole (fireRaise p old s) = aside whole s :=
  (reportActive_aside hp).trans (cancelChildren_aside.trans (logPoint_aside.trans movePoint_aside))

theorem becomeTrue_aside {p : Nat} (hp : whole = true → p ≠ Pt.fuelCritical) : aside whole (becomeTrue p s) = aside whole s := by
  unfold becomeTrue
  dsimp only
  split
  · rfl
  · split
    · split
      · rfl
      · split
        · exact fireRaise_aside hp
        · exact movePoint_aside
    · split
      · rfl
      · split
        · exact fireRaise_aside hp
        · exact movePoint_aside
    · split
      · exact movePoint_aside
      · exact logPoint_aside.trans movePoint_aside
    · rfl
    · rfl
    · rfl

/-- FUEL_CRITICAL has no parent. -/
theorem ne_fuelCritical_of_child {p c : Nat} (h : c ∈ children p) : c ≠ Pt.fuelCritical := by
  rintro rfl
  revert h
  unfold children
  repeat' split
  all_goals decide

theorem judgeChildren_aside {p : Nat} : aside whole (judgeChildren p s) = aside whole s := by
  refine foldl_aside (fun c hc t => ?_) s
  split
  · exact becomeTrue_aside fun _ => ne_fuelCritical_of_child hc
  · rfl

theorem fireClear_aside {p : Nat} {old : PointState} {acked : Bool} : aside whole (fireClear p old acked s) = aside whole s :=
  judgeChildren_aside.trans (logPoint_aside.trans movePoint_aside)

theorem becomeFalse_aside {p : Nat} : aside whole (becomeFalse p s) = aside whole s := by
  have hclear : ∀ (old : PointState) (a : Bool), aside whole (if pointWord s.settings p 3 = 0 then fireClear p old a s
      else s |> setPoint p (fun r => { r with acked := a }) |> movePoint p .clearing (some (pointWord s.settings p 3))) = aside whole s := by
    intro old a
    split
    · exact fireClear_aside
    · exact movePoint_aside
  unfold becomeFalse
  dsimp only
  split
  · exact cancelRaise_aside
  · exact hclear _ _
  · exact hclear _ _
  · rfl
  · rfl
  · rfl

/-- Writing a list's entry over itself. -/
theorem set_eq_self_of_getD {α : Type} {l : List α} {i : Nat} {d a : α} (h : l.getD i d = a) : l.set i a = l := by
  apply List.ext_getElem?
  intro j
  by_cases hij : i = j
  · subst hij
    by_cases hi : i < l.length
    · simp_all [List.getD]
    · simp [hi]
  · rw [List.getElem?_set_ne hij]

/-- The state whose copy of a condition has taken a value, before the point follows. -/
def withCopy (p : Nat) (b : Bool) (s : State) : State := { s with alm := { s.alm with copies := s.alm.copies.set p b } }

/-- The state whose owner has set or withdrawn a condition, with its copy, before the point follows. -/
def withCond (p : Nat) (b : Bool) (s : State) : State := withCopy p b { s with conds := s.conds.set p b }

theorem setCopy_aside {p : Nat} {b : Bool} (hp : whole = true → b = true → p ≠ Pt.fuelCritical) :
    aside whole (setCopy p b s) = aside whole (withCopy p b s) := by
  unfold setCopy
  split
  · next h =>
    have hsame : s.alm.copies.set p b = s.alm.copies := set_eq_self_of_getD h
    rw [withCopy, hsame]
  · dsimp only
    split
    · split
      · next hb => exact becomeTrue_aside fun hw => hp hw hb
      · exact becomeFalse_aside
    · rfl

/-- An owner's setting or withdrawing of a condition changes that condition and what follows from its point. -/
theorem setCond_aside {p : Nat} {b : Bool} (hp : whole = true → b = true → p ≠ Pt.fuelCritical) :
    aside whole (setCond p b s) = aside whole (withCond p b s) := setCopy_aside hp

theorem ackPoint_aside {p : Nat} : aside whole (ackPoint p s) = aside whole s := by
  unfold ackPoint
  split
  · exact movePoint_aside
  · exact logPoint_aside.trans movePoint_aside
  · rfl
  · rfl
  · rfl
  · rfl

/-! ## Conditions -/

theorem conds_setCond {p : Nat} {b : Bool} : (setCond p b s).conds = s.conds.set p b := aside_conds (setCond_aside (whole := false) nofun)

theorem copies_setCond {p : Nat} {b : Bool} : (setCond p b s).alm.copies = s.alm.copies.set p b :=
  aside_copies (setCond_aside (whole := false) nofun)

/-- The condition just set or withdrawn, of the thirty-two. -/
theorem condOf_setCond {p : Nat} {b : Bool} (h : p < s.conds.length) : condOf (setCond p b s) p = b := by
  simp [condOf, conds_setCond, List.getD, h]

/-- Another condition. -/
theorem condOf_setCond_ne {p q : Nat} {b : Bool} (h : p ≠ q) : condOf (setCond p b s) q = condOf s q := by
  simp [condOf, conds_setCond, List.getD, List.getElem?_set_ne h]

/-- The Alarm Unit's copy of it. -/
theorem copyOf_setCond {p : Nat} {b : Bool} (h : p < s.alm.copies.length) : copyOf (setCond p b s) p = b := by
  simp [copyOf, copies_setCond, List.getD, h]

/-- A condition judged stands as judged. -/
theorem condOf_judgeCond {p : Nat} {b : Bool} (h : p < s.conds.length) : condOf (judgeCond p b s) p = b := by
  unfold judgeCond
  split
  · exact condOf_setCond h
  · next hn =>
    simp only [Bool.or_eq_true, not_or, Bool.not_eq_true, bne_eq_false_iff_eq] at hn
    exact hn.2

theorem condOf_judgeCond_ne {p q : Nat} {b : Bool} (h : p ≠ q) : condOf (judgeCond p b s) q = condOf s q := by
  unfold judgeCond
  split
  · exact condOf_setCond_ne h
  · rfl

theorem conds_length (h : Shape s) : s.conds.length = 32 := by simp_all [Shape, shape]
theorem copies_length (h : Shape s) : s.alm.copies.length = 32 := by simp_all [Shape, shape]

/-! ## A condition set outside FUEL_CRITICAL -/

section SetCond

variable {p : Nat} {b : Bool}

theorem setCond_rest : aside false (setCond p b s) = aside false (withCond p b s) := setCond_aside nofun

theorem setCond_gen (hp : p ≠ Pt.fuelCritical) : (setCond p b s).gen = s.gen := aside_gen (s := withCond p b s) (setCond_aside fun _ _ => hp)
theorem setCond_src (hp : p ≠ Pt.fuelCritical) : (setCond p b s).src = s.src := aside_src (s := withCond p b s) (setCond_aside fun _ _ => hp)
theorem setCond_str : (setCond p b s).str = s.str := aside_str (s := withCond p b s) setCond_rest
theorem setCond_ros : (setCond p b s).ros = s.ros := aside_ros (s := withCond p b s) setCond_rest
theorem setCond_pm : (setCond p b s).pm = s.pm := aside_pm (s := withCond p b s) setCond_rest
theorem setCond_inp : (setCond p b s).inp = s.inp := aside_inp (s := withCond p b s) setCond_rest
theorem setCond_scan : (setCond p b s).scan = s.scan := aside_scan (s := withCond p b s) setCond_rest
theorem setCond_settings : (setCond p b s).settings = s.settings := aside_settings (s := withCond p b s) setCond_rest
theorem setCond_clk : (setCond p b s).clk = s.clk := aside_clk (s := withCond p b s) setCond_rest
theorem setCond_st : (setCond p b s).st = s.st := aside_st (s := withCond p b s) setCond_rest
theorem setCond_sil : (setCond p b s).sil = s.sil := aside_sil (s := withCond p b s) setCond_rest
theorem setCond_cmd : (setCond p b s).cmd = s.cmd := aside_cmd (s := withCond p b s) setCond_rest
theorem setCond_path : (setCond p b s).path = s.path := aside_path (s := withCond p b s) setCond_rest
theorem setCond_xfer : (setCond p b s).src.xfer = s.src.xfer := aside_xfer (s := withCond p b s) setCond_rest

end SetCond

end Sys2Proof.Machine
end

section
/-! PROOFS. The mains record (R79 to R82): what a change of the mains state makes of it, and the rows of PM2 and PM3 (O22, O23). -/

namespace Sys2Proof.Machine

variable {s t u : State}

/-! ## A change of the mains state -/

/-- The mains record in a new state, before its caller writes the rest. -/
def Mains.moved (m : Mains) (st : MainsState) (time : Nat) : Mains := { m with state := st, entered := time, dipTimer := none }

/-- The notices of a change of the mains state reach the Bus Regulator and the roster (R82). -/
theorem changeMains_shelf {st : MainsState} :
    ∃ u, aside true u = aside true (setMains (fun m => m.moved st (now s)) s) ∧ Shelf u (changeMains st s) := by
  refine ⟨_, ?_, handCapacity_shelf (Shelf.refl _)⟩
  refine (ite_aside (abortTest .abortedMains) abortTest_aside).trans ?_
  exact ite_aside (cancelEqualize .cancelledMains) cancelEqualize_aside

theorem changeMains_src {st : MainsState} : (changeMains st s).src = { s.src with mains := s.src.mains.moved st (now s) } := by
  obtain ⟨u, hu, hs⟩ := changeMains_shelf (s := s) (st := st)
  rw [hs.src_eq, aside_src hu]
  rfl

theorem changeMains_conds {st : MainsState} : (changeMains st s).conds = s.conds := by
  obtain ⟨u, hu, hs⟩ := changeMains_shelf (s := s) (st := st)
  rw [hs.conds_eq, aside_conds hu]
  rfl

theorem changeMains_gen {st : MainsState} : (changeMains st s).gen = s.gen := by
  obtain ⟨u, hu, hs⟩ := changeMains_shelf (s := s) (st := st)
  rw [hs.gen_eq, aside_gen hu]
  rfl

theorem logEv_src {k : LogKind} {x a b : Word} : (logEv k x a b s).src = s.src := aside_src logEv_aside
theorem logEv_conds {k : LogKind} {x a b : Word} : (logEv k x a b s).conds = s.conds := aside_conds (whole := true) logEv_aside

/-- The conditions of the mains are not FUEL_CRITICAL. -/
theorem setMainsAbsent_src {b : Bool} : (setCond Pt.mainsAbsent b s).src = s.src := setCond_src (by decide)
theorem setMainsQuality_src {b : Bool} : (setCond Pt.mainsQuality b s).src = s.src := setCond_src (by decide)

/-! ## The beginnings and ends of an outage -/

/-- The mains record at the beginning of an outage (R80, R81). -/
theorem startOutage_src {b : Bool} : (startOutage b s).src = { s.src with mains := { s.src.mains.moved .absent (now s) with
    outageStart := now s, qualifyFailures := 0, outages := satInc s.src.mains.outages, retransferSpan := 0 } } := by
  unfold startOutage
  dsimp only
  split
  · rw [setMainsQuality_src, setMainsAbsent_src, logEv_src]
    simp [changeMains_src, Mains.moved, setMains]
  · rw [setMainsAbsent_src, logEv_src]
    simp [changeMains_src, Mains.moved, setMains]

/-- The conditions at the beginning of an outage. -/
theorem startOutage_conds {b : Bool} : (startOutage b s).conds =
    if b then (s.conds.set Pt.mainsAbsent true).set Pt.mainsQuality true else s.conds.set Pt.mainsAbsent true := by
  unfold startOutage
  dsimp only
  split
  · rw [conds_setCond, conds_setCond, logEv_conds]
    simp [changeMains_conds, setMains]
  · rw [conds_setCond, logEv_conds]
    simp [changeMains_conds, setMains]

/-- The mains record at the failure of a qualify span (R79). -/
theorem qualifyFails_src : (qualifyFails s).src = { s.src with mains := { s.src.mains.moved .absent (now s) with
    qualifyFailures := satInc s.src.mains.qualifyFailures } } := by
  unfold qualifyFails
  dsimp only
  rw [setMainsAbsent_src]
  simp [changeMains_src, Mains.moved, setMains]

/-- The mains record as it becomes PRESENT from QUALIFYING (R79). -/
theorem mainsQualifies_src : (mainsQualifies s).src = { s.src with mains := { s.src.mains.moved .present (now s) with
    retransferSpan := 0, qualitySpan := 0, qualifyFailures := 0 } } := by
  unfold mainsQualifies
  dsimp only
  rw [setMainsQuality_src, setMainsAbsent_src, logEv_src]
  simp [changeMains_src, Mains.moved, setMains]

/-- The mains record at the end of a dip (R80). -/
theorem dipReturns_src {width : Nat} : (dipReturns width s).src = { s.src with mains := { s.src.mains.moved .present (now s) with
    lastDipWidth := width, dips := satInc s.src.mains.dips, qualitySpan := 0 } } := by
  unfold dipReturns
  dsimp only
  rw [logEv_src]
  simp [changeMains_src, Mains.moved, setMains]

/-- The mains record at a loss of the sense in PRESENT (R80). -/
theorem senseLoss_present (h : s.src.mains.state = .present) : (senseLoss s).src = { s.src with
    mains := { s.src.mains.moved .dip (now s) with sense := false, dipTimer := some (dipTolerance s.settings), retransferSpan := 0 } } := by
  unfold senseLoss
  simp [h, changeMains_src, Mains.moved, setMains, now]

/-- The mains record at a loss of the sense in QUALIFYING (R79). -/
theorem senseLoss_qualifying (h : s.src.mains.state = .qualifying) : (senseLoss s).src = { s.src with
    mains := { s.src.mains.moved .absent (now s) with sense := false, qualifyFailures := satInc s.src.mains.qualifyFailures } } := by
  unfold senseLoss
  simp [h, qualifyFails_src, Mains.moved, setMains, now]

/-- In any other state a loss of the sense is noted alone. -/
theorem senseLoss_sense : (senseLoss s).src.mains.sense = false := by
  by_cases hp : s.src.mains.state = .present
  · rw [senseLoss_present hp]
  · by_cases hq : s.src.mains.state = .qualifying
    · rw [senseLoss_qualifying hq]
    · simp [senseLoss, hp, hq, setMains]

end Sys2Proof.Machine
end

section
/-! PROOFS. The rows of PM2 and PM3 (O22, O23): a frequency result by the mains state, and the loss, the return and the LONG result of the sense. -/

namespace Sys2Proof.Machine

variable {s t u : State} {f p q : Nat} {b : Bool}

/-! ## A frequency result of PM2 by the mains state (R79 to R81) -/

/-- A result recorded as the last frequency. -/
def withFreq (f : Nat) (s : State) : State := setMains (fun m => { m with lastFreq := f }) s

theorem inFreqWindow_setMains {g : Mains → Mains} : inFreqWindow (setMains g s) f = inFreqWindow s f := rfl

theorem sourceFrequency_dip (h : s.src.mains.state = .dip) : sourceFrequency f s = withFreq f s := by
  simp [sourceFrequency, withFreq, setMains, h]

theorem sourceFrequency_lost (h : s.src.mains.state = .absent) (hs : s.src.mains.sense = false) : sourceFrequency f s = withFreq f s := by
  simp [sourceFrequency, withFreq, setMains, h, hs]

/-- ABSENT with its sense and a result in the window: QUALIFYING with a span of 0. -/
theorem sourceFrequency_begins (h : s.src.mains.state = .absent) (hs : s.src.mains.sense = true) (hw : inFreqWindow s f = true) :
    sourceFrequency f s = setMains (fun m => { m with qualifySpan := 0 }) (changeMains .qualifying (withFreq f s)) := by
  simp [sourceFrequency, withFreq, inFreqWindow_setMains, h, hs, hw]

/-- ABSENT with its sense and a result outside: MAINS_QUALITY alone. -/
theorem sourceFrequency_outside (h : s.src.mains.state = .absent) (hs : s.src.mains.sense = true) (hw : inFreqWindow s f = false) :
    sourceFrequency f s = setCond Pt.mainsQuality true (withFreq f s) := by
  simp [sourceFrequency, withFreq, inFreqWindow_setMains, h, hs, hw]

/-- A result that adds to a qualify span. -/
theorem sourceFrequency_counts (h : s.src.mains.state = .qualifying) (hw : inFreqWindow s f = true)
    (hq : s.src.mains.qualifySpan + 1 < qualifyTime s.settings) :
    sourceFrequency f s = setMains (fun m => { m with qualifySpan := m.qualifySpan + 1 }) (withFreq f s) := by
  simp [sourceFrequency, withFreq, inFreqWindow_setMains, h, hw, Nat.not_le.mpr hq]

/-- The result that completes the qualify span. -/
theorem sourceFrequency_qualifies (h : s.src.mains.state = .qualifying) (hw : inFreqWindow s f = true)
    (hq : qualifyTime s.settings ≤ s.src.mains.qualifySpan + 1) :
    sourceFrequency f s = mainsQualifies (setMains (fun m => { m with qualifySpan := m.qualifySpan + 1 }) (withFreq f s)) := by
  simp [sourceFrequency, withFreq, inFreqWindow_setMains, h, hw, hq]

/-- A result outside ends a qualify span. -/
theorem sourceFrequency_fails (h : s.src.mains.state = .qualifying) (hw : inFreqWindow s f = false) :
    sourceFrequency f s = setCond Pt.mainsQuality true (qualifyFails (withFreq f s)) := by
  simp [sourceFrequency, withFreq, inFreqWindow_setMains, h, hw]

/-- A result in the window in PRESENT. -/
theorem sourceFrequency_stays (h : s.src.mains.state = .present) (hw : inFreqWindow s f = true) :
    sourceFrequency f s = setMains (fun m => { m with qualitySpan := 0 }) (withFreq f s) := by
  simp [sourceFrequency, withFreq, inFreqWindow_setMains, h, hw]

/-- A result outside in PRESENT that adds to the quality span. -/
theorem sourceFrequency_worsens (h : s.src.mains.state = .present) (hw : inFreqWindow s f = false)
    (hq : s.src.mains.qualitySpan + 1 < qualityTime s.settings) :
    sourceFrequency f s = setMains (fun m => { m with qualitySpan := m.qualitySpan + 1 }) (withFreq f s) := by
  simp [sourceFrequency, withFreq, inFreqWindow_setMains, h, hw, Nat.not_le.mpr hq]

/-- The result that completes the quality span begins an outage. -/
theorem sourceFrequency_outage (h : s.src.mains.state = .present) (hw : inFreqWindow s f = false)
    (hq : qualityTime s.settings ≤ s.src.mains.qualitySpan + 1) :
    sourceFrequency f s = startOutage true (setMains (fun m => { m with qualitySpan := m.qualitySpan + 1 }) (withFreq f s)) := by
  simp [sourceFrequency, withFreq, inFreqWindow_setMains, h, hw, hq]

/-- Every result is recorded as the last frequency. -/
theorem sourceFrequency_lastFreq : (sourceFrequency f s).src.mains.lastFreq = f := by
  unfold sourceFrequency
  dsimp only
  split
  · split
    · split
      · simp [setMains, changeMains_src, Mains.moved]
      · simp [setMainsQuality_src, setMains]
    · simp [setMains]
  · split
    · split
      · simp [mainsQualifies_src, setMains, Mains.moved]
      · simp [setMains]
    · simp [setMainsQuality_src, qualifyFails_src, setMains, Mains.moved]
  · split
    · simp [setMains]
    · split
      · simp [startOutage_src, setMains, Mains.moved]
      · simp [setMains]
  · simp [setMains]
  · simp [setMains]

/-- A condition set of thirty-two. -/
theorem condOf_set {l : List Bool} (hs : s.conds = l.set p b) (hp : p < l.length) : condOf s p = b := by
  simp [condOf, hs, List.getD, hp]

theorem condOf_set_ne {l : List Bool} (hs : s.conds = l.set p b) (hp : p ≠ q) : condOf s q = l.getD q false := by
  simp [condOf, hs, List.getD, List.getElem?_set_ne hp]

theorem qualifyFails_conds : (qualifyFails s).conds = s.conds.set Pt.mainsAbsent true := by
  unfold qualifyFails
  rw [conds_setCond]
  simp [changeMains_conds]

/-! ## The row of PM2 -/

/-- The state in which PM2's result is judged: PM2 has noted it. -/
def pm2Noted (f : Nat) (s : State) : State := { s with pm := { s.pm with pm2Last := some f } }

theorem pm2Result_inRun (hr : inRun s = true) : pm2Result f s = sourceFrequency f (pm2Noted f s) := by
  unfold pm2Result
  exact if_pos hr

theorem pm2Result_kept (hk : trainKept s = true) : pm2Result f s = withFreq f (pm2Noted f s) := by
  have hr : inRun s = false := by
    simp only [trainKept, starting, Bool.and_eq_true, Bool.not_eq_true'] at hk
    exact hk.1.1
  have hr' : inRun (pm2Noted f s) = false := hr
  have hk' : trainKept (pm2Noted f s) = true := hk
  unfold pm2Result
  show (if inRun (pm2Noted f s) = true then _ else if trainKept (pm2Noted f s) = true then _ else _) = _
  rw [if_neg (by simp [hr']), if_pos hk']
  rfl

theorem pm2Result_idle (h : trainRuns s = false) : pm2Result f s = pm2Noted f s := by
  have hr : inRun (pm2Noted f s) = false := by
    simp only [trainRuns, Bool.or_eq_false_iff] at h
    exact h.1
  have hk : trainKept (pm2Noted f s) = false := by
    simp only [trainRuns, Bool.or_eq_false_iff] at h
    exact h.2
  unfold pm2Result
  show (if inRun (pm2Noted f s) = true then _ else if trainKept (pm2Noted f s) = true then _ else _) = _
  rw [if_neg (by simp [hr]), if_neg (by simp [hk])]
  rfl

/-- Settles O22: outside RUN the result is noted, and in RUN each mains state takes it by its own case. -/
theorem Settled.pm2Result : Obligations.Pm2Result := by
  refine ⟨fun e u s => ⟨fun hk => congrArg Host.Outcome.next (pm2Result_kept hk), fun hi => congrArg Host.Outcome.next (pm2Result_idle hi)⟩, ?_⟩
  intro e u s hr f
  refine ⟨sourceFrequency f (pm2Noted f s), congrArg Host.Outcome.next (pm2Result_inRun hr), sourceFrequency_lastFreq,
    (sourceFrequency_quiet (Quiet.refl _)).pm_eq, ?counts, ?qualifies, ?fails, ?stays, ?worsens, ?outage, ?begins, ?outside, ?recorded⟩
  case counts => exact fun h hw hq => sourceFrequency_counts (s := pm2Noted f s) h hw hq
  case qualifies =>
    intro h hw hq
    simp [sourceFrequency_qualifies (s := pm2Noted f s) h hw hq, mainsQualifies_src, Mains.moved]
  case fails =>
    intro h hw
    rw [sourceFrequency_fails (s := pm2Noted f s) h hw]
    refine ⟨?_, ?_, ?_, fun hsh => condOf_setCond ?_⟩
    · simp [setMainsQuality_src, qualifyFails_src, Mains.moved]
    · simp [setMainsQuality_src, qualifyFails_src, Mains.moved, withFreq, pm2Noted, setMains]
    · simp [setMainsQuality_src, qualifyFails_src, Mains.moved, withFreq, pm2Noted, setMains]
    · simp [qualifyFails_conds, withFreq, pm2Noted, conds_length hsh, Pt.mainsQuality]
  case stays => exact fun h hw => sourceFrequency_stays (s := pm2Noted f s) h hw
  case worsens => exact fun h hw hq => sourceFrequency_worsens (s := pm2Noted f s) h hw hq
  case outage =>
    intro h hw hq
    rw [sourceFrequency_outage (s := pm2Noted f s) h hw hq]
    have hc := startOutage_conds (s := setMains (fun m => { m with qualitySpan := m.qualitySpan + 1 }) (withFreq f (pm2Noted f s))) (b := true)
    refine ⟨?_, ?_, ?_, ?_, ?_, fun hsh => ⟨?_, ?_⟩⟩
    · simp [startOutage_src, Mains.moved]
    · simp [startOutage_src, Mains.moved, withFreq, pm2Noted, setMains, now]
    · simp [startOutage_src, Mains.moved, withFreq, pm2Noted, setMains]
    · simp [startOutage_src, Mains.moved]
    · simp [startOutage_src, Mains.moved]
    · rw [condOf_set_ne hc (by decide)]
      simp [withFreq, pm2Noted, List.getD, conds_length hsh, Pt.mainsAbsent]
    · exact condOf_set hc (by simp [withFreq, pm2Noted, conds_length hsh, Pt.mainsQuality])
  case begins =>
    intro h hs hw
    simp [sourceFrequency_begins (s := pm2Noted f s) h hs hw, changeMains_src, Mains.moved, setMains]
  case outside =>
    intro h hs hw
    rw [sourceFrequency_outside (s := pm2Noted f s) h hs hw]
    refine ⟨?_, fun hsh => condOf_setCond ?_⟩
    · rw [setMainsQuality_src]
      rfl
    · simp [withFreq, pm2Noted, conds_length hsh, Pt.mainsQuality]
  case recorded =>
    rintro (h | ⟨h, hs⟩)
    · exact sourceFrequency_dip (s := pm2Noted f s) h
    · exact sourceFrequency_lost (s := pm2Noted f s) h hs

/-! ## The rows of PM3 -/

/-- PM3's record at the falling edge. -/
def senseFell (s : State) : State := { s with pm := { s.pm with sense := false, long := false, width := 0 } }

theorem pm3Loss_inRun (hr : inRun s = true) (hs : s.pm.sense = true) : pm3Loss s = senseLoss (senseFell s) := by
  unfold pm3Loss
  rw [if_pos hs]
  exact if_pos hr

/-- A return within the tolerance. -/
theorem senseReturn_dip {ms width tol : Nat} {sec : Bool} (h : s.src.mains.state = .dip) (ht : s.src.mains.dipTimer = some tol)
    (hle : ms ≤ tol) : senseReturn ms width sec s =
      setMains (fun m => { m with sense := true, absenceWidth := width, absenceSeconds := sec }) (dipReturns ms s) := by
  simp [senseReturn, h, ht, Nat.not_lt.mpr hle]

/-- A return after the tolerance. -/
theorem senseReturn_outlasted {ms width tol : Nat} {sec : Bool} (h : s.src.mains.state = .dip) (ht : s.src.mains.dipTimer = some tol)
    (hlt : tol < ms) : senseReturn ms width sec s =
      setMains (fun m => { m with sense := true, absenceWidth := width, absenceSeconds := sec }) (startOutage false s) := by
  simp [senseReturn, h, ht, hlt, dipExpiry]

/-- A return outside a dip. -/
theorem senseReturn_other {ms width : Nat} {sec : Bool} (h : s.src.mains.state ≠ .dip) : senseReturn ms width sec s =
    setMains (fun m => { m with sense := true, absenceWidth := width, absenceSeconds := sec }) s := by
  simp [senseReturn, h]

/-- What a return always writes. -/
theorem senseReturn_marks {ms width : Nat} {sec : Bool} : (senseReturn ms width sec s).src.mains.sense = true ∧
    (senseReturn ms width sec s).src.mains.absenceWidth = width ∧ (senseReturn ms width sec s).src.mains.absenceSeconds = sec :=
  ⟨rfl, rfl, rfl⟩

/-- PM3's record at the rising edge. -/
def senseRose (width : Nat) (s : State) : State := { s with pm := { s.pm with sense := true, long := false, width := width } }

/-- The return of an absence that was not LONG. -/
theorem pm3Return_short {ms : Nat} (hr : inRun s = true) (hs : s.pm.sense = false) (hl : s.pm.long = false) (hms : ms < 65535) :
    pm3Return ms s = senseReturn ms ms false (senseRose ms s) := by
  have hr' : inRun (senseRose ms s) = true := hr
  simp only [senseRose] at hr'
  simp [pm3Return, hs, hl, Nat.not_le.mpr hms, hr', senseRose]

/-- PM3's record as a LONG absence begins. -/
def senseLonged (s : State) : State := { s with pm := { s.pm with long := true, width := 65 } }

theorem pm3Long_begins (hs : s.pm.sense = false) (hl : s.pm.long = false) :
    pm3Long s = if inRun s then senseLong (senseLonged s) else senseLonged s := by
  have hi : inRun (senseLonged s) = inRun s := rfl
  unfold pm3Long
  rw [if_pos (by simp [hs, hl])]
  rfl

/-- The return of a LONG absence, or of one of 65,535 ms or more: the absence is LONG from here if it was not. -/
theorem pm3Return_long {ms : Nat} (hr : inRun s = true) (hs : s.pm.sense = false) (hl : s.pm.long = true ∨ 65535 ≤ ms) :
    ∃ v, (v = s ∨ v = senseLong (senseLonged s)) ∧ pm3Return ms s =
      senseReturn (max 65535 ms) (min 65535 (max 65 (ms / 1000))) true (senseRose (min 65535 (max 65 (ms / 1000))) v) := by
  have hv : ∀ v : State, v.st = s.st → v.pm.long = true →
      (if v.pm.long then min 65535 (max 65 (ms / 1000)) else ms) = min 65535 (max 65 (ms / 1000)) ∧
        inRun (senseRose (min 65535 (max 65 (ms / 1000))) v) = true := fun v hst hlong => ⟨if_pos hlong, by
    simp only [inRun, senseRose, hst]
    exact hr⟩
  by_cases hlong : s.pm.long = true
  · refine ⟨s, .inl rfl, ?_⟩
    have hsame : (if 65535 ≤ ms then pm3Long s else s) = s := by simp [pm3Long, hlong]
    obtain ⟨-, hrun⟩ := hv s rfl hlong
    simp only [senseRose] at hrun
    simp [pm3Return, hs, hsame, hlong, hrun, senseRose]
  · have hms : 65535 ≤ ms := hl.resolve_left hlong
    have hnew : (if 65535 ≤ ms then pm3Long s else s) = senseLong (senseLonged s) := by
      rw [if_pos hms, pm3Long_begins hs (by simpa using hlong), if_pos hr]
    obtain ⟨-, hrun⟩ := hv (senseLong (senseLonged s)) rfl rfl
    have hlong' : (senseLong (senseLonged s)).pm.long = true := rfl
    refine ⟨_, .inr rfl, ?_⟩
    simp only [senseRose] at hrun
    simp [pm3Return, hs, hnew, hlong', hrun, senseRose]

/-- Settles O23: the loss by the mains state, the return by whether the absence was LONG and by the dip's tolerance, and the LONG result. -/
theorem senseRows : Obligations.SenseRows := by
  refine ⟨fun s hr hs => ?loss, fun ms s hr hs hl hms => ?short, fun ms s hr hs hl => ?long, fun s hs hl => ?begins⟩
  case loss =>
    have hpm : (senseLoss (senseFell s)).pm = { s.pm with sense := false, long := false, width := 0 } :=
      (senseLoss_quiet (Quiet.refl _)).pm_eq
    refine ⟨_, congrArg Host.Outcome.next (pm3Loss_inRun hr hs), by rw [hpm], by rw [hpm], senseLoss_sense, fun hp => ?_, fun hq => ?_⟩
    · rw [senseLoss_present (s := senseFell s) hp]
      exact ⟨rfl, rfl, rfl⟩
    · rw [senseLoss_qualifying (s := senseFell s) hq]
      exact ⟨rfl, rfl⟩
  case short =>
    refine ⟨_, congrArg Host.Outcome.next (pm3Return_short hr hs hl hms), (senseReturn_quiet (Quiet.refl _)).pm_eq, rfl, rfl,
      fun tol ht hd hle => ?_, fun tol ht hd hlt => ?_⟩
    · rw [senseReturn_dip (s := senseRose ms s) hd ht hle, setMains_src, dipReturns_src]
      exact ⟨rfl, rfl, rfl⟩
    · rw [senseReturn_outlasted (s := senseRose ms s) hd ht hlt, setMains_src, startOutage_src]
      exact ⟨rfl, rfl, rfl⟩
  case long =>
    intro width
    obtain ⟨v, hv, hret⟩ := pm3Return_long hr hs hl
    have hpm : (senseRose width v).pm = { s.pm with sense := true, long := false, width := width } := by
      rcases hv with rfl | rfl <;> rfl
    have hstate : (senseRose width v).src.mains.state = s.src.mains.state := by rcases hv with rfl | rfl <;> rfl
    have hmarks : { (senseRose width v).src.mains with sense := true, absenceWidth := width, absenceSeconds := true } =
        { s.src.mains with sense := true, absenceWidth := width, absenceSeconds := true } := by rcases hv with rfl | rfl <;> rfl
    refine ⟨_, congrArg Host.Outcome.next hret, (senseReturn_quiet (Quiet.refl _)).pm_eq.trans hpm, rfl, rfl, rfl, fun hd => ?_,
      fun tol ht hd hlt => ?_⟩
    · rw [senseReturn_other (s := senseRose width v) (hstate ▸ hd)]
      exact hmarks
    · have hout : tol < max 65535 ms := by omega
      have ht' : (senseRose width v).src.mains.dipTimer = some tol := by rcases hv with rfl | rfl <;> exact ht
      rw [senseReturn_outlasted (s := senseRose width v) (hstate.trans hd) ht' hout, setMains_src, startOutage_src]
      refine ⟨rfl, ?_, ?_⟩ <;> rcases hv with rfl | rfl <;> rfl
  case begins =>
    refine ⟨_, congrArg Host.Outcome.next (pm3Long_begins hs hl), ?_, fun hr => ?_, ?_⟩
    · split <;> rfl
    · rw [if_pos hr]
      rfl
    · split <;> rfl

end Sys2Proof.Machine
end

section
/-! PROOFS. The Input Conditioner and the pulse tally (O19, O20). -/

namespace Sys2Proof.Machine

variable {s t u : State} {n : Nat} {high level : Bool}

/-! ## Inputs (R148 to R151) -/

/-- A line already at the level changes nothing. -/
theorem lineChange_same (h : s.inp.lines.getD n false = high) : lineChange n high s = s := by
  unfold lineChange
  exact if_pos h

/-- The input record with a line's new level. -/
def withLine (n : Nat) (high : Bool) (s : State) : State := { s with inp := { s.inp with lines := s.inp.lines.set n high } }

/-- A line that returns to the debounced level. -/
theorem lineChange_returns (h : s.inp.lines.getD n false ≠ high) (hl : dinLevel s n = high) : lineChange n high s =
    { withLine n high s with inp := { (withLine n high s).inp with timers := s.inp.timers.set n none } } := by
  unfold lineChange
  rw [if_neg h]
  exact if_pos hl.symm

/-- A line that leaves the debounced level, with a debounce time. -/
theorem lineChange_waits (h : s.inp.lines.getD n false ≠ high) (hl : dinLevel s n ≠ high) (hd : debounceOf s.settings n ≠ 0) :
    lineChange n high s =
      { withLine n high s with inp := { (withLine n high s).inp with timers := s.inp.timers.set n (some (debounceOf s.settings n)) } } := by
  unfold lineChange
  rw [if_neg h]
  exact (if_neg hl.symm).trans (if_neg hd)

/-- A line that leaves the debounced level, with no debounce time. -/
theorem lineChange_edge (h : s.inp.lines.getD n false ≠ high) (hl : dinLevel s n ≠ high) (hd : debounceOf s.settings n = 0) :
    lineChange n high s = inputEdge n high 0 (withLine n high s) := by
  unfold lineChange
  rw [if_neg h]
  exact (if_neg hl.symm).trans (if_pos hd)

theorem namedEdge_inp {deb : Nat} :
    (namedEdge n level deb s).inp = { s.inp with lastNamed := s.inp.lastNamed.set n (some s.clk.uptime) } := by
  have hlog : (logEv .inputEdge (wordOf n) (wordOfBool level) (wordOf deb)
      { s with inp := { s.inp with lastNamed := s.inp.lastNamed.set n (some s.clk.uptime) } }).inp =
        { s.inp with lastNamed := s.inp.lastNamed.set n (some s.clk.uptime) } := (logEv_quiet (Quiet.refl _)).inp_eq
  unfold namedEdge
  dsimp only
  split
  · split
    · exact hlog
    · rw [setCond_inp, hlog]
  · exact hlog

/-- The lines, the levels and the debounce timers after an edge; its users write none of them (R148). -/
theorem inputEdge_inp {deb : Nat} : (inputEdge n level deb s).inp.lines = s.inp.lines ∧
    (inputEdge n level deb s).inp.levels = s.inp.levels.set n level ∧ (inputEdge n level deb s).inp.timers = s.inp.timers.set n none := by
  unfold inputEdge
  dsimp only
  rw [handLevel_quiet.inp_eq]
  split
  · rw [namedEdge_inp]
    exact ⟨rfl, rfl, rfl⟩
  · exact ⟨rfl, rfl, rfl⟩

/-- The input's debounced level where its place in the list has been written. -/
theorem dinLevel_set (h : s.inp.levels = u.inp.levels.set n level) (hn : n < u.inp.levels.length) : dinLevel s n = level := by
  simp [dinLevel, h, List.getD, hn]

theorem levels_length (h : Shape s) : s.inp.levels.length = 16 := by simp_all [Shape, shape]
theorem timers_length (h : Shape s) : s.inp.timers.length = 16 := by simp_all [Shape, shape]

theorem debounceEnd_running {d : Nat} (h : s.inp.timers.getD n none = some d) :
    debounceEnd n s = inputEdge n (s.inp.lines.getD n false) d s := by
  have hd : (s.inp.timers[n]?).bind id = some d := by
    rw [List.getD] at h
    cases e : s.inp.timers[n]? <;> simp_all
  simp only [debounceEnd, hd]

theorem debounceEnd_idle (h : s.inp.timers.getD n none = none) : debounceEnd n s = s := by
  have hd : (s.inp.timers[n]?).bind id = none := by
    rw [List.getD] at h
    cases e : s.inp.timers[n]? <;> simp_all
  simp only [debounceEnd, hd]

/-- The clearing of an edge alarm leaves the inputs as they are. -/
theorem edgeAlarmCheck_inp : (edgeAlarmCheck n s).inp = s.inp := edgeAlarmCheck_quiet.inp_eq

theorem inputEvaluation_inp : (inputEvaluation s).inp = { s.inp with shown := s.inp.levels } := by
  unfold inputEvaluation
  dsimp only
  rw [edgeAlarmCheck_inp, edgeAlarmCheck_inp, edgeAlarmCheck_inp]

/-- The points of the edge alarms are among the thirty-two. -/
theorem edgePoint_lt {p : Nat} (h : edgePoint n = some p) : p < 32 := by
  unfold edgePoint at h
  repeat' split at h
  all_goals cases h <;> decide

/-- Settles O19: the line's change by its four cases, the expiry by its timer, the evaluation by its record, and the clearing by its condition. -/
theorem inputRows : Obligations.InputRows := by
  refine ⟨fun n high s hsh => ⟨fun h => congrArg Host.Outcome.next (lineChange_same h), fun h => ?line⟩,
    fun n s hsh => ⟨fun d hd => ?expiry, fun hd => congrArg Host.Outcome.next (debounceEnd_idle hd)⟩,
    fun s => ⟨_, rfl, inputEvaluation_inp, ?shown⟩, fun n p s hsh hp => ⟨fun hc hq => ?clears, fun h => ?stays⟩⟩
  case line =>
    refine ⟨_, rfl, ?_, fun hl => ?_, fun hl hd => ?_, fun hl hd => ?_⟩
    · by_cases hl : dinLevel s n.val = high
      · rw [lineChange_returns h hl]
        rfl
      · by_cases hd : debounceOf s.settings n.val = 0
        · rw [lineChange_edge h hl hd, inputEdge_inp.1]
          rfl
        · rw [lineChange_waits h hl hd]
          rfl
    · rw [lineChange_returns h hl]
      exact ⟨rfl, rfl⟩
    · rw [lineChange_waits h hl hd]
      exact ⟨rfl, rfl⟩
    · rw [lineChange_edge h hl hd]
      obtain ⟨-, hlevels, htimers⟩ := inputEdge_inp (s := withLine n.val high s) (n := n.val) (level := high) (deb := 0)
      exact ⟨dinLevel_set (u := s) hlevels (by rw [levels_length hsh]; exact n.isLt), htimers⟩
  case expiry =>
    obtain ⟨-, hlevels, htimers⟩ := inputEdge_inp (s := s) (n := n.val) (level := s.inp.lines.getD n.val false) (deb := d)
    exact ⟨_, congrArg Host.Outcome.next (debounceEnd_running hd), hlevels, htimers⟩
  case shown =>
    have hw : (summaryWords (inputEvaluation s)).getD 1 0 = markMap fun n => (inputEvaluation s).inp.shown.getD n false := rfl
    rw [hw, inputEvaluation_inp]
  case clears =>
    have hcheck : edgeAlarmCheck n.val s = setCond p false s := by simp [edgeAlarmCheck, hp, hc, hq]
    have hlt := edgePoint_lt hp
    refine ⟨_, congrArg Host.Outcome.next hcheck, condOf_setCond ?_, copyOf_setCond ?_, setCond_inp⟩
    · rwa [conds_length hsh]
    · rwa [copies_length hsh]
  case stays =>
    refine congrArg Host.Outcome.next ?_
    rcases h with h | h <;> simp [edgeAlarmCheck, hp, h]

/-! ## The tally (R120, R153) -/

/-- A quantum raises the fuel used by 1, on from 4,294,967,295 to 0. -/
theorem fuelQuantum_used : (fuelQuantum s).gen.fuelUsed = (s.gen.fuelUsed + 1) % 4294967296 := by
  unfold fuelQuantum
  dsimp only
  split
  · rw [logEv_gen]
    rfl
  · rfl

theorem fuelQuantum_st : (fuelQuantum s).st = s.st := (fuelQuantum_quiet (Quiet.refl s)).st_eq

/-- Where the power train runs, each quantum handed on raises the fuel used. -/
theorem takeQuanta_used : ∀ (k : Nat) {s : State}, trainRuns s = true →
    (takeQuanta k s).gen.fuelUsed % 4294967296 = (s.gen.fuelUsed + k) % 4294967296
  | 0, s, _ => rfl
  | k + 1, s, h => by
    have hk : trainRuns (fuelQuantum s) = true := by
      simp only [trainRuns, inRun, starting, inCommissioning, fuelQuantum_st] at h ⊢
      exact h
    unfold takeQuanta
    rw [if_pos h, takeQuanta_used k hk, fuelQuantum_used]
    omega

/-- After at least one quantum the count is below the modulus. -/
theorem takeQuanta_used_pos {k : Nat} (hk : 0 < k) (h : trainRuns s = true) :
    (takeQuanta k s).gen.fuelUsed = (s.gen.fuelUsed + k) % 4294967296 := by
  have hlt : ∀ (k : Nat) {s : State}, trainRuns s = true → s.gen.fuelUsed < 4294967296 →
      (takeQuanta k s).gen.fuelUsed < 4294967296 := by
    intro k
    induction k with
    | zero => exact fun _ h => h
    | succ k ih =>
      intro s hr hs
      unfold takeQuanta
      rw [if_pos hr]
      refine ih ?_ ?_
      · simp only [trainRuns, inRun, starting, inCommissioning, fuelQuantum_st] at hr ⊢
        exact hr
      · rw [fuelQuantum_used]
        omega
  obtain ⟨k, rfl⟩ := Nat.exists_eq_succ_of_ne_zero (Nat.pos_iff_ne_zero.1 hk)
  have hq : trainRuns (fuelQuantum s) = true := by
    simp only [trainRuns, inRun, starting, inCommissioning, fuelQuantum_st] at h ⊢
    exact h
  have hmod := takeQuanta_used (k + 1) h
  have hbound : (takeQuanta (k + 1) s).gen.fuelUsed < 4294967296 := by
    unfold takeQuanta
    rw [if_pos h]
    refine hlt k hq ?_
    rw [fuelQuantum_used]
    omega
  rwa [Nat.mod_eq_of_lt hbound] at hmod

/-- Where the power train does not run, the quanta handed on are lost. -/
theorem takeQuanta_idle : ∀ (k : Nat) {s : State}, trainRuns s = false → takeQuanta k s = s
  | 0, _, _ => rfl
  | k + 1, s, h => by
    unfold takeQuanta
    rw [if_neg (by simp [h])]
    exact takeQuanta_idle k h

/-- An edge short of the quantum. -/
theorem tallyEdge_counts (hc : s.pm.counting = true) (h : s.pm.tally + 1 < tallyQuantumOf s.settings) :
    tallyEdge s = { s with pm := { s.pm with tally := s.pm.tally + 1 } } := by
  simp [tallyEdge, hc, Nat.not_le.mpr h]

/-- The edge that completes the quantum. -/
theorem tallyEdge_completes (hc : s.pm.counting = true) (h : tallyQuantumOf s.settings ≤ s.pm.tally + 1) :
    tallyEdge s = takeQuanta 1 { s with pm := { s.pm with tally := 0 } } := by
  simp [tallyEdge, hc, h]

/-- In RUN the power train runs. -/
theorem trainRuns_of_inRun (h : inRun s = true) : trainRuns s = true := by simp [trainRuns, h]

/-- The settings word of the quantum, as stored. -/
theorem tallyQuantumOf_stored {v : Word} (h : Shape s) : tallyQuantumOf (stored 0x241 v s).settings = v.toNat := by
  have hl : s.settings.length = 640 := by simp_all [Shape, shape]
  simp [tallyQuantumOf, stored, natIn, wordIn, setWord, heartbeat_settings, List.getD, hl]

/-- A tally quantum stored. -/
theorem exec_tallyQuantumStored {v : Word} (h : Stores 0x241 v s) :
    exec (.guardedWrite 0x241 v) s = .next (tallyQuantumStored (stored 0x241 v s)) := by
  obtain ⟨-, hlisten, hguard⟩ := h
  have htaken : ∀ old u, settingTaken 0x241 old u = tallyQuantumStored u := fun old u => by simp [settingTaken, plantStored]
  rw [guardedWrite_stores hlisten (by decide) (by decide) hguard]
  exact congrArg Host.Outcome.next (htaken _ _)

/-- A guarded write passes only in RUN. -/
theorem inRun_of_guard {o : Nat} {v : Word} (h : guardFails o v s = none) : inRun s = true := by
  unfold guardFails at h
  split at h
  · cases h
  · split at h
    · cases h
    · next hr => simpa using hr

theorem stored_inRun {o : BitVec 13} {v : Word} : inRun (stored o v s) = inRun s := by
  simp only [inRun, stored, hostStore, heartbeat_st]

/-- Settles O20: the edge by whether it completes the quantum, and the stored quantum by the number of whole quanta in the count. -/
theorem Settled.tallyEdge : Obligations.TallyEdge := by
  refine ⟨fun s hc => ⟨fun h => ⟨congrArg Host.Outcome.next (tallyEdge_counts hc h), whenDue_false ?early⟩, fun h => ?completes⟩,
    fun v s h => ?stored⟩
  case early => simp [tallyDue, hc, Nat.not_le.mpr h]
  case completes =>
    have hdue : tallyDue s = true := by simp [tallyDue, hc, h]
    have hrow : exec .tallyQuantum s = .next (takeQuanta 1 { s with pm := { s.pm with tally := 0 } }) :=
      (whenDue_true hdue).trans (congrArg Host.Outcome.next (tallyEdge_completes hc h))
    refine ⟨whenDue_true hdue, _, hrow, (takeQuanta_quiet (Quiet.refl _)).pm_eq, fun hr => ?_, fun hi => ?_⟩
    · exact takeQuanta_used_pos (s := { s with pm := { s.pm with tally := 0 } }) Nat.one_pos (trainRuns_of_inRun hr)
    · rw [takeQuanta_idle 1 (s := { s with pm := { s.pm with tally := 0 } }) hi]
  case stored =>
    intro u k
    have hq : tallyQuantumOf u.settings = v.toNat := tallyQuantumOf_stored h.1
    have hrow : tallyQuantumStored u = takeQuanta k { u with pm := { u.pm with tally := u.pm.tally % v.toNat } } := by
      simp only [tallyQuantumStored, hq, k]
    have hrun : inRun u = true := stored_inRun.trans (inRun_of_guard h.2.2)
    refine ⟨_, (exec_tallyQuantumStored h).trans (congrArg Host.Outcome.next hrow), (takeQuanta_quiet (Quiet.refl _)).pm_eq, fun hk => ?_,
      fun hk => takeQuanta_used_pos (s := { u with pm := { u.pm with tally := u.pm.tally % v.toNat } }) hk (trainRuns_of_inRun hrun)⟩
    have hsame : u.pm.tally % v.toNat = u.pm.tally := by
      have hdiv := Nat.div_add_mod u.pm.tally v.toNat
      rwa [show u.pm.tally / v.toNat = 0 from hk, Nat.mul_zero, Nat.zero_add] at hdiv
    rw [hk, hsame]
    rfl

end Sys2Proof.Machine
end

section
/-! PROOFS. The pending log queue only grows at its tail under the operations of the claims, the run requests and the points (R177). -/

namespace Sys2Proof.Machine

variable {s t u : State}

/-- From s to t the pending log queue has only been appended to. -/
def LogGrows (s t : State) : Prop := s.log.queue <+: t.log.queue

theorem LogGrows.refl (s : State) : LogGrows s s := List.prefix_rfl

theorem LogGrows.of_eq (h : t.log.queue = s.log.queue) : LogGrows s t :=
  ⟨[], (List.append_nil _).trans h.symm⟩

theorem LogGrows.trans (h : LogGrows s t) (k : LogGrows t u) : LogGrows s u := List.IsPrefix.trans h k

/-- A change outside the log before it does not matter. -/
theorem LogGrows.after (k : LogGrows t u) (h : t.log = s.log) : LogGrows s u := (LogGrows.of_eq (congrArg Log.queue h)).trans k

/-- An operation made on a condition. -/
theorem ite_grows {c : Prop} [Decidable c] (f : State → State) (hf : LogGrows s (f s)) : LogGrows s (if c then f s else s) := by
  split
  · exact hf
  · exact LogGrows.refl _

theorem foldl_grows {α : Type} {f : State → α → State} (hf : ∀ t a, LogGrows t (f t a)) :
    ∀ (l : List α) (t : State), LogGrows t (l.foldl f t)
  | [], _ => LogGrows.refl _
  | a :: l, t => (hf t a).trans (foldl_grows hf l (f t a))

theorem logAt_grows {time : Nat} {k : LogKind} {x a b : Word} : LogGrows s (logAt time k x a b s) := by
  unfold logAt LogGrows
  split
  · exact List.prefix_append _ _
  · exact List.prefix_rfl

theorem logEv_grows {k : LogKind} {x a b : Word} : LogGrows s (logEv k x a b s) := logAt_grows

/-! ## Claims and run requests -/

theorem withdrawClaim_log {k : Slot} : (withdrawClaim k s).log = s.log := by
  unfold withdrawClaim
  split <;> rfl

theorem cancelEqualize_grows {o : EqualizeOutcome} : LogGrows s (cancelEqualize o s) := by
  have h : LogGrows s (endEqualize o s) :=
    (LogGrows.of_eq (t := closeEqualize o (withdrawClaim .equalize s)) (congrArg Log.queue withdrawClaim_log)).trans logEv_grows
  unfold cancelEqualize
  split
  · exact h
  · exact LogGrows.refl _

theorem abortTest_grows {o : TestOutcome} : LogGrows s (abortTest o s) := by
  have h : LogGrows s (endTest o s) :=
    (LogGrows.of_eq (t := closeTest o (withdrawClaim .test s)) (congrArg Log.queue withdrawClaim_log)).trans logEv_grows
  unfold abortTest
  split
  · exact h
  · exact LogGrows.refl _

theorem genEnter_grows {st : GenState} {x : Word} : LogGrows s (genEnter st x s) := by
  have h : LogGrows s (logEv .genState x (wordOf s.gen.state.code) (wordOf st.code) { s with gen := s.gen.enter st (now s) }) :=
    .after logEv_grows rfl
  unfold genEnter
  dsimp only
  split
  · exact h.trans (LogGrows.of_eq (congrArg Log.queue withdrawClaim_log))
  · exact h

theorem abandonSeries_grows {b : Bool} : LogGrows s (abandonSeries b s) := by
  have hadd : ∀ o peak, LogGrows s (addAttempt o peak s) := fun _ _ => .after logEv_grows rfl
  have hstop : ∀ u, LogGrows s u → LogGrows s (genEnter .stopping 0 { u with gen := { u.gen with destDisabled := b } }) :=
    fun u h => h.trans (.after genEnter_grows rfl)
  unfold abandonSeries
  split
  · exact hstop _ (hadd _ _)
  · exact hstop _ (hadd _ _)
  · exact hstop _ (LogGrows.refl s)

theorem removeRequest_grows {k : RequestKind} {r : Word} : LogGrows s (removeRequest k r s) := by
  unfold removeRequest
  split
  · have h1 : LogGrows s (logEv .runRequest (wordOf k.code) 2 r
        { s with gen := { s.gen with requests := s.gen.requests.put k none } }) := .after logEv_grows rfl
    have h2 : ∀ t, LogGrows t (if (k == .mainsFail && r == Reason.fuel) = true then dropMainsFail t else t) :=
      fun t => ite_grows dropMainsFail (.of_eq rfl)
    have h3 : ∀ t, LogGrows t (if (t.gen.requests.isEmpty && t.gen.state.inSeries) = true then abandonSeries false t else t) :=
      fun t => ite_grows (abandonSeries false) abandonSeries_grows
    exact (h1.trans (h2 _)).trans (h3 _)
  · exact LogGrows.refl _

theorem fuelCriticalNotice_grows : LogGrows s (fuelCriticalNotice s) :=
  (removeRequest_grows.trans removeRequest_grows).trans removeRequest_grows

/-! ## Points -/

theorem refreshOutputs_log : (refreshOutputs s).log = s.log := by
  unfold refreshOutputs
  split <;> rfl

theorem movePoint_log {p : Nat} {st : PointState} {timer : Option Nat} : (movePoint p st timer s).log = s.log := refreshOutputs_log

theorem movePoint_grows {p : Nat} {st : PointState} {timer : Option Nat} : LogGrows s (movePoint p st timer s) :=
  .of_eq (congrArg Log.queue movePoint_log)

/-- A point moved and logged. -/
theorem logPoint_grows {p : Nat} {a b : PointState} : LogGrows s (logPoint p a b s) := logEv_grows

theorem cancelRaise_grows {p : Nat} : LogGrows s (cancelRaise p s) := by
  unfold cancelRaise
  split
  · exact movePoint_grows.trans logPoint_grows
  · exact LogGrows.refl _

theorem cancelChildren_grows {p : Nat} : LogGrows s (cancelChildren p s) := foldl_grows (fun _ _ => cancelRaise_grows) _ _

theorem reportActive_grows {p : Nat} : LogGrows s (reportActive p s) := by
  have h1 : LogGrows s (if p = Pt.battOvertemp then cancelEqualize .cancelledTemp s else s) :=
    ite_grows (cancelEqualize .cancelledTemp) cancelEqualize_grows
  have h2 : ∀ t, LogGrows t (if p = Pt.fuelCritical then fuelCriticalNotice t else t) :=
    fun t => ite_grows fuelCriticalNotice fuelCriticalNotice_grows
  have h3 : ∀ t, LogGrows t (if (pointClass t p == 3) = true then abortTest .abortedAlarm t else t) :=
    fun t => ite_grows (abortTest .abortedAlarm) abortTest_grows
  exact (h1.trans (h2 _)).trans (h3 _)

theorem fireRaise_grows {p : Nat} {old : PointState} : LogGrows s (fireRaise p old s) := by
  refine LogGrows.trans ?_ reportActive_grows
  refine LogGrows.trans ?_ cancelChildren_grows
  refine LogGrows.trans ?_ logPoint_grows
  exact LogGrows.of_eq (congrArg Log.queue movePoint_log)

theorem becomeTrue_grows {p : Nat} : LogGrows s (becomeTrue p s) := by
  unfold becomeTrue
  dsimp only
  split
  · exact LogGrows.refl _
  · split
    · split
      · exact LogGrows.refl _
      · split
        · exact fireRaise_grows
        · exact movePoint_grows
    · split
      · exact LogGrows.refl _
      · split
        · exact fireRaise_grows
        · exact movePoint_grows
    · split
      · exact movePoint_grows
      · exact movePoint_grows.trans logPoint_grows
    · exact LogGrows.refl _
    · exact LogGrows.refl _
    · exact LogGrows.refl _

theorem judgeChildren_grows {p : Nat} : LogGrows s (judgeChildren p s) :=
  foldl_grows (fun _ c => ite_grows (becomeTrue c) becomeTrue_grows) _ _

theorem fireClear_grows {p : Nat} {old : PointState} {acked : Bool} : LogGrows s (fireClear p old acked s) :=
  (movePoint_grows.trans logPoint_grows).trans judgeChildren_grows

theorem becomeFalse_grows {p : Nat} : LogGrows s (becomeFalse p s) := by
  have hclear : ∀ (old : PointState) (a : Bool), LogGrows s (if pointWord s.settings p 3 = 0 then fireClear p old a s
      else s |> setPoint p (fun r => { r with acked := a }) |> movePoint p .clearing (some (pointWord s.settings p 3))) := by
    intro old a
    split
    · exact fireClear_grows
    · exact LogGrows.of_eq (congrArg Log.queue movePoint_log)
  unfold becomeFalse
  dsimp only
  split
  · exact cancelRaise_grows
  · exact hclear _ _
  · exact hclear _ _
  · exact LogGrows.refl _
  · exact LogGrows.refl _
  · exact LogGrows.refl _

theorem setCopy_grows {p : Nat} {b : Bool} : LogGrows s (setCopy p b s) := by
  unfold setCopy
  split
  · exact LogGrows.refl _
  · dsimp only
    split
    · split
      · exact becomeTrue_grows (s := withCopy p b s)
      · exact becomeFalse_grows (s := withCopy p b s)
    · exact LogGrows.refl _

theorem setCond_grows {p : Nat} {b : Bool} : LogGrows s (setCond p b s) := setCopy_grows (s := { s with conds := s.conds.set p b })

theorem judgeCond_grows {p : Nat} {b : Bool} : LogGrows s (judgeCond p b s) := ite_grows (setCond p b) setCond_grows

theorem refreshModuleConds_grows : LogGrows s (refreshModuleConds s) := judgeCond_grows.trans judgeCond_grows

end Sys2Proof.Machine
end

section
/-! PROOFS. A scan (O17): the channels in rising number, each with its step, its mark as the last failed and its log entry. -/

namespace Sys2Proof.Machine

variable {s t u : State} {raw : List Nat}

/-! ## One channel (R144 to R146) -/

/-- The state but for the scanner and the log. -/
def unscanned (s : State) : State := { s with scan := .reset, log := ⟨[], false, 0, 0, false⟩ }

section OneChannel

variable {c d code : Nat}

/-- Channel c after it takes its raw code. -/
def stepped (s : State) (c code : Nat) : Channel := (chan s c).step (channelUsed s c) (sampleOf s.settings c code)

/-- The scanner with a channel replaced. -/
def withChan (c : Nat) (x : Channel) (s : State) : State := { s with scan := { s.scan with chans := s.scan.chans.set c x } }

/-- A channel that neither fails nor recovers. -/
theorem scanChannel_steady (h : (stepped s c code).failed = (chan s c).failed) :
    scanChannel c code s = withChan c (stepped s c code) s := if_pos h

/-- A channel that fails or recovers. -/
theorem scanChannel_changed (h : (stepped s c code).failed ≠ (chan s c).failed) : scanChannel c code s =
    logEv .channelState (wordOf c) (wordOfBool (stepped s c code).failed) (wordOf code)
      { withChan c (stepped s c code) s with scan := { (withChan c (stepped s c code) s).scan with
        lastFailed := if (stepped s c code).failed then some c else s.scan.lastFailed } } := if_neg h

theorem logEv_scan {k : LogKind} {x a b : Word} : (logEv k x a b s).scan = s.scan := aside_scan (whole := true) logEv_aside

theorem logEv_unscanned {k : LogKind} {x a b : Word} : unscanned (logEv k x a b s) = unscanned s := by
  unfold logEv logAt
  split <;> rfl

theorem scanChannel_chans : (scanChannel c code s).scan.chans = s.scan.chans.set c (stepped s c code) := by
  by_cases h : (stepped s c code).failed = (chan s c).failed
  · rw [scanChannel_steady h]
    rfl
  · rw [scanChannel_changed h, logEv_scan]
    rfl

/-- The channel that takes its raw code. -/
theorem chan_scanChannel (h : c < s.scan.chans.length) : chan (scanChannel c code s) c = stepped s c code := by
  simp [chan, scanChannel_chans, List.getD, h]

/-- Another channel. -/
theorem chan_scanChannel_ne (h : c ≠ d) : chan (scanChannel c code s) d = chan s d := by
  simp [chan, scanChannel_chans, List.getD, List.getElem?_set_ne h]

theorem scanChannel_unscanned : unscanned (scanChannel c code s) = unscanned s := by
  by_cases h : (stepped s c code).failed = (chan s c).failed
  · rw [scanChannel_steady h]
    rfl
  · rw [scanChannel_changed h]
    exact logEv_unscanned

/-- A channel that fails becomes the last failed one. -/
theorem scanChannel_lastFailed : (scanChannel c code s).scan.lastFailed =
    if (stepped s c code).failed = true ∧ (chan s c).failed = false then some c else s.scan.lastFailed := by
  by_cases h : (stepped s c code).failed = (chan s c).failed
  · rw [scanChannel_steady h, if_neg (by simp [h])]
    rfl
  · rw [scanChannel_changed h, logEv_scan]
    cases e : (stepped s c code).failed <;> simp_all

/-- A channel that stays as it was logs nothing. -/
theorem scanChannel_log_steady (h : (stepped s c code).failed = (chan s c).failed) : (scanChannel c code s).log = s.log := by
  rw [scanChannel_steady h]
  rfl

/-- A channel that fails or recovers logs it, where the queue has room. -/
theorem scanChannel_log_changed (h : (stepped s c code).failed ≠ (chan s c).failed) (hroom : s.log.queue.length < 32) :
    (scanChannel c code s).log = { s.log with
      queue := s.log.queue ++
        [⟨.channelState, wordOf c, wordOfBool (stepped s c code).failed, wordOf code, now s, s.log.gap⟩], gap := false } := by
  rw [scanChannel_changed h]
  exact logEv_room hroom

end OneChannel

/-! ## The channels in rising number -/

/-- The first k channels have taken their codes. -/
def scanUpTo (raw : List Nat) (k : Nat) (s : State) : State := (List.range k).foldl (fun t c => scanChannel c (raw.getD c 0) t) s

theorem scanUpTo_succ {k : Nat} : scanUpTo raw (k + 1) s = scanChannel k (raw.getD k 0) (scanUpTo raw k s) := by
  simp [scanUpTo, List.range_succ]

theorem scanUpTo_unscanned : ∀ k, unscanned (scanUpTo raw k s) = unscanned s
  | 0 => rfl
  | k + 1 => by
    rw [scanUpTo_succ, scanChannel_unscanned]
    exact scanUpTo_unscanned k

theorem scanUpTo_length : ∀ k, (scanUpTo raw k s).scan.chans.length = s.scan.chans.length
  | 0 => rfl
  | k + 1 => by rw [scanUpTo_succ, scanChannel_chans, List.length_set, scanUpTo_length k]

theorem unscanned_st (h : unscanned t = unscanned s) : t.st = s.st := by
  have hst := congrArg State.st h
  exact hst

theorem unscanned_settings (h : unscanned t = unscanned s) : t.settings = s.settings := by
  have hsettings := congrArg State.settings h
  exact hsettings

theorem unscanned_now (h : unscanned t = unscanned s) : now t = now s := by
  have hnow := congrArg now h
  exact hnow

theorem unscanned_conds (h : unscanned t = unscanned s) : t.conds = s.conds := by
  have hconds := congrArg State.conds h
  exact hconds

theorem unscanned_str (h : unscanned t = unscanned s) : t.str = s.str := by
  have hstr := congrArg State.str h
  exact hstr

/-- What a channel's step reads but the channel is not the scanner's. -/
theorem stepped_congr {c code : Nat} (h : unscanned t = unscanned s) (hc : chan t c = chan s c) : stepped t c code = stepped s c code := by
  simp only [stepped, hc, unscanned_settings h, channelUsed, stringCount, genFitted, unscanned_st h]
  rfl

/-- Before its turn a channel is as it was, after it it has made its step. -/
theorem chan_scanUpTo (hs : s.scan.chans.length = 16) {c : Nat} (hc : c < 16) :
    ∀ k, chan (scanUpTo raw k s) c = if c < k then stepped s c (raw.getD c 0) else chan s c
  | 0 => rfl
  | k + 1 => by
    have ih := chan_scanUpTo hs hc k
    rw [scanUpTo_succ]
    by_cases hck : k = c
    · subst hck
      rw [chan_scanChannel (by rw [scanUpTo_length, hs]; exact hc), if_pos (Nat.lt_succ_self k)]
      exact stepped_congr (scanUpTo_unscanned k) (ih.trans (if_neg (Nat.lt_irrefl k)))
    · rw [chan_scanChannel_ne hck, ih]
      simp only [show c < k + 1 ↔ c < k by omega]

/-- The step of channel k as the scan reaches it. -/
theorem stepped_scanUpTo (hs : s.scan.chans.length = 16) {k : Nat} (hk : k < 16) :
    stepped (scanUpTo raw k s) k (raw.getD k 0) = stepped s k (raw.getD k 0) ∧ chan (scanUpTo raw k s) k = chan s k := by
  have hchan := (chan_scanUpTo (raw := raw) hs hk k).trans (if_neg (Nat.lt_irrefl k))
  exact ⟨stepped_congr (scanUpTo_unscanned k) hchan, hchan⟩

/-- Channel c fails in the scan. -/
abbrev failsNow (raw : List Nat) (s : State) (c : Nat) : Prop :=
  (stepped s c (raw.getD c 0)).failed = true ∧ (chan s c).failed = false

/-- With no channel failing the last failed one stays. -/
theorem lastFailed_scanUpTo_none (hs : s.scan.chans.length = 16) : ∀ k ≤ 16, (∀ c < k, ¬ failsNow raw s c) →
    (scanUpTo raw k s).scan.lastFailed = s.scan.lastFailed
  | 0, _, _ => rfl
  | k + 1, hk, h => by
    obtain ⟨hstep, hchan⟩ := stepped_scanUpTo (raw := raw) hs (show k < 16 by omega)
    rw [scanUpTo_succ, scanChannel_lastFailed, hstep, hchan, if_neg (h k (Nat.lt_succ_self k))]
    exact lastFailed_scanUpTo_none hs k (by omega) fun c hc => h c (by omega)

/-- The highest of the channels that fail is the last failed one. -/
theorem lastFailed_scanUpTo_some (hs : s.scan.chans.length = 16) {c : Nat} (hc : failsNow raw s c) :
    ∀ k ≤ 16, c < k → (∀ d < k, c < d → ¬ failsNow raw s d) → (scanUpTo raw k s).scan.lastFailed = some c
  | 0, _, h, _ => absurd h (Nat.not_lt_zero _)
  | k + 1, hk, hck, h => by
    obtain ⟨hstep, hchan⟩ := stepped_scanUpTo (raw := raw) hs (show k < 16 by omega)
    rw [scanUpTo_succ, scanChannel_lastFailed, hstep, hchan]
    by_cases hkc : c = k
    · exact hkc ▸ if_pos hc
    · rw [if_neg (h k (Nat.lt_succ_self k) (by omega))]
      exact lastFailed_scanUpTo_some hs hc k (by omega) (by omega) fun d hd => h d (by omega)

/-- Channel c fails or recovers in the scan. -/
def changesNow (raw : List Nat) (s : State) (c : Nat) : Bool := (stepped s c (raw.getD c 0)).failed != (chan s c).failed

/-- The CHANNEL_STATE entry of a channel that fails or recovers; the first of the scan carries the gap mark. -/
def channelEvent (raw : List Nat) (s : State) (c : Nat) : LogEvent :=
  ⟨.channelState, wordOf c, wordOfBool (stepped s c (raw.getD c 0)).failed, wordOf (raw.getD c 0), now s,
    s.log.gap && decide (((List.range 16).filter (changesNow raw s)).head? = some c)⟩

/-- Channel k is the first that changes exactly when none before it does. -/
theorem head_changed {k : Nat} (hk : k < 16) (h : changesNow raw s k = true) :
    ((List.range 16).filter (changesNow raw s)).head? = some k ↔ (List.range k).filter (changesNow raw s) = [] := by
  rw [List.head?_filter, List.find?_range_eq_some, List.filter_eq_nil_iff]
  simp only [h, List.mem_range, hk, true_and, Bool.not_eq_true']
  exact forall_congr' fun j => by simp

/-- The log after the first k channels, where the queue has room for their entries. -/
theorem log_scanUpTo (hs : s.scan.chans.length = 16) : ∀ k ≤ 16,
    s.log.queue.length + ((List.range k).filter (changesNow raw s)).length ≤ 32 →
    (scanUpTo raw k s).log.queue = s.log.queue ++ ((List.range k).filter (changesNow raw s)).map (channelEvent raw s) ∧
      (scanUpTo raw k s).log.gap = (s.log.gap && ((List.range k).filter (changesNow raw s)).isEmpty)
  | 0, _, _ => by simp [scanUpTo]
  | k + 1, hk, hroom => by
    obtain ⟨hstep, hchan⟩ := stepped_scanUpTo (raw := raw) hs (show k < 16 by omega)
    have hnow : now (scanUpTo raw k s) = now s := unscanned_now (scanUpTo_unscanned k)
    rw [scanUpTo_succ]
    by_cases hc : changesNow raw s k = true
    · have hfilter : (List.range (k + 1)).filter (changesNow raw s) = (List.range k).filter (changesNow raw s) ++ [k] := by
        simp [List.range_succ, hc]
      rw [hfilter] at hroom ⊢
      simp only [List.length_append, List.length_singleton] at hroom
      obtain ⟨hqueue, hgap⟩ := log_scanUpTo hs k (by omega) (by omega)
      have hchanged : (stepped (scanUpTo raw k s) k (raw.getD k 0)).failed ≠ (chan (scanUpTo raw k s) k).failed := by
        rw [hstep, hchan]
        simpa [changesNow] using hc
      have hlen : (scanUpTo raw k s).log.queue.length < 32 := by
        rw [hqueue, List.length_append, List.length_map]
        omega
      rw [scanChannel_log_changed hchanged hlen, hstep, hnow, hqueue, hgap]
      have hfirst : decide (((List.range 16).filter (changesNow raw s)).head? = some k) =
          ((List.range k).filter (changesNow raw s)).isEmpty := by
        rw [Bool.eq_iff_iff, decide_eq_true_iff, List.isEmpty_iff]
        exact head_changed (by omega) hc
      refine ⟨?_, by simp⟩
      rw [List.map_append, List.append_assoc, List.map_singleton, channelEvent, hfirst]
    · have hfilter : (List.range (k + 1)).filter (changesNow raw s) = (List.range k).filter (changesNow raw s) := by
        simp [List.range_succ, hc]
      have hsteady : (stepped (scanUpTo raw k s) k (raw.getD k 0)).failed = (chan (scanUpTo raw k s) k).failed := by
        rw [hstep, hchan]
        simpa [changesNow] using hc
      rw [hfilter] at hroom ⊢
      rw [scanChannel_log_steady hsteady]
      exact log_scanUpTo hs k (by omega) hroom

/-! ## The whole scan (R144, R187) -/

/-- A scan in SETTLE counts toward its ten. -/
def countSettle (s : State) : State := if s.st.state = .settle then { s with st := { s.st with settleScans := s.st.settleScans + 1 } } else s

theorem scanCompletion_on (h : s.scan.on = true) :
    scanCompletion raw s = countSettle (accountStrings (noteLoadSeen (scanAll raw s))) := if_pos h

theorem scanAll_eq : scanAll raw s = setCond Pt.sensorFail (anyFailed (scanUpTo raw 16 s)) (scanUpTo raw 16 s) := rfl

/-- The accounting writes the strings' records alone (R3). -/
theorem accountString_rest {k : Nat} : { accountString k s with str := s.str } = s := by
  unfold accountString
  split
  · split <;> rfl
  · rfl

theorem accountStrings_rest : { accountStrings s with str := s.str } = s := by
  have hfold : ∀ (l : List Nat) (t : State), { l.foldl (fun t k => accountString k t) t with str := t.str } = t := by
    intro l
    induction l with
    | nil => exact fun _ => rfl
    | cons k l ih =>
      intro t
      have h := congrArg (fun u : State => { u with str := t.str }) (ih (accountString k t))
      exact h.trans accountString_rest
  unfold accountStrings
  split
  · exact hfold _ s
  · rfl

theorem accountStrings_st : (accountStrings s).st = s.st := by
  have h := congrArg State.st (accountStrings_rest (s := s))
  exact h

theorem noteLoadSeen_st : (noteLoadSeen s).st = s.st := rfl

/-- What follows the scan itself leaves the scanner, the log and the conditions as they are. -/
theorem scanCompletion_after : (countSettle (accountStrings (noteLoadSeen s))).scan = s.scan ∧
    (countSettle (accountStrings (noteLoadSeen s))).log = s.log ∧ (countSettle (accountStrings (noteLoadSeen s))).conds = s.conds := by
  have hcount : ∀ u : State, (countSettle u).scan = u.scan ∧ (countSettle u).log = u.log ∧ (countSettle u).conds = u.conds := by
    intro u
    unfold countSettle
    split <;> exact ⟨rfl, rfl, rfl⟩
  have h := accountStrings_rest (s := noteLoadSeen s)
  obtain ⟨hscan, hlog, hconds⟩ := hcount (accountStrings (noteLoadSeen s))
  have hscan' := congrArg State.scan h
  have hlog' := congrArg State.log h
  have hconds' := congrArg State.conds h
  exact ⟨hscan.trans hscan', hlog.trans hlog', hconds.trans hconds'⟩

theorem countSettle_settleScans (h : s.st.state = .settle) : (countSettle s).st.settleScans = s.st.settleScans + 1 := by
  simp [countSettle, h]

/-! ## Raw codes -/

theorem getD_raw {v : Vector (BitVec 12) 16} {c : Nat} (h : c < 16) : (v.toList.map BitVec.toNat).getD c 0 = v[c].toNat := by
  simp [List.getD, h]

theorem getD_raw' {v : Vector (BitVec 12) 16} {c : Nat} : (v.toList.map BitVec.toNat).getD c 0 = (v.toList.getD c 0).toNat := by
  simp only [List.getD, List.getElem?_map]
  cases v.toList[c]? <;> rfl

theorem chans_length (h : Shape s) : s.scan.chans.length = 16 := by simp_all [Shape, shape]

/-- What a scan leaves in the scanner and the log, by the state after its channels. -/
theorem scanCompletion_parts (h : s.scan.on = true) : (scanCompletion raw s).scan = (scanUpTo raw 16 s).scan ∧
    (scanCompletion raw s).conds = (scanUpTo raw 16 s).conds.set Pt.sensorFail (anyFailed (scanUpTo raw 16 s)) ∧
    (scanUpTo raw 16 s).log.queue <+: (scanCompletion raw s).log.queue := by
  rw [scanCompletion_on h, scanAll_eq]
  obtain ⟨hscan, hlog, hconds⟩ :=
    scanCompletion_after (s := setCond Pt.sensorFail (anyFailed (scanUpTo raw 16 s)) (scanUpTo raw 16 s))
  refine ⟨hscan.trans setCond_scan, hconds.trans conds_setCond, ?_⟩
  rw [hlog]
  exact setCond_grows

/-- A scan in SETTLE. -/
theorem scanCompletion_settle (h : s.scan.on = true) (hs : s.st.state = .settle) :
    (scanCompletion raw s).st.settleScans = s.st.settleScans + 1 := by
  have hst : (accountStrings (noteLoadSeen (scanAll raw s))).st = s.st := by
    rw [accountStrings_st, noteLoadSeen_st, scanAll_eq, setCond_st]
    exact unscanned_st (scanUpTo_unscanned 16)
  have hsettle : (accountStrings (noteLoadSeen (scanAll raw s))).st.state = .settle := by rw [hst, hs]
  rw [scanCompletion_on h, countSettle_settleScans hsettle, hst]

/-- A scan of a scanner that is on. -/
theorem scanCompletion_updates (v : Vector (BitVec 12) 16) (hsh : Shape s) (hon : s.scan.on = true) :
    let t := scanCompletion (v.toList.map BitVec.toNat) s
    (∀ c : Fin 16, chan t c.val = (chan s c.val).step (channelUsed s c.val) (sampleOf s.settings c.val v[c].toNat)) ∧
      (s.st.state = .settle → t.st.settleScans = s.st.settleScans + 1) ∧
      condOf t Pt.sensorFail = t.scan.chans.any (·.failed) ∧
      ((∀ c : Fin 16, (chan t c.val).failed = true → (chan s c.val).failed = true) → t.scan.lastFailed = s.scan.lastFailed) ∧
      (∀ c : Fin 16, (chan s c.val).failed = false → (chan t c.val).failed = true →
        (∀ d : Fin 16, c < d → (chan t d.val).failed = true → (chan s d.val).failed = true) → t.scan.lastFailed = some c.val) ∧
      (let changed := (List.range 16).filter fun c => (chan t c).failed != (chan s c).failed
       s.log.queue.length + changed.length ≤ 32 → s.log.queue ++ (changed.map fun c =>
          ⟨.channelState, wordOf c, wordOfBool (chan t c).failed, wordOf (v.toList.getD c 0).toNat, now s,
            s.log.gap && decide (changed.head? = some c)⟩) <+: t.log.queue) := by
  intro t
  have hlen := chans_length hsh
  obtain ⟨hscan, hconds, hlog⟩ := scanCompletion_parts (raw := v.toList.map BitVec.toNat) hon
  have hchan : ∀ c < 16, chan t c = stepped s c ((v.toList.map BitVec.toNat).getD c 0) := by
    intro c hc
    have h := chan_scanUpTo (raw := v.toList.map BitVec.toNat) hlen hc 16
    rw [if_pos hc] at h
    rw [← h, chan, chan, hscan]
  have hfails : ∀ c : Fin 16, ((chan t c.val).failed = true → (chan s c.val).failed = true) →
      ¬ failsNow (v.toList.map BitVec.toNat) s c.val := by
    rintro c h ⟨hnew, hold⟩
    rw [← hchan c.val c.isLt] at hnew
    rw [h hnew] at hold
    cases hold
  have hchanged : ((List.range 16).filter fun c => (chan t c).failed != (chan s c).failed) =
      (List.range 16).filter (changesNow (v.toList.map BitVec.toNat) s) :=
    List.filter_congr fun c hc => by rw [changesNow, hchan c (List.mem_range.1 hc)]
  refine ⟨fun c => ?_, scanCompletion_settle hon, ?_, fun h => ?_, fun c hold hnew hlast => ?_, fun hroom => ?_⟩
  · rw [hchan c.val c.isLt, getD_raw c.isLt]
    rfl
  · rw [condOf, hconds, show t.scan = _ from hscan]
    have hcl : (scanUpTo (v.toList.map BitVec.toNat) 16 s).conds.length = 32 := by
      rw [show (scanUpTo (v.toList.map BitVec.toNat) 16 s).conds = s.conds from unscanned_conds (scanUpTo_unscanned 16)]
      exact conds_length hsh
    simp [List.getD, hcl, Pt.sensorFail, anyFailed]
  · rw [show t.scan = _ from hscan]
    exact lastFailed_scanUpTo_none hlen 16 (Nat.le_refl _) fun c hc => hfails ⟨c, hc⟩ (h ⟨c, hc⟩)
  · rw [show t.scan = _ from hscan]
    refine lastFailed_scanUpTo_some hlen ⟨?_, hold⟩ 16 (Nat.le_refl _) c.isLt fun d hd hcd => hfails ⟨d, hd⟩ (hlast ⟨d, hd⟩ hcd)
    rw [← hchan c.val c.isLt]
    exact hnew
  · rw [hchanged] at hroom ⊢
    refine List.IsPrefix.trans ?_ hlog
    rw [(log_scanUpTo hlen 16 (Nat.le_refl _) hroom).1]
    refine ⟨[], (List.append_nil _).trans (congrArg (s.log.queue ++ ·) (List.map_congr_left fun c hc => ?_))⟩
    have hlt : c < 16 := List.mem_range.1 (List.mem_filter.1 hc).1
    rw [channelEvent, hchan c hlt, getD_raw']

/-! ## A channel's step (R145, R146) -/

section Step

variable {x : Int} {c : Channel}

/-- A used channel with a valid sample that is not failed takes it. -/
theorem step_valid (h : c.failed = false) : (c.step true (some x)).failed = false ∧ (c.step true (some x)).samples = pushLast 10 c.samples x ∧
    (c.step true (some x)).mean = listMean (pushLast 10 c.samples x) ∧ (c.step true (some x)).invalid = 0 := by
  have hne : (pushLast 10 c.samples x).isEmpty = false := by
    simp only [pushLast, List.isEmpty_eq_false_iff, ne_eq, List.drop_eq_nil_iff, List.length_append, List.length_singleton]
    omega
  simp [Channel.step, h, hne]

/-- The tenth invalid sample in a row fails a used channel. -/
theorem step_fails (h : c.failed = false) (hi : c.invalid = 9) :
    (c.step true none).failed = true ∧ (c.step true none).mean = c.mean := by simp [Channel.step, h, hi]

theorem step_waits (h : c.failed = false) (hi : c.invalid < 9) : (c.step true none).failed = false := by
  simp [Channel.step, h]
  omega

/-- The tenth valid sample in a row restores it. -/
theorem step_recovers (h : c.failed = true) (hv : c.valid = 9) : (c.step true (some x)).failed = false := by simp [Channel.step, h, hv]

theorem step_stays (h : c.failed = true) (hv : c.valid < 9) :
    (c.step true (some x)).failed = true ∧ (c.step true (some x)).mean = c.mean := by
  have hne : ¬ (c.valid + 1 = 10) := by omega
  have hle : min 10 (c.valid + 1) ≠ 10 := by omega
  simp [Channel.step, h, hle]

end Step

/-- Settles O17: the scan by its channels, and a channel by its step. -/
theorem scanUpdatesChannels : Obligations.ScanUpdatesChannels := by
  refine ⟨fun v s hsh => ⟨fun hon => ⟨_, rfl, scanCompletion_updates v hsh hon⟩, fun hoff => ?off⟩,
    fun ss c => ⟨rfl, rfl⟩, fun x c h => step_valid h, fun c h hi => step_fails h hi, fun c h hi => step_waits h hi,
    fun x c h hv => step_recovers h hv, fun x c h hv => step_stays h hv, fun x c => ⟨rfl, rfl⟩⟩
  case off => exact congrArg Host.Outcome.next (if_neg (by simp [hoff]))

end Sys2Proof.Machine
end

section
/-! PROOFS. The strings' records (the operations' rules) and the charge accounting of a scan (O18). -/

namespace Sys2Proof.Machine

variable {s t u : State} {raw : List Nat} {j k : Nat} {r : StringRec} {f : StringRec → StringRec}

/-! ## The records of the strings -/

theorem getElem?_updAt {α : Type} {f : α → α} : ∀ {i : Nat} {l : List α}, (updAt i f l)[i]? = l[i]?.map f
  | i, [] => by cases i <;> rfl
  | 0, a :: l => rfl
  | i + 1, a :: l => by
    simp only [updAt, List.getElem?_cons_succ]
    exact getElem?_updAt

theorem getElem?_updAt_ne {α : Type} {f : α → α} : ∀ {i j : Nat} {l : List α}, i ≠ j → (updAt i f l)[j]? = l[j]?
  | i, _, [], _ => by cases i <;> rfl
  | 0, 0, _ :: _, h => absurd rfl h
  | 0, _ + 1, _ :: _, _ => rfl
  | _ + 1, 0, _ :: _, _ => rfl
  | i + 1, j + 1, _ :: _, h => by
    simp only [updAt, List.getElem?_cons_succ]
    exact getElem?_updAt_ne fun e => h (congrArg (· + 1) e)

/-- The record a string has after a write to it. -/
theorem strRec_setStr : strRec (setStr k f s) k = (strRec s k).map f := by
  simp only [strRec, setStr_str, getElem?_updAt]
  cases s.str.recs[k]? <;> rfl

/-- A write to one string leaves the others. -/
theorem strRec_setStr_ne (h : j ≠ k) : strRec (setStr j f s) k = strRec s k := by
  simp only [strRec, setStr_str, getElem?_updAt_ne h]

theorem strRec_of_setStr (h : strRec s k = some r) : strRec (setStr k f s) k = some (f r) := by rw [strRec_setStr, h]; rfl

theorem strRec_congr (h : t.str = s.str) : strRec t k = strRec s k := by rw [strRec, h, strRec]

/-! ## The accounting (R3, R4) -/

/-- The accounting of one string leaves the records of the others. -/
theorem accountString_strRec_ne (h : j ≠ k) : strRec (accountString j s) k = strRec s k := by
  unfold accountString
  split
  · split
    · exact strRec_setStr_ne h
    · rfl
  · rfl

/-- A closed string with a valid sample accrues it. -/
theorem accountString_strRec {x : Option Int} (h : strRec s k = some r) (hc : r.closed = true) (hx : (chan s (6 + k)).sample = x) :
    strRec (accountString k s) k = some ((x.map fun i => r.accrue (strCapacity s.settings k) (r.prof s.settings 9) i).getD r) := by
  unfold accountString
  cases x with
  | none => simp only [h, hx, Option.map_none, Option.getD_none]
  | some i =>
    simp only [h, hx, if_pos hc, Option.map_some, Option.getD_some]
    exact strRec_of_setStr h

/-- What the accounting reads besides the records. -/
theorem accountString_reads : (accountString k s).settings = s.settings ∧ (accountString k s).scan = s.scan := by
  have h := accountString_rest (k := k) (s := s)
  have hsettings := congrArg State.settings h
  have hscan := congrArg State.scan h
  exact ⟨hsettings, hscan⟩

/-- The accounting of the strings before string k. -/
theorem foldl_accountString {l : List Nat} (hk : k ∉ l) : strRec (l.foldl (fun t k => accountString k t) s) k = strRec s k := by
  induction l generalizing s with
  | nil => rfl
  | cons j l ih =>
    obtain ⟨hj, hl⟩ := not_or.1 (mt List.mem_cons.2 hk)
    exact (ih hl).trans (accountString_strRec_ne (Ne.symm hj))

theorem foldl_accountString_reads {l : List Nat} : (l.foldl (fun t k => accountString k t) s).settings = s.settings ∧
    (l.foldl (fun t k => accountString k t) s).scan = s.scan := by
  induction l generalizing s with
  | nil => exact ⟨rfl, rfl⟩
  | cons j l ih =>
    obtain ⟨hsettings, hscan⟩ := accountString_reads (k := j) (s := s)
    exact ⟨ih.1.trans hsettings, ih.2.trans hscan⟩

/-- The record of a closed string after the accounting of all strings in RUN. -/
theorem accountStrings_strRec {x : Option Int} (hr : inRun s = true) (hk : k < 4) (h : strRec s k = some r) (hc : r.closed = true)
    (hx : (chan s (6 + k)).sample = x) :
    strRec (accountStrings s) k = some ((x.map fun i => r.accrue (strCapacity s.settings k) (r.prof s.settings 9) i).getD r) := by
  have hsplit : List.range 4 = List.range k ++ k :: (List.range (3 - k)).map (k + 1 + ·) := by
    have hcases : k = 0 ∨ k = 1 ∨ k = 2 ∨ k = 3 := by omega
    rcases hcases with rfl | rfl | rfl | rfl <;> rfl
  have hdef : accountStrings s = (List.range 4).foldl (fun t k => accountString k t) s := if_pos (by rw [hr, Bool.true_or])
  rw [hdef, hsplit, List.foldl_append, List.foldl_cons, foldl_accountString (by simp; omega)]
  obtain ⟨hsettings, hscan⟩ := foldl_accountString_reads (s := s) (l := List.range k)
  rw [← hsettings]
  refine accountString_strRec ?_ hc ?_
  · rw [foldl_accountString (by simp), h]
  · rw [chan, hscan]
    exact hx

/-- The sample a scan hands on for channel c. -/
theorem stepped_sample {c code : Nat} : (stepped s c code).sample = sampleOf s.settings c code := rfl

theorem inRun_congr (h : t.st = s.st) : inRun t = inRun s := by rw [inRun, h, inRun]

/-- The record of a closed string after a scan in RUN. -/
theorem scanCompletion_strRec {x : Option Int} (hs : Shape s) (hon : s.scan.on = true) (hr : inRun s = true) (hk : k < 4)
    (h : strRec s k = some r) (hc : r.closed = true) (hx : sampleOf s.settings (6 + k) (raw.getD (6 + k) 0) = x) :
    strRec (scanCompletion raw s) k = some ((x.map fun i => r.accrue (strCapacity s.settings k) (r.prof s.settings 9) i).getD r) := by
  have hset : (scanAll raw s).settings = s.settings := by
    rw [scanAll_eq, setCond_settings]
    exact unscanned_settings (scanUpTo_unscanned 16)
  have hst : (scanAll raw s).st = s.st := by
    rw [scanAll_eq, setCond_st]
    exact unscanned_st (scanUpTo_unscanned 16)
  have hstr : (scanAll raw s).str = s.str := by
    rw [scanAll_eq, setCond_str]
    exact unscanned_str (scanUpTo_unscanned 16)
  have hsample : (chan (scanAll raw s) (6 + k)).sample = x := by
    have hchan := (chan_scanUpTo (raw := raw) (chans_length hs) (show 6 + k < 16 by omega) 16).trans (if_pos (by omega))
    rw [scanAll_eq, chan, setCond_scan, ← chan, hchan, stepped_sample, hx]
  have hcount : ∀ u : State, strRec (countSettle u) k = strRec u k := by
    intro u
    unfold countSettle
    split <;> rfl
  rw [scanCompletion_on hon, hcount, ← hset]
  generalize scanAll raw s = a at hset hst hstr hsample ⊢
  exact accountStrings_strRec ((inRun_congr hst).trans hr) hk ((strRec_congr hstr).trans h) hc hsample

section Accrue

variable {cap factor : Nat} {i : Int}

theorem accrue_discharges (hi : i ≤ -20) (h : r.dischargeResidue + i.natAbs < 36000) :
    r.accrue cap factor i = { r with dischargeResidue := r.dischargeResidue + i.natAbs } := by
  rw [StringRec.accrue, if_pos hi, StringRec.discharge, if_neg (by omega)]

theorem accrue_takes (hi : i ≤ -20) (h : 36000 ≤ r.dischargeResidue + i.natAbs) : r.accrue cap factor i =
    { r with
      dischargeResidue := r.dischargeResidue + i.natAbs - 36000, deficit := if r.deficit = cap then r.deficit else r.deficit + 1,
      throughputOut := (r.throughputOut + 1) % 65536 } := by
  rw [StringRec.accrue, if_pos hi, StringRec.discharge, if_pos h]

theorem accrue_charges (hi : 0 < i) : r.accrue cap factor i = (r.recharge factor i.toNat).takeIn i.toNat := by
  rw [StringRec.accrue, if_neg (by omega), if_pos hi]

theorem accrue_rests (hi : -20 < i) (h : i ≤ 0) : r.accrue cap factor i = r := by
  rw [StringRec.accrue, if_neg (by omega), if_neg (by omega)]

theorem recharge_through {n : Nat} : (r.recharge factor n).throughputResidue = r.throughputResidue ∧
    (r.recharge factor n).throughputIn = r.throughputIn := by
  rw [StringRec.recharge]
  split <;> exact ⟨rfl, rfl⟩

theorem takeIn_weighted {n : Nat} : (r.takeIn n).chargeResidue = r.chargeResidue ∧ (r.takeIn n).deficit = r.deficit := by
  rw [StringRec.takeIn]
  split <;> exact ⟨rfl, rfl⟩

theorem takeIn_through {n : Nat} :
    (r.throughputResidue + n < 36000 → (r.takeIn n).throughputResidue = r.throughputResidue + n ∧ (r.takeIn n).throughputIn = r.throughputIn) ∧
      (36000 ≤ r.throughputResidue + n → (r.takeIn n).throughputResidue = r.throughputResidue + n - 36000 ∧
        (r.takeIn n).throughputIn = (r.throughputIn + 1) % 65536) := by
  rw [StringRec.takeIn]
  split <;> simp <;> omega

/-- The two residues of a charge do not meet: each counts the sample by itself. -/
theorem recharge_takeIn {n : Nat} :
    (r.chargeResidue + n * 100 < 36000 * factor → ((r.recharge factor n).takeIn n).chargeResidue = r.chargeResidue + n * 100 ∧
        ((r.recharge factor n).takeIn n).deficit = r.deficit) ∧
      (36000 * factor ≤ r.chargeResidue + n * 100 →
        ((r.recharge factor n).takeIn n).chargeResidue = r.chargeResidue + n * 100 - 36000 * factor ∧
        ((r.recharge factor n).takeIn n).deficit = r.deficit - 1) ∧
      (r.throughputResidue + n < 36000 → ((r.recharge factor n).takeIn n).throughputResidue = r.throughputResidue + n ∧
        ((r.recharge factor n).takeIn n).throughputIn = r.throughputIn) ∧
      (36000 ≤ r.throughputResidue + n → ((r.recharge factor n).takeIn n).throughputResidue = r.throughputResidue + n - 36000 ∧
        ((r.recharge factor n).takeIn n).throughputIn = (r.throughputIn + 1) % 65536) := by
  obtain ⟨hresidue, hdeficit⟩ := takeIn_weighted (r := r.recharge factor n) (n := n)
  have hthrough := takeIn_through (r := r.recharge factor n) (n := n)
  rw [recharge_through.1, recharge_through.2] at hthrough
  refine ⟨fun h => ?_, fun h => ?_, hthrough⟩
  · rw [hresidue, hdeficit, StringRec.recharge, if_neg (by omega)]
    exact ⟨rfl, rfl⟩
  · rw [hresidue, hdeficit, StringRec.recharge, if_pos h]
    exact ⟨rfl, rfl⟩

end Accrue

/-- Settles O18: the record of the string by the accounting, and the accounting by the sign and size of the sample. -/
theorem scanAccruesCharge : Obligations.ScanAccruesCharge := by
  intro raw s k r hs hon hr h hc cap factor x
  have hrec := scanCompletion_strRec (raw := raw.toList.map BitVec.toNat) (x := x) hs hon hr k.isLt h hc
    (by rw [getD_raw (by omega)])
  refine ⟨_, rfl, fun i hx hi hres => ?_, fun i hx hi hres => ?_, fun i hx hi => ⟨_, ?_, recharge_takeIn⟩, fun i hx hi hle => ?_,
    fun hx => ?_⟩
  · rw [hrec, hx]
    exact congrArg some (accrue_discharges hi hres)
  · rw [hrec, hx]
    exact congrArg some (accrue_takes hi hres)
  · rw [hrec, hx]
    exact congrArg some (accrue_charges hi)
  · rw [hrec, hx]
    exact congrArg some (accrue_rests hi hle)
  · rw [hrec, hx]
    rfl

end Sys2Proof.Machine
end

section
/-! PROOFS. The generator's record: what each operation of the Generator Controller makes of it and of the conditions (05). -/

namespace Sys2Proof.Machine

variable {s t u : State}

/-! ## Clearing a condition without children -/

theorem logEv_bus {k : LogKind} {x a b : Word} : (logEv k x a b s).bus = s.bus := by
  unfold logEv logAt
  split <;> rfl

theorem movePoint_bus {p : Nat} {st : PointState} {timer : Option Nat} : (movePoint p st timer s).bus = s.bus := by
  unfold movePoint refreshOutputs
  dsimp only
  split <;> rfl

theorem logPoint_bus {p : Nat} {a b : PointState} : (logPoint p a b s).bus = s.bus := logEv_bus

theorem cancelRaise_bus {p : Nat} : (cancelRaise p s).bus = s.bus := by
  unfold cancelRaise
  split
  · exact logPoint_bus.trans movePoint_bus
  · rfl

/-- The clearing of a point that no other waits on reaches no other block. -/
theorem becomeFalse_bus {p : Nat} (hp : children p = []) : (becomeFalse p s).bus = s.bus := by
  have hfire : ∀ (old : PointState) (a : Bool), (fireClear p old a s).bus = s.bus := by
    intro old a
    unfold fireClear judgeChildren
    rw [hp]
    exact logPoint_bus.trans movePoint_bus
  have hclear : ∀ (old : PointState) (a : Bool), (if pointWord s.settings p 3 = 0 then fireClear p old a s
      else s |> setPoint p (fun r => { r with acked := a }) |> movePoint p .clearing (some (pointWord s.settings p 3))).bus = s.bus := by
    intro old a
    split
    · exact hfire old a
    · exact movePoint_bus
  unfold becomeFalse
  dsimp only
  split
  · exact cancelRaise_bus
  · exact hclear _ _
  · exact hclear _ _
  · rfl
  · rfl
  · rfl

theorem withdrawCond_bus {p : Nat} (hp : children p = []) : (setCond p false s).bus = s.bus := by
  unfold setCond setCopy
  dsimp only
  split
  · rfl
  · split
    · exact becomeFalse_bus hp
    · rfl

/-- A condition withdrawn. -/
theorem condOf_withdrawn {p : Nat} : condOf (setCond p false s) p = false := by
  rw [condOf, conds_setCond]
  by_cases h : p < s.conds.length <;> simp [List.getD, h]

/-! ## The Source Controller beside a generator that is not ready -/

/-- A change that leaves a generator that is neither READY nor LOADED, and the conditions, as they are. -/
def Parked (s t : State) : Prop := genReady s = false → t.gen = s.gen ∧ t.conds = s.conds

theorem Parked.refl (s : State) : Parked s s := fun _ => ⟨rfl, rfl⟩

theorem Parked.of_eq (hg : t.gen = s.gen) (hc : t.conds = s.conds) : Parked s t := fun _ => ⟨hg, hc⟩

theorem genReady_congr (h : t.gen = s.gen) : genReady t = genReady s := by rw [genReady, h, genReady]

theorem Parked.trans (h : Parked s t) (k : Parked t u) : Parked s u := fun hr => by
  obtain ⟨hg, hc⟩ := h hr
  obtain ⟨kg, kc⟩ := k ((genReady_congr hg).trans hr)
  exact ⟨kg.trans hg, kc.trans hc⟩

theorem Parked.of_aside (h : aside true t = aside true s) : Parked s t := .of_eq (aside_gen h) (aside_conds h)

theorem Shelf.parked (h : Shelf s t) : Parked s t := .of_eq h.gen_eq h.conds_eq

theorem setXfer_parked {f : Xfer → Xfer} : Parked s (setXfer f s) := .of_eq rfl rfl

theorem withdrawClaim_parked {k : Slot} : Parked s (withdrawClaim k s) := by
  unfold withdrawClaim
  split
  · exact .of_eq rfl rfl
  · exact .refl s

theorem ite_parked {c : Prop} [Decidable c] {a b : State} (ha : Parked s a) (hb : Parked s b) : Parked s (if c then a else b) := by
  split
  · exact ha
  · exact hb

theorem noticeOnGen_parked : Parked s (noticeOnGen s) := by
  intro h
  have hne : (s.gen.state == .ready) = false := (Bool.or_eq_false_iff.1 h).1
  simp [noticeOnGen, hne]

theorem noticeLeftForOpening_parked : Parked s (noticeLeftForOpening s) := by
  intro h
  have hne : (s.gen.state == .loaded) = false := (Bool.or_eq_false_iff.1 h).2
  have := withdrawClaim_parked (k := .generator) h
  simpa [noticeLeftForOpening, hne] using this

theorem noticeLeftForFault_parked : Parked s (noticeLeftForFault s) := by
  intro h
  have hne : (s.gen.state == .loaded) = false := (Bool.or_eq_false_iff.1 h).2
  have := withdrawClaim_parked (k := .generator) h
  simpa [noticeLeftForFault, hne] using this

theorem handCapacity_parked : Parked s (handCapacity s) := (handCapacity_shelf (Shelf.refl s)).parked

theorem transferNotices_parked {old new : XferState} : Parked s (transferNotices old new s) := by
  unfold transferNotices
  dsimp only
  have hends : Parked s (if old = .onMains then abortTest .abortedMains (cancelEqualize .cancelledMains s) else s) :=
    ite_parked (.of_aside (abortTest_aside.trans cancelEqualize_aside)) (.refl s)
  have hleft : ∀ a : State, Parked a
      (if old = .onGen then (if new = .fault then noticeLeftForFault a else noticeLeftForOpening a) else a) :=
    fun a => ite_parked (ite_parked noticeLeftForFault_parked noticeLeftForOpening_parked) (.refl a)
  refine hends.trans ((hleft _).trans ?_)
  exact (ite_parked noticeOnGen_parked (.refl _)).trans handCapacity_parked

theorem enterXfer_parked {st : XferState} : Parked s (enterXfer st s) := by
  unfold enterXfer
  exact (setXfer_parked.trans (.of_aside logEv_aside)).trans transferNotices_parked

theorem watchFeedbacks_parked : Parked s (watchFeedbacks s) := by
  unfold watchFeedbacks
  split
  · exact setXfer_parked
  · exact setXfer_parked
  · exact setXfer_parked
  all_goals exact .refl s

theorem judgeFeedbacks_parked : Parked s (judgeFeedbacks s) := by
  unfold judgeFeedbacks
  refine ite_parked (Parked.trans ?_ watchFeedbacks_parked) (.refl s)
  split
  · exact ite_parked enterXfer_parked (.refl s)
  · exact .refl s

theorem moveXfer_parked {st : XferState} : Parked s (moveXfer st s) := enterXfer_parked.trans judgeFeedbacks_parked

theorem startOpening_parked {a b : Bool} : Parked s (startOpening a b s) := setXfer_parked.trans moveXfer_parked

theorem decideOpen_parked : Parked s (decideOpen s) := by
  unfold decideOpen
  refine ite_parked (ite_parked moveXfer_parked (ite_parked (setXfer_parked.trans moveXfer_parked) (ite_parked moveXfer_parked ?_))) ?_
  · exact .refl s
  · exact .refl s

theorem readyFalse_parked : Parked s (readyFalse s) := by
  unfold readyFalse
  split
  · exact decideOpen_parked
  · exact startOpening_parked
  · exact startOpening_parked
  all_goals exact .refl s

/-! ## Changes of state (R96) -/

section Changes

variable {st : GenState} {x : Word}

/-- The generator's record after a change of its state. -/
theorem genEnter_gen : (genEnter st x s).gen = s.gen.enter st (now s) := by
  unfold genEnter
  dsimp only
  split
  · rw [withdrawClaim_gen, logEv_gen]
  · exact logEv_gen

theorem genEnter_conds : (genEnter st x s).conds = s.conds := aside_conds genEnter_aside

theorem genEnter_parts : (genEnter st x s).gen = s.gen.enter st (now s) ∧ (genEnter st x s).conds = s.conds := ⟨genEnter_gen, genEnter_conds⟩

/-- A change reported to the Source Controller makes no other change of the generator's record or of a condition. -/
theorem genMove_parts : (genMove st x s).gen = s.gen.enter st (now s) ∧ (genMove st x s).conds = s.conds := by
  unfold genMove
  dsimp only
  split
  · next h =>
    obtain ⟨hg, hc⟩ := readyFalse_parked (s := genEnter st x s) (by simp_all)
    exact ⟨hg.trans genEnter_gen, hc.trans genEnter_conds⟩
  · exact genEnter_parts

theorem genMove_gen : (genMove st x s).gen = s.gen.enter st (now s) := genMove_parts.1
theorem genMove_conds : (genMove st x s).conds = s.conds := genMove_parts.2

/-- A change of state from outside READY and LOADED. -/
theorem genMove_of_not_ready (h : genReady s = false) : genMove st x s = genEnter st x s := by simp [genMove, h]

end Changes

theorem genMove_rest {st : GenState} {x : Word} : (genMove st x s).settings = s.settings ∧ now (genMove st x s) = now s ∧
    (genMove st x s).st = s.st ∧ (genMove st x s).inp = s.inp := by
  have h := genMove_quiet (Quiet.refl s) (st := st) (subject := x)
  exact ⟨h.settings_eq, h.now_eq, h.st_eq, h.inp_eq⟩

theorem addAttempt_gen {o : AttemptOutcome} {peak : Nat} : (addAttempt o peak s).gen =
    { s.gen with attempts := pushLast 8 s.gen.attempts ⟨now s, s.gen.series, s.gen.attempt, o, peak⟩ } := logEv_gen

theorem handCapacity_gen : (handCapacity s).gen = s.gen := (handCapacity_shelf (Shelf.refl s)).gen_eq
theorem handCapacity_conds : (handCapacity s).conds = s.conds := (handCapacity_shelf (Shelf.refl s)).conds_eq
theorem handCapacity_bus : (handCapacity s).bus = s.bus := (handCapacity_shelf (Shelf.refl s)).bus_eq

/-- The capacity in force back at its setting (R116). -/
theorem restoreCapacity_gen : (restoreCapacity s).gen = { s.gen with capacity := genCapacity s.settings, derates := 0 } := by
  unfold restoreCapacity
  dsimp only
  rw [handCapacity_gen, setCond_gen (by decide)]
  rfl

theorem restoreCapacity_conds : (restoreCapacity s).conds = s.conds.set Pt.genOverload false := by
  unfold restoreCapacity
  rw [handCapacity_conds, conds_setCond]
  rfl

theorem restoreCapacity_bus : (restoreCapacity s).bus = s.bus := by
  unfold restoreCapacity
  rw [handCapacity_bus, withdrawCond_bus (by decide)]
  rfl

/-! ## Series and STANDBY (R97, R104, R105, R116) -/

/-- The record of a series that begins. -/
def Gen.begin (g : Gen) (time : Nat) : Gen := { g with series := (g.series + 1) % 65536, attempt := 1 }.enter .prestart time

theorem seriesStart_begins (h : s.gen.state = .standby) (hr : s.gen.requests.isEmpty = false) (ht : testRunning s = false) :
    (seriesStart s).gen = s.gen.begin (now s) := by
  rw [seriesStart, if_pos (by simp [h, hr, ht])]
  exact genEnter_gen

theorem seriesStart_waits (h : s.gen.requests.isEmpty = true ∨ testRunning s = true) : seriesStart s = s :=
  if_neg (by rcases h with h | h <;> simp [h])

theorem seriesStart_stays (h : s.gen.state ≠ .standby) : seriesStart s = s := if_neg (by simp [h])

theorem seriesStart_conds : (seriesStart s).conds = s.conds := aside_conds seriesStart_aside

theorem checkpoint_gen {n : Nat} : (checkpoint n s).gen = s.gen ∧ (checkpoint n s).conds = s.conds ∧ (checkpoint n s).bus = s.bus := by
  have h := checkpoint_shelf (Shelf.refl s) (n := n)
  exact ⟨h.gen_eq, h.conds_eq, h.bus_eq⟩

/-- The record on entry to STANDBY, before a standing request starts a series. -/
def Gen.stand (g : Gen) (capacity time : Nat) : Gen :=
  { g.enter .standby time with
    lastRunEnd := if g.state = .stopping then time else g.lastRunEnd, capacity := capacity, derates := 0 }

/-- The state on entry to STANDBY, before a standing request starts a series. -/
def standing (s : State) : State :=
  restoreCapacity (if s.gen.state == .stopping then
    checkpoint 0 (setGen (fun g => { g with lastRunEnd := now (genMove .standby 0 s) }) (genMove .standby 0 s)) else genMove .standby 0 s)

theorem enterStandby_eq : enterStandby s = seriesStart (standing s) := rfl

theorem standing_gen : (standing s).gen = s.gen.stand (genCapacity s.settings) (now s) := by
  obtain ⟨hset, hnow, -, -⟩ := genMove_rest (s := s) (st := .standby) (x := 0)
  unfold standing Gen.stand
  rw [restoreCapacity_gen]
  split
  · next h =>
    have hset' : (checkpoint 0 (setGen (fun g => { g with lastRunEnd := now (genMove .standby 0 s) }) (genMove .standby 0 s))).settings =
        s.settings := (checkpoint_quiet (Quiet.refl _)).settings_eq.trans hset
    rw [checkpoint_gen.1, hset', hnow, setGen_gen, genMove_gen, if_pos (by simpa using h)]
  · next h =>
    rw [genMove_gen, hset, if_neg (by simpa using h)]
    rfl

theorem standing_conds : (standing s).conds = s.conds.set Pt.genOverload false := by
  unfold standing
  rw [restoreCapacity_conds]
  split
  · rw [checkpoint_gen.2.1, setGen_conds, genMove_conds]
  · rw [genMove_conds]

/-- From outside READY and LOADED the Bus Regulator is not reported to. -/
theorem genEnter_bus {st : GenState} {x : Word} (h : s.gen.state ≠ .loaded) : (genEnter st x s).bus = s.bus := by
  unfold genEnter
  dsimp only
  rw [if_neg (by simpa using h), logEv_bus]

theorem standing_bus (h : genReady s = false) : (standing s).bus = s.bus := by
  have hmove : (genMove .standby 0 s).bus = s.bus := by
    rw [genMove_of_not_ready h]
    refine genEnter_bus fun e => ?_
    simp [genReady, e] at h
  unfold standing
  rw [restoreCapacity_bus]
  split
  · rw [checkpoint_gen.2.2, setGen_bus, hmove]
  · exact hmove

theorem testRunning_congr (h : t.bus = s.bus) : testRunning t = testRunning s := by rw [testRunning, h, testRunning]

theorem standing_now : now (standing s) = now s := by
  unfold standing
  refine (restoreCapacity_quiet (Quiet.refl _)).now_eq.trans ?_
  split
  · exact (checkpoint_quiet (Quiet.refl _)).now_eq.trans genMove_rest.2.1
  · exact genMove_rest.2.1

/-- STANDBY entered with no series started. -/
theorem enterStandby_waits (hr : genReady s = false) (h : s.gen.requests.isEmpty = true ∨ testRunning s = true) :
    (enterStandby s).gen = s.gen.stand (genCapacity s.settings) (now s) := by
  have hreq : (standing s).gen.requests = s.gen.requests := by rw [standing_gen]; rfl
  rw [enterStandby_eq, seriesStart_waits (by rw [hreq, testRunning_congr (standing_bus hr)]; exact h), standing_gen]

/-- STANDBY entered with a request standing: a series starts at once. -/
theorem enterStandby_begins (hr : genReady s = false) (h : s.gen.requests.isEmpty = false) (ht : testRunning s = false) :
    (enterStandby s).gen = (s.gen.stand (genCapacity s.settings) (now s)).begin (now s) := by
  have hgen := standing_gen (s := s)
  rw [enterStandby_eq, seriesStart_begins (by rw [hgen]; rfl) (by rw [hgen]; exact h)
    (by rw [testRunning_congr (standing_bus hr)]; exact ht), hgen, standing_now]

theorem enterStandby_conds : (enterStandby s).conds = s.conds.set Pt.genOverload false := by
  rw [enterStandby_eq, seriesStart_conds, standing_conds]

/-! ## Faults and starts (R105 to R110, R117) -/

/-- The record of an engine fault. -/
theorem genShutdown_gen {c : ShutdownCause} : (genShutdown c s).gen = { s.gen.enter .shutdown (now s) with cause := c } := by
  unfold genShutdown
  dsimp only
  rw [setCond_gen (by decide), genMove_gen]
  rfl

theorem genShutdown_conds {c : ShutdownCause} : (genShutdown c s).conds = s.conds.set Pt.genShutdown true := by
  unfold genShutdown
  rw [conds_setCond, genMove_conds]
  rfl

theorem checkSwitches_clear (ho : (s.gen.oilArmed && dinLevel s 10) = false) (hc : dinLevel s 11 = false) : checkSwitches s = s := by
  simp [checkSwitches, ho, hc]

theorem checkSwitches_stopped (h : s.gen.state.running = false) : checkSwitches s = s := by simp [checkSwitches, h]

theorem dinLevel_congr {n : Nat} (h : t.inp = s.inp) : dinLevel t n = dinLevel s n := by rw [dinLevel, h, dinLevel]

/-- The state at crank cut before the coolant switch is looked at. -/
def crankEnded (s : State) : State :=
  setCond Pt.genFailStart false (setGen (fun g => { g with
      starts := (g.starts + 1) % 65536, firstFailure := none, barHold := false, ackTaken := false, oilTimer := true, oilArmed := false })
    (addAttempt .started s.gen.peak (genEnter .warmup 0 s)))

/-- The record at crank cut (R107). -/
def Gen.cut (g : Gen) (time : Nat) : Gen :=
  { g.enter .warmup time with
    attempts := pushLast 8 g.attempts ⟨time, g.series, g.attempt, .started, g.peak⟩, starts := (g.starts + 1) % 65536,
    firstFailure := none, barHold := false, ackTaken := false, oilTimer := true, oilArmed := false }

theorem crankCutTaken_eq : crankCutTaken s = checkSwitches (crankEnded s) := rfl

theorem crankEnded_quiet : Quiet s (crankEnded s) := by
  unfold crankEnded
  refine setCond_quiet (setGen_quiet (addAttempt_quiet (genEnter_quiet (Quiet.refl s))) fun h => ?_)
  exact h.congr rfl rfl rfl rfl

theorem crankEnded_gen : (crankEnded s).gen = s.gen.cut (now s) := by
  have hnow : now (genEnter .warmup 0 s) = now s := (genEnter_quiet (Quiet.refl s)).now_eq
  unfold crankEnded
  rw [setCond_gen (by decide), setGen_gen, addAttempt_gen, genEnter_gen, hnow]
  rfl

theorem crankCutTaken_gen (hc : dinLevel s 11 = false) : (crankCutTaken s).gen = s.gen.cut (now s) := by
  have hdin : dinLevel (crankEnded s) 11 = false := (dinLevel_congr crankEnded_quiet.inp_eq).trans hc
  rw [crankCutTaken_eq, checkSwitches_clear _ hdin, crankEnded_gen]
  rw [crankEnded_gen]
  rfl

end Sys2Proof.Machine
end

section
/-! PROOFS. A frequency result of PM0 (O21), by the state of the generator. -/

namespace Sys2Proof.Machine

variable {s t u : State} {f : Nat}

/-! ## The parts of the judgement -/

/-- The result recorded, with the generator's record rewritten. -/
def withGen (g : Gen) (s : State) : State := { s with gen := g }

theorem judgeOverspeed_below (h : f < overspeed s.settings) : judgeOverspeed f s = s :=
  if_neg (by simp [Nat.not_le.2 h])

theorem judgeOverspeed_trips (hr : s.gen.state.running = true) (h : overspeed s.settings ≤ f) :
    judgeOverspeed f s = genShutdown .overspeed s := if_pos (by simp [hr, h])

theorem judgeUnderspeed_other (h : s.gen.state ≠ .loaded) : judgeUnderspeed f s = s := if_neg (by simp [h])

/-- The underspeed span after a result. -/
def underspeedNext (f : Nat) (s : State) : Nat := if f < underspeed s.settings then s.gen.underspeedSpan + 1 else 0

theorem judgeUnderspeed_trips (hl : s.gen.state = .loaded) (h : f < underspeed s.settings) (h10 : 10 ≤ s.gen.underspeedSpan + 1) :
    judgeUnderspeed f s = genShutdown .underspeed (withGen { s.gen with underspeedSpan := s.gen.underspeedSpan + 1 } s) := by
  rw [judgeUnderspeed, if_pos (by simp [hl]), if_pos h]
  exact if_pos h10

theorem judgeUnderspeed_counts (hl : s.gen.state = .loaded) (h : ¬ (f < underspeed s.settings ∧ 10 ≤ underspeedNext f s)) :
    judgeUnderspeed f s = withGen { s.gen with underspeedSpan := underspeedNext f s } s := by
  rw [judgeUnderspeed, if_pos (by simp [hl])]
  by_cases hf : f < underspeed s.settings
  · have hspan : underspeedNext f s = s.gen.underspeedSpan + 1 := if_pos hf
    rw [if_pos hf, hspan]
    rw [hspan] at h
    exact if_neg fun h10 => h ⟨hf, h10⟩
  · have hspan : underspeedNext f s = 0 := if_neg hf
    rw [if_neg hf, hspan]
    rfl

theorem loadChecking_loaded (h : loadChecking s = true) : s.gen.state = .loaded := by
  simp only [loadChecking, Bool.and_eq_true, beq_iff_eq] at h
  exact h.1

theorem judgeDroop_other (h : s.gen.state ≠ .loaded) : judgeDroop f s = s := if_neg (mt loadChecking_loaded h)

/-- The droop span after a result. -/
def droopNext (f : Nat) (s : State) : Nat :=
  if loadChecking s then (if f < droopLimit s.settings then s.gen.droopSpan + 1 else 0) else s.gen.droopSpan

theorem judgeDroop_derates (h : loadChecking s = true) (hf : f < droopLimit s.settings) (h5 : 5 ≤ droopNext f s) :
    judgeDroop f s = derate s := by
  have hspan : droopNext f s = s.gen.droopSpan + 1 := by rw [droopNext, if_pos h, if_pos hf]
  rw [hspan] at h5
  rw [judgeDroop, if_pos h, if_pos hf, if_pos h5]

theorem judgeDroop_counts (h : ¬ (loadChecking s = true ∧ f < droopLimit s.settings ∧ 5 ≤ droopNext f s)) :
    judgeDroop f s = withGen { s.gen with droopSpan := droopNext f s } s := by
  unfold judgeDroop
  by_cases hl : loadChecking s = true
  · by_cases hf : f < droopLimit s.settings
    · have hspan : droopNext f s = s.gen.droopSpan + 1 := by rw [droopNext, if_pos hl, if_pos hf]
      rw [if_pos hl, if_pos hf, hspan]
      rw [hspan] at h
      exact if_neg fun h5 => h ⟨hl, hf, h5⟩
    · have hspan : droopNext f s = 0 := by rw [droopNext, if_pos hl, if_neg hf]
      rw [if_pos hl, if_neg hf, hspan]
      rfl
  · have hspan : droopNext f s = s.gen.droopSpan := by rw [droopNext, if_neg hl]
    rw [if_neg hl, hspan]
    rfl

theorem derate_gen : (derate s).gen = { s.gen with
    capacity := max (s.gen.capacity - largestOnline s) (smallestPresent s), derates := satInc s.gen.derates, droopSpan := 0 } := by
  unfold derate
  dsimp only
  rw [handCapacity_gen, setCond_gen (by decide), logEv_gen]
  rfl

theorem derate_conds : (derate s).conds = s.conds.set Pt.genOverload true := by
  unfold derate
  dsimp only
  rw [handCapacity_conds, conds_setCond, logEv_conds]
  rfl

theorem judgeWarmup_ready (h : inFreqWindow s s.gen.lastFreq = true) : (judgeWarmup s).gen =
    { s.gen.enter .ready (now s) with
      runStart := some (now s), fuelAtStart := s.gen.fuelUsed, fuelThisRun := 0, limitActed := false } := by
  rw [judgeWarmup, if_pos h]
  simp only [setGen_gen, genEnter_gen]
  rfl

theorem judgeWarmup_faults (h : inFreqWindow s s.gen.lastFreq = false) : judgeWarmup s = genShutdown .warmupFreq s :=
  if_neg (by simp [h])

/-! ## The withdrawal of GEN_FAIL_STOP (R116) -/

theorem noteStopped_above (h : 0 < f) : noteStopped f s = s := if_neg (by omega)
theorem noteStopped_zero : noteStopped 0 s = setCond Pt.genFailStop false s := if_pos rfl

theorem noteStopped_gen : (noteStopped f s).gen = s.gen := by
  unfold noteStopped
  split
  · exact setCond_gen (by decide)
  · rfl

theorem noteStopped_ros : (noteStopped f s).ros = s.ros := by
  unfold noteStopped
  split
  · exact setCond_ros
  · rfl

theorem noteStopped_condOf {p : Nat} (h : p ≠ Pt.genFailStop) : condOf (noteStopped f s) p = condOf s p := by
  unfold noteStopped
  split
  · exact condOf_setCond_ne h.symm
  · rfl

/-- What a result of 0 leaves of the parts that are judged after it. -/
theorem noteStopped_reads : (noteStopped f s).settings = s.settings ∧ now (noteStopped f s) = now s ∧ (noteStopped f s).st = s.st := by
  have h := noteStopped_quiet (Quiet.refl s) (f := f)
  exact ⟨h.settings_eq, h.now_eq, h.st_eq⟩

/-! ## The whole judgement, by state -/

/-- The result recorded. -/
def noted (f : Nat) (s : State) : State :=
  { s with pm := { s.pm with pm0Seen := s.pm.pm0Seen || decide (0 < f) }, gen := { s.gen with lastFreq := f } }

theorem pm0Result_inRun (hr : inRun s = true) :
    pm0Result f s = judgeStopOrDroop f (noteStopped f (judgeSpeed f (notePeak f (noted f s)))) := if_pos hr

theorem notePeak_other (h : s.gen.state ≠ .cranking) : notePeak f s = s := if_neg (by simp [h])

theorem notePeak_cranking (h : s.gen.state = .cranking) : notePeak f s = withGen { s.gen with peak := max s.gen.peak f } s :=
  if_pos (by simp [h])

theorem judgeStopOrDroop_other (hs : s.gen.state ≠ .stopping) (hl : s.gen.state ≠ .loaded) : judgeStopOrDroop f s = s := by
  rw [judgeStopOrDroop, if_neg (by simpa using hs), judgeDroop_other hl]

section Cranking

variable (hr : inRun s = true) (hs : s.gen.state = .cranking)
include hr hs

/-- A result below crank cut is compared with the peak. -/
theorem pm0Result_cranks (hf : f < crankCut s.settings) :
    pm0Result f s = noteStopped f (withGen { s.gen with lastFreq := f, peak := max s.gen.peak f } (noted f s)) := by
  have hpeak : notePeak f (noted f s) = withGen { s.gen with lastFreq := f, peak := max s.gen.peak f } (noted f s) := notePeak_cranking hs
  have hspeed : judgeSpeed f (withGen { s.gen with lastFreq := f, peak := max s.gen.peak f } (noted f s)) =
      withGen { s.gen with lastFreq := f, peak := max s.gen.peak f } (noted f s) := by
    simp only [judgeSpeed, withGen, hs]
    exact if_neg (Nat.not_le.2 hf)
  rw [pm0Result_inRun hr, hpeak, hspeed, judgeStopOrDroop_other] <;> rw [noteStopped_gen] <;> simp [withGen, hs]

/-- The state of an engine that reaches crank cut, before overspeed is judged. -/
def fired (f : Nat) (s : State) : State := crankCutTaken (notePeak f (noted f s))

omit hr in
theorem fired_gen (hc : dinLevel s 11 = false) :
    (fired f s).gen = { s.gen with lastFreq := f, peak := max s.gen.peak f }.cut (now s) := by
  have hpeak : notePeak f (noted f s) = withGen { s.gen with lastFreq := f, peak := max s.gen.peak f } (noted f s) := notePeak_cranking hs
  rw [fired, crankCutTaken_gen (by rw [hpeak]; exact hc), hpeak]
  rfl

omit hr hs in
theorem fired_settings : (fired f s).settings = s.settings :=
  ((crankCutTaken_quiet (notePeak_quiet (Quiet.refl (noted f s)))).settings_eq)

omit hr in
theorem judgeSpeed_fires (hf : crankCut s.settings ≤ f) : judgeSpeed f (notePeak f (noted f s)) = judgeOverspeed f (fired f s) := by
  have hpeak : notePeak f (noted f s) = withGen { s.gen with lastFreq := f, peak := max s.gen.peak f } (noted f s) := notePeak_cranking hs
  have hstate : (notePeak f (noted f s)).gen.state = .cranking := by rw [hpeak]; exact hs
  have hset : (notePeak f (noted f s)).settings = s.settings := by rw [hpeak]; rfl
  rw [judgeSpeed, hstate]
  simp only [hset, if_pos hf, fired]

/-- Crank cut. -/
theorem pm0Result_fires (hc : dinLevel s 11 = false) (hf : crankCut s.settings ≤ f) (hv : f < overspeed s.settings) :
    (pm0Result f s).gen = { s.gen with lastFreq := f, peak := max s.gen.peak f }.cut (now s) := by
  have hgen := fired_gen (f := f) hs hc
  have hspeed : judgeSpeed f (notePeak f (noted f s)) = fired f s := by
    rw [judgeSpeed_fires hs hf, judgeOverspeed_below (by rw [fired_settings]; exact hv)]
  have hstate : (noteStopped f (fired f s)).gen.state = .warmup := by rw [noteStopped_gen, hgen]; rfl
  rw [pm0Result_inRun hr, hspeed, judgeStopOrDroop_other (by simp [hstate]) (by simp [hstate]), noteStopped_gen, hgen]

/-- Crank cut at or above overspeed. -/
theorem pm0Result_overruns (hc : dinLevel s 11 = false) (hf : crankCut s.settings ≤ f) (hv : overspeed s.settings ≤ f) :
    (pm0Result f s).gen.state = .shutdown ∧ (pm0Result f s).gen.cause = .overspeed := by
  have hgen := fired_gen (f := f) hs hc
  have hspeed : judgeSpeed f (notePeak f (noted f s)) = genShutdown .overspeed (fired f s) := by
    rw [judgeSpeed_fires hs hf, judgeOverspeed_trips (by rw [hgen]; rfl) (by rw [fired_settings]; exact hv)]
  have hshut : (noteStopped f (genShutdown .overspeed (fired f s))).gen =
      { (fired f s).gen.enter .shutdown (now (fired f s)) with cause := .overspeed } := by rw [noteStopped_gen, genShutdown_gen]
  have hstate : (noteStopped f (genShutdown .overspeed (fired f s))).gen.state = .shutdown := by rw [hshut]; rfl
  rw [pm0Result_inRun hr, hspeed, judgeStopOrDroop_other (by simp [hstate]) (by simp [hstate]), hshut]
  exact ⟨rfl, rfl⟩

end Cranking

/-- The record in a state in which no engine cranks, runs or stops: the result and the rundown's watch. -/
theorem judgeSpeed_stopped (hs : s.gen.state ≠ .cranking) (hrun : s.gen.state.running = false) : judgeSpeed f s = noteRundown f s := by
  unfold judgeSpeed noteRundown
  split <;> simp_all [GenState.running]

theorem noteRundown_above (h : 0 < f) : noteRundown f s = s := if_neg (by simp; omega)

theorem noteRundown_zero : (noteRundown 0 s).gen = { s.gen with
    rundownWatch := s.gen.rundownWatch && s.gen.state != .shutdown, rundownDue := s.gen.rundownDue && s.gen.state != .shutdown } := by
  unfold noteRundown
  split
  · next h =>
    simp only [beq_self_eq_true, Bool.and_true, beq_iff_eq] at h
    simp [h]
  · next h =>
    simp only [beq_self_eq_true, Bool.and_true, beq_iff_eq] at h
    have hne : (s.gen.state != .shutdown) = true := bne_iff_ne.2 h
    simp [hne]

theorem noteRundown_rest : (noteRundown f s).gen.state = s.gen.state ∧ (noteRundown f s).pm = s.pm := by
  unfold noteRundown
  split <;> exact ⟨rfl, rfl⟩

theorem ne_loaded_of_stopped (h : s.gen.state.running = false) : s.gen.state ≠ .loaded := fun e => by simp [e, GenState.running] at h

section Stopped

variable (hr : inRun s = true) (hs : s.gen.state ≠ .cranking) (hrun : s.gen.state.running = false)
include hr hs hrun

theorem pm0Result_stopped : pm0Result f s = judgeStopOrDroop f (noteStopped f (noteRundown f (noted f s))) := by
  rw [pm0Result_inRun hr, notePeak_other (s := noted f s) hs, judgeSpeed_stopped (s := noted f s) hs hrun]

/-- A result above 0 is recorded alone. -/
theorem pm0Result_alone (hf : 0 < f) : pm0Result f s = noted f s := by
  rw [pm0Result_stopped hr hs hrun, noteRundown_above hf, noteStopped_above hf]
  unfold judgeStopOrDroop
  split
  · exact if_neg (by omega)
  · exact judgeDroop_other (ne_loaded_of_stopped hrun)

theorem pm0Result_zero (hstop : s.gen.state ≠ .stopping) : pm0Result 0 s = setCond Pt.genFailStop false (noteRundown 0 (noted 0 s)) := by
  have hstate : (noteStopped 0 (noteRundown 0 (noted 0 s))).gen.state = s.gen.state := by
    rw [noteStopped_gen, noteRundown_rest.1]
    rfl
  rw [pm0Result_stopped hr hs hrun, judgeStopOrDroop_other (by rw [hstate]; exact hstop)
    (by rw [hstate]; exact ne_loaded_of_stopped hrun), noteStopped_zero]

end Stopped

section Stopping

variable (hr : inRun s = true) (hs : s.gen.state = .stopping)
include hr hs

/-- The state as a stop is confirmed. -/
theorem pm0Result_confirms : pm0Result 0 s = confirmStop (setCond Pt.genFailStop false (noted 0 s)) := by
  have hrun : noteRundown 0 (noted 0 s) = noted 0 s := if_neg (by simp [noted, hs])
  have hstate : (setCond Pt.genFailStop false (noted 0 s)).gen.state = .stopping := by rw [setCond_gen (by decide)]; exact hs
  rw [pm0Result_stopped hr (by simp [hs]) (by simp [hs, GenState.running]), hrun, noteStopped_zero, judgeStopOrDroop,
    if_pos (by simp [hstate]), if_pos rfl]

end Stopping

section Running

variable (hr : inRun s = true) (hs : s.gen.state.running = true)
include hr hs

omit hr in
theorem ne_cranking_of_running : s.gen.state ≠ .cranking := fun e => by simp [e, GenState.running] at hs

theorem pm0Result_running : pm0Result f s = judgeStopOrDroop f (noteStopped f (judgeSpeed f (noted f s))) := by
  rw [pm0Result_inRun hr, notePeak_other (s := noted f s) (ne_cranking_of_running hs)]

/-- An engine stopped for a fault is judged no more. -/
theorem pm0Result_faults {c : ShutdownCause} {u : State} (h : judgeSpeed f (noted f s) = genShutdown c u) :
    pm0Result f s = noteStopped f (genShutdown c u) := by
  have hstate : (noteStopped f (genShutdown c u)).gen.state = .shutdown := by
    rw [noteStopped_gen, genShutdown_gen]
    rfl
  rw [pm0Result_running hr hs, h, judgeStopOrDroop_other (by simp [hstate]) (by simp [hstate])]

omit hr hs in
/-- The states in which the engine runs. -/
theorem running_cases {st : GenState} (h : st.running = true) : st = .warmup ∨ st = .ready ∨ st = .loaded ∨ st = .cooldown := by
  cases st <;> simp_all [GenState.running]

omit hr in
/-- A result at or above overspeed stops a running engine, whatever else it completes. -/
theorem judgeSpeed_overspeed (hv : overspeed s.settings ≤ f) : judgeSpeed f (noted f s) = genShutdown .overspeed (noted f s) := by
  have htrip : judgeOverspeed f (noted f s) = genShutdown .overspeed (noted f s) := judgeOverspeed_trips (s := noted f s) hs hv
  have hstate : (genShutdown .overspeed (noted f s)).gen.state = .shutdown := by rw [genShutdown_gen]; rfl
  have hunder : judgeUnderspeed f (genShutdown .overspeed (noted f s)) = genShutdown .overspeed (noted f s) :=
    judgeUnderspeed_other (by simp [hstate])
  rcases running_cases hs with h | h | h | h <;> unfold judgeSpeed <;> rw [show (noted f s).gen.state = s.gen.state from rfl, h]
  · simp only [htrip, hstate]
    exact if_neg (by simp)
  all_goals simp only [htrip, hunder]

omit hr hs in
/-- What a fault leaves: the record in SHUTDOWN with its cause, and the condition. -/
theorem noteStopped_shutdown {c : ShutdownCause} {u : State} (hu : u.conds.length = 32) :
    (noteStopped f (genShutdown c u)).gen = { u.gen.enter .shutdown (now u) with cause := c } ∧
      condOf (noteStopped f (genShutdown c u)) Pt.genShutdown = true := by
  refine ⟨by rw [noteStopped_gen, genShutdown_gen], ?_⟩
  rw [noteStopped_condOf (by decide), condOf, genShutdown_conds]
  simp [List.getD, hu, Pt.genShutdown]

omit hs in
/-- A LOADED engine below overspeed. -/
theorem pm0Result_loaded (hl : s.gen.state = .loaded) (hv : f < overspeed s.settings) :
    pm0Result f s = judgeStopOrDroop f (noteStopped f (judgeUnderspeed f (noted f s))) := by
  have hspeed : judgeSpeed f (noted f s) = judgeUnderspeed f (noted f s) := by
    unfold judgeSpeed
    rw [show (noted f s).gen.state = .loaded from hl]
    simp only [judgeOverspeed_below (s := noted f s) hv]
  rw [pm0Result_running hr (by rw [hl]; rfl), hspeed]

omit hs in
/-- The state of a LOADED engine whose underspeed span does not complete, before the load check. -/
theorem pm0Result_loaded_counts (hl : s.gen.state = .loaded) (hv : f < overspeed s.settings)
    (h : ¬ (f < underspeed s.settings ∧ 10 ≤ underspeedNext f s)) :
    pm0Result f s = judgeDroop f (noteStopped f (withGen { s.gen with lastFreq := f, underspeedSpan := underspeedNext f s } (noted f s))) := by
  have hunder : judgeUnderspeed f (noted f s) = withGen { s.gen with lastFreq := f, underspeedSpan := underspeedNext f s } (noted f s) :=
    judgeUnderspeed_counts (s := noted f s) hl h
  rw [pm0Result_loaded hr hl hv, hunder]
  refine if_neg ?_
  rw [noteStopped_gen]
  simp [withGen, hl]

/-- A running engine that is not LOADED, below overspeed. -/
theorem pm0Result_recorded (hl : s.gen.state ≠ .loaded) (hv : f < overspeed s.settings)
    (hw : s.gen.state ≠ .warmup ∨ s.gen.warmupDue = false) : pm0Result f s = noteStopped f (noted f s) := by
  have hspeed : judgeSpeed f (noted f s) = noted f s := by
    have hover : judgeOverspeed f (noted f s) = noted f s := judgeOverspeed_below hv
    have hunder : judgeUnderspeed f (noted f s) = noted f s := judgeUnderspeed_other hl
    rcases running_cases hs with h | h | h | h <;> unfold judgeSpeed <;> rw [show (noted f s).gen.state = s.gen.state from rfl, h]
    · simp only [hover]
      exact if_neg (by simp_all [noted])
    all_goals simp only [hover, hunder]
  rw [pm0Result_running hr hs, hspeed, judgeStopOrDroop_other] <;> rw [noteStopped_gen]
  · intro h
    have hstop : s.gen.state = .stopping := h
    simp [hstop, GenState.running] at hs
  · exact hl

omit hr hs in
/-- A WARMUP whose judgement is due. -/
theorem judgeSpeed_warmup (hw : s.gen.state = .warmup) (hd : s.gen.warmupDue = true) (hv : f < overspeed s.settings) :
    judgeSpeed f (noted f s) = judgeWarmup (noted f s) := by
  unfold judgeSpeed
  rw [show (noted f s).gen.state = .warmup from hw]
  simp only [judgeOverspeed_below (s := noted f s) hv]
  exact if_pos (by simp [noted, hw, hd])

omit hs in
theorem pm0Result_warms (hw : s.gen.state = .warmup) (hd : s.gen.warmupDue = true) (hv : f < overspeed s.settings)
    (h : inFreqWindow s f = true) : (pm0Result f s).gen = { { s.gen with lastFreq := f }.enter .ready (now s) with
      runStart := some (now s), fuelAtStart := s.gen.fuelUsed, fuelThisRun := 0, limitActed := false } := by
  have hgen : (noteStopped f (judgeWarmup (noted f s))).gen = _ := noteStopped_gen.trans (judgeWarmup_ready (s := noted f s) h)
  rw [pm0Result_running hr (by rw [hw]; rfl), judgeSpeed_warmup hw hd hv, judgeStopOrDroop_other (by simp [hgen, Gen.enter])
    (by simp [hgen, Gen.enter]), hgen]
  rfl

end Running

theorem largestOnline_congr (h : t.ros = s.ros) (hs : t.settings = s.settings) : largestOnline t = largestOnline s := by
  simp only [largestOnline, ratingsOf, modulesIn, modState, modRec, h, hs]

theorem smallestPresent_congr (h : t.st = s.st) (hs : t.settings = s.settings) : smallestPresent t = smallestPresent s := by
  have hpresent : modulePresent t = modulePresent s := by
    funext m
    rw [modulePresent, h, modulePresent]
  simp only [smallestPresent, ratingsOf, hpresent, hs]

theorem loadChecking_congr (h : t.gen.state = s.gen.state) (hf : t.gen.loadCheckFrom = s.gen.loadCheckFrom) (hn : now t = now s) :
    loadChecking t = loadChecking s := by rw [loadChecking, loadChecking, h, hf, hn]

section LoadCheck

variable (hr : inRun s = true) (hl : s.gen.state = .loaded) (hv : f < overspeed s.settings)
  (h : ¬ (f < underspeed s.settings ∧ 10 ≤ underspeedNext f s))
include hr hl hv h

omit hr hl hv h in
/-- The load check of a LOADED engine whose underspeed span does not complete reads what the engine had. -/
theorem loadCheck_reads :
    let u := noteStopped f (withGen { s.gen with lastFreq := f, underspeedSpan := underspeedNext f s } (noted f s))
    u.gen = { s.gen with lastFreq := f, underspeedSpan := underspeedNext f s } ∧ loadChecking u = loadChecking s ∧
      u.settings = s.settings ∧ droopNext f u = droopNext f s := by
  intro u
  have hgen : u.gen = { s.gen with lastFreq := f, underspeedSpan := underspeedNext f s } := noteStopped_gen
  obtain ⟨hset, hnow, hst⟩ := noteStopped_reads (f := f)
    (s := withGen { s.gen with lastFreq := f, underspeedSpan := underspeedNext f s } (noted f s))
  have hcheck : loadChecking u = loadChecking s := loadChecking_congr (by rw [hgen]) (by rw [hgen]) hnow
  have hset' : u.settings = s.settings := hset
  exact ⟨hgen, hcheck, hset', by rw [droopNext, droopNext, hcheck, hset', hgen]⟩

theorem pm0Result_droops (hd : ¬ (loadChecking s = true ∧ f < droopLimit s.settings ∧ 5 ≤ droopNext f s)) :
    pm0Result f s = withGen { s.gen with lastFreq := f, underspeedSpan := underspeedNext f s, droopSpan := droopNext f s }
      (noteStopped f (withGen { s.gen with lastFreq := f, underspeedSpan := underspeedNext f s } (noted f s))) := by
  obtain ⟨hgen, hcheck, hset, hdroop⟩ := loadCheck_reads (f := f) (s := s)
  rw [pm0Result_loaded_counts hr hl hv h, judgeDroop_counts (by rw [hcheck, hset, hdroop]; exact hd), hdroop, hgen]

theorem pm0Result_derates (hc : loadChecking s = true) (hf : f < droopLimit s.settings) (h5 : 5 ≤ droopNext f s) :
    (pm0Result f s).gen = { s.gen with
      lastFreq := f, underspeedSpan := underspeedNext f s, droopSpan := 0, derates := satInc s.gen.derates,
      capacity := max (s.gen.capacity - largestOnline s) (smallestPresent s) } := by
  obtain ⟨hgen, hcheck, hset, hdroop⟩ := loadCheck_reads (f := f) (s := s)
  obtain ⟨-, -, hst⟩ := noteStopped_reads (f := f)
    (s := withGen { s.gen with lastFreq := f, underspeedSpan := underspeedNext f s } (noted f s))
  have hros := noteStopped_ros (f := f) (s := withGen { s.gen with lastFreq := f, underspeedSpan := underspeedNext f s } (noted f s))
  rw [pm0Result_loaded_counts hr hl hv h, judgeDroop_derates (by rw [hcheck, hc]) (by rw [hset]; exact hf) (by rw [hdroop]; exact h5),
    derate_gen, hgen, largestOnline_congr (s := s) hros hset, smallestPresent_congr (s := s) hst hset]

theorem pm0Result_overload (hs : s.conds.length = 32) (hc : loadChecking s = true) (hf : f < droopLimit s.settings) (h5 : 5 ≤ droopNext f s) :
    condOf (pm0Result f s) Pt.genOverload = true := by
  obtain ⟨hgen, hcheck, hset, hdroop⟩ := loadCheck_reads (f := f) (s := s)
  rw [pm0Result_loaded_counts hr hl hv h, judgeDroop_derates (by rw [hcheck, hc]) (by rw [hset]; exact hf) (by rw [hdroop]; exact h5)]
  refine condOf_set derate_conds ?_
  have hlen : ∀ u : State, (noteStopped f u).conds.length = u.conds.length := by
    intro u
    unfold noteStopped
    split
    · rw [conds_setCond, List.length_set]
    · rfl
  rw [hlen]
  exact hs.symm ▸ (by decide : Pt.genOverload < 32)

end LoadCheck

end Sys2Proof.Machine
end

section
/-! PROOFS. A frequency result of PM0 (O21): the obligation. -/

namespace Sys2Proof.Machine

variable {s t u : State} {f : Nat}

/-! ## The last frequency -/

theorem judgeOverspeed_lastFreq : (judgeOverspeed f s).gen.lastFreq = s.gen.lastFreq := by
  unfold judgeOverspeed
  split
  · rw [genShutdown_gen]
    rfl
  · rfl

theorem judgeUnderspeed_lastFreq : (judgeUnderspeed f s).gen.lastFreq = s.gen.lastFreq := by
  unfold judgeUnderspeed
  dsimp only
  split
  · split
    · split
      · rw [genShutdown_gen]
        rfl
      · rfl
    · rfl
  · rfl

theorem checkSwitches_lastFreq : (checkSwitches s).gen.lastFreq = s.gen.lastFreq := by
  unfold checkSwitches
  split
  · split
    · rw [genShutdown_gen]
      rfl
    · split
      · rw [genShutdown_gen]
        rfl
      · rfl
  · rfl

theorem crankCutTaken_lastFreq : (crankCutTaken s).gen.lastFreq = s.gen.lastFreq := by
  rw [crankCutTaken_eq, checkSwitches_lastFreq, crankEnded_gen]
  rfl

theorem judgeWarmup_lastFreq : (judgeWarmup s).gen.lastFreq = s.gen.lastFreq := by
  unfold judgeWarmup
  split
  · simp only [setGen_gen, genEnter_gen]
    rfl
  · rw [genShutdown_gen]
    rfl

theorem judgeSpeed_lastFreq : (judgeSpeed f s).gen.lastFreq = s.gen.lastFreq := by
  unfold judgeSpeed
  split
  · split
    · exact judgeOverspeed_lastFreq.trans crankCutTaken_lastFreq
    · rfl
  · dsimp only
    split
    · exact judgeWarmup_lastFreq.trans judgeOverspeed_lastFreq
    · exact judgeOverspeed_lastFreq
  · exact judgeUnderspeed_lastFreq.trans judgeOverspeed_lastFreq
  · exact judgeUnderspeed_lastFreq.trans judgeOverspeed_lastFreq
  · exact judgeUnderspeed_lastFreq.trans judgeOverspeed_lastFreq
  · unfold noteRundown
    split <;> rfl
  all_goals rfl

theorem seriesStart_lastFreq : (seriesStart s).gen.lastFreq = s.gen.lastFreq := by
  unfold seriesStart
  split
  · dsimp only
    rw [genEnter_gen]
    rfl
  · rfl

theorem judgeStopOrDroop_lastFreq : (judgeStopOrDroop f s).gen.lastFreq = s.gen.lastFreq := by
  unfold judgeStopOrDroop
  split
  · split
    · unfold confirmStop
      split
      · rw [genMove_gen]
        rfl
      · rw [enterStandby_eq, seriesStart_lastFreq, standing_gen]
        rfl
    · rfl
  · unfold judgeDroop
    split
    · split
      · split
        · rw [derate_gen]
        · rfl
      · rfl
    · rfl

theorem pm0Result_lastFreq (hr : inRun s = true) : (pm0Result f s).gen.lastFreq = f := by
  have hpeak : (notePeak f (noted f s)).gen.lastFreq = f := by
    unfold notePeak
    split <;> rfl
  rw [pm0Result_inRun hr, judgeStopOrDroop_lastFreq, noteStopped_gen, judgeSpeed_lastFreq, hpeak]

/-! ## A stop confirmed (R116) -/

theorem stopNoted_gen : (setCond Pt.genFailStop false (noted 0 s)).gen = { s.gen with lastFreq := 0 } := setCond_gen (by decide)

theorem stopNoted_reads : (setCond Pt.genFailStop false (noted 0 s)).settings = s.settings ∧
    now (setCond Pt.genFailStop false (noted 0 s)) = now s ∧
    testRunning (setCond Pt.genFailStop false (noted 0 s)) = testRunning s :=
  ⟨setCond_settings, congrArg Clock.value setCond_clk, testRunning_congr (withdrawCond_bus (by decide))⟩

section Stopping

variable (hr : inRun s = true) (hs : s.gen.state = .stopping)
include hr hs

theorem pm0Result_disabled (hd : s.gen.destDisabled = true) :
    (pm0Result 0 s).gen = { s.gen with lastFreq := 0 }.enter .disabled (now s) ∧
      (pm0Result 0 s).conds = s.conds.set Pt.genFailStop false := by
  have hgen := stopNoted_gen (s := s)
  rw [pm0Result_confirms hr hs, confirmStop, if_pos (by rw [hgen]; exact hd), genMove_gen, genMove_conds, hgen, (stopNoted_reads).2.1,
    conds_setCond]
  exact ⟨rfl, rfl⟩

theorem pm0Result_stands (hd : s.gen.destDisabled = false) :
    pm0Result 0 s = enterStandby (setCond Pt.genFailStop false (noted 0 s)) := by
  rw [pm0Result_confirms hr hs, confirmStop, if_neg (by rw [stopNoted_gen]; simp [hd])]

theorem pm0Result_stands_conds (hd : s.gen.destDisabled = false) :
    (pm0Result 0 s).conds = (s.conds.set Pt.genFailStop false).set Pt.genOverload false := by
  rw [pm0Result_stands hr hs hd, enterStandby_conds, conds_setCond]
  rfl

omit hr in
theorem stopNoted_not_ready : genReady (setCond Pt.genFailStop false (noted 0 s)) = false := by
  rw [genReady, stopNoted_gen]
  simp [hs]

theorem pm0Result_standby (hd : s.gen.destDisabled = false) (h : s.gen.requests.isEmpty = true ∨ testRunning s = true) :
    (pm0Result 0 s).gen = { s.gen with lastFreq := 0 }.stand (genCapacity s.settings) (now s) := by
  obtain ⟨hset, hnow, htest⟩ := stopNoted_reads
  rw [pm0Result_stands hr hs hd, enterStandby_waits (stopNoted_not_ready hs) (by rw [stopNoted_gen, htest]; exact h),
    stopNoted_gen, hset, hnow]

theorem pm0Result_prestart (hd : s.gen.destDisabled = false) (h : s.gen.requests.isEmpty = false) (ht : testRunning s = false) :
    (pm0Result 0 s).gen = ({ s.gen with lastFreq := 0 }.stand (genCapacity s.settings) (now s)).begin (now s) := by
  obtain ⟨hset, hnow, htest⟩ := stopNoted_reads
  rw [pm0Result_stands hr hs hd, enterStandby_begins (stopNoted_not_ready hs) (by rw [stopNoted_gen]; exact h)
    (by rw [htest]; exact ht), stopNoted_gen, hset, hnow]

end Stopping

/-! ## The obligation -/

/-- The first group: every result, and those of CRANKING and of the states in which no engine runs or stops. -/
theorem pm0Result_first (hr : inRun s = true) :
    (pm0Result f s).gen.lastFreq = f ∧
    (s.gen.state = .cranking → f < crankCut s.settings → 0 < f → pm0Result f s =
      { s with
        pm := { s.pm with pm0Seen := s.pm.pm0Seen || decide (0 < f) }, gen := { s.gen with lastFreq := f, peak := max s.gen.peak f } }) ∧
    (s.gen.state = .cranking → f < crankCut s.settings → f = 0 →
      pm0Result f s = setCond Pt.genFailStop false { s with gen := { s.gen with lastFreq := 0 } } ∧
        condOf (pm0Result f s) Pt.genFailStop = false) ∧
    (s.gen.state ≠ .cranking → s.gen.state ≠ .stopping → s.gen.state.running = false → f = 0 →
      (pm0Result f s).gen = { s.gen with
        lastFreq := 0, rundownWatch := s.gen.rundownWatch && s.gen.state != .shutdown,
        rundownDue := s.gen.rundownDue && s.gen.state != .shutdown } ∧ (pm0Result f s).pm = s.pm ∧
        condOf (pm0Result f s) Pt.genFailStop = false) := by
  have hseen : noted 0 s = { s with gen := { s.gen with lastFreq := 0 } } := by simp [noted]
  refine ⟨pm0Result_lastFreq hr, fun hs hf h0 => ?_, fun hs hf h0 => ?_, fun hs hstop hrun h0 => ?_⟩
  · rw [pm0Result_cranks hr hs hf, noteStopped_above h0]
    rfl
  · subst h0
    have hpeak : max s.gen.peak 0 = s.gen.peak := Nat.max_zero _
    rw [pm0Result_cranks hr hs hf, noteStopped_zero, hpeak, hseen]
    exact ⟨rfl, condOf_withdrawn⟩
  · subst h0
    rw [pm0Result_zero hr hs hrun hstop]
    refine ⟨?_, ?_, condOf_withdrawn⟩
    · rw [setCond_gen (by decide), noteRundown_zero]
      rfl
    · rw [setCond_pm, noteRundown_rest.2, hseen]

/-- A stop confirmed by a result of 0. -/
theorem pm0Result_second (hsh : Shape s) (hr : inRun s = true) (hs : s.gen.state = .stopping) :
    condOf (pm0Result 0 s) Pt.genFailStop = false ∧ (pm0Result 0 s).gen.requests = s.gen.requests ∧
      (s.gen.destDisabled = true → (pm0Result 0 s).gen.state = .disabled ∧
        ((pm0Result 0 s).gen.pre, (pm0Result 0 s).gen.run, (pm0Result 0 s).gen.crank) = (.released, .released, .released)) ∧
      (s.gen.destDisabled = false → (pm0Result 0 s).gen.lastRunEnd = now s ∧ (pm0Result 0 s).gen.capacity = genCapacity s.settings ∧
        (pm0Result 0 s).gen.derates = 0 ∧ condOf (pm0Result 0 s) Pt.genOverload = false ∧
        (s.gen.requests.isEmpty = true ∨ testRunning s = true → (pm0Result 0 s).gen.state = .standby ∧
          ((pm0Result 0 s).gen.pre, (pm0Result 0 s).gen.run, (pm0Result 0 s).gen.crank) = (.released, .released, .released)) ∧
        (s.gen.requests.isEmpty = false → testRunning s = false → (pm0Result 0 s).gen.state = .prestart ∧
          (pm0Result 0 s).gen.attempt = 1 ∧ (pm0Result 0 s).gen.series = (s.gen.series + 1) % 65536)) := by
  have hlen := conds_length hsh
  cases hd : s.gen.destDisabled with
  | true =>
    obtain ⟨hgen, hconds⟩ := pm0Result_disabled hr hs hd
    refine ⟨condOf_set hconds (by rw [hlen]; decide), by rw [hgen]; rfl, fun _ => by rw [hgen]; exact ⟨rfl, rfl⟩, nofun⟩
  | false =>
    have hconds := pm0Result_stands_conds hr hs hd
    have hstop : condOf (pm0Result 0 s) Pt.genFailStop = false := by
      rw [condOf_set_ne hconds (by decide)]
      simp [List.getD, hlen, Pt.genFailStop]
    have hover : condOf (pm0Result 0 s) Pt.genOverload = false := condOf_set hconds (by rw [List.length_set, hlen]; decide)
    by_cases hwait : s.gen.requests.isEmpty = true ∨ testRunning s = true
    · have hgen := pm0Result_standby hr hs hd hwait
      rw [hgen]
      refine ⟨hstop, rfl, nofun, fun _ => ⟨if_pos hs, rfl, rfl, hover, fun _ => ⟨rfl, rfl⟩, fun hreq ht => ?_⟩⟩
      rcases hwait with h | h
      · rw [h] at hreq
        cases hreq
      · rw [h] at ht
        cases ht
    · obtain ⟨hreq, ht⟩ := not_or.1 hwait
      have hgen := pm0Result_prestart hr hs hd (Bool.eq_false_iff.2 hreq) (Bool.eq_false_iff.2 ht)
      rw [hgen]
      exact ⟨hstop, rfl, nofun, fun _ => ⟨if_pos hs, rfl, rfl, hover, fun h => absurd h hwait, fun _ _ => ⟨rfl, rfl, rfl⟩⟩⟩

/-- A fault taken on a result. -/
theorem pm0Result_shutdown {c : ShutdownCause} {g : Gen} (hsh : Shape s) (hr : inRun s = true) (hrun : s.gen.state.running = true)
    (h : judgeSpeed f (noted f s) = genShutdown c (withGen g (noted f s))) (hg : g.requests = s.gen.requests) :
    (pm0Result f s).gen.state = .shutdown ∧ (pm0Result f s).gen.cause = c ∧
      ((pm0Result f s).gen.pre, (pm0Result f s).gen.run, (pm0Result f s).gen.crank) = (.released, .released, .released) ∧
      (pm0Result f s).gen.requests = s.gen.requests ∧ condOf (pm0Result f s) Pt.genShutdown = true := by
  obtain ⟨hgen, hcond⟩ := noteStopped_shutdown (f := f) (c := c) (u := withGen g (noted f s)) (conds_length hsh)
  rw [pm0Result_faults hr hrun h]
  exact ⟨by rw [hgen]; rfl, by rw [hgen], by rw [hgen]; rfl, by rw [hgen]; exact hg, hcond⟩

/-- A LOADED engine below overspeed. -/
theorem pm0Result_fourth (hsh : Shape s) (hr : inRun s = true) (hl : s.gen.state = .loaded) (hv : f < overspeed s.settings) :
    (f < underspeed s.settings → 10 ≤ underspeedNext f s →
      (pm0Result f s).gen.state = .shutdown ∧ (pm0Result f s).gen.cause = .underspeed ∧
        ((pm0Result f s).gen.pre, (pm0Result f s).gen.run, (pm0Result f s).gen.crank) = (.released, .released, .released) ∧
        (pm0Result f s).gen.requests = s.gen.requests ∧ condOf (pm0Result f s) Pt.genShutdown = true) ∧
    (¬ (f < underspeed s.settings ∧ 10 ≤ underspeedNext f s) →
      (¬ (loadChecking s = true ∧ f < droopLimit s.settings ∧ 5 ≤ droopNext f s) →
        (pm0Result f s).gen = { s.gen with lastFreq := f, underspeedSpan := underspeedNext f s, droopSpan := droopNext f s } ∧
        (0 < f → pm0Result f s = { noted f s with gen := (pm0Result f s).gen })) ∧
      (loadChecking s = true ∧ f < droopLimit s.settings ∧ 5 ≤ droopNext f s → condOf (pm0Result f s) Pt.genOverload = true ∧
        (pm0Result f s).gen = { s.gen with
          lastFreq := f, underspeedSpan := underspeedNext f s, droopSpan := 0, derates := satInc s.gen.derates,
          capacity := max (s.gen.capacity - largestOnline s) (smallestPresent s) })) := by
  have hrun : s.gen.state.running = true := by rw [hl]; rfl
  refine ⟨fun hf h10 => ?_, fun h => ⟨fun hd => ?_, fun ⟨hc, hf, h5⟩ => ?_⟩⟩
  · have hspan : underspeedNext f s = s.gen.underspeedSpan + 1 := if_pos hf
    rw [hspan] at h10
    have hunder : judgeUnderspeed f (noted f s) = _ := judgeUnderspeed_trips (s := noted f s) hl hf h10
    have hspeed : judgeSpeed f (noted f s) = judgeUnderspeed f (noted f s) := by
      unfold judgeSpeed
      rw [show (noted f s).gen.state = .loaded from hl]
      simp only [judgeOverspeed_below (s := noted f s) hv]
    exact pm0Result_shutdown hsh hr hrun (hspeed.trans hunder) rfl
  · have heq := pm0Result_droops hr hl hv h hd
    refine ⟨by rw [heq]; rfl, fun h0 => ?_⟩
    rw [heq, noteStopped_above h0]
    rfl
  · exact ⟨pm0Result_overload hr hl hv h (conds_length hsh) hc hf h5, pm0Result_derates hr hl hv h hc hf h5⟩

/-- The other running states below overspeed. -/
theorem pm0Result_fifth (hsh : Shape s) (hr : inRun s = true) (hrun : s.gen.state.running = true) (hl : s.gen.state ≠ .loaded)
    (hv : f < overspeed s.settings) :
    (s.gen.state ≠ .warmup ∨ s.gen.warmupDue = false →
      (pm0Result f s).gen = (noted f s).gen ∧ (0 < f → pm0Result f s = noted f s)) ∧
    (s.gen.state = .warmup → s.gen.warmupDue = true →
      (inFreqWindow s f = true →
        (pm0Result f s).gen.state = .ready ∧ (pm0Result f s).gen.runStart = some (now s) ∧ (pm0Result f s).gen.run = .asserted) ∧
      (inFreqWindow s f = false → (pm0Result f s).gen.state = .shutdown ∧ (pm0Result f s).gen.cause = .warmupFreq ∧
        (pm0Result f s).gen.run = .released ∧ condOf (pm0Result f s) Pt.genShutdown = true)) := by
  refine ⟨fun hw => ?_, fun hw hd => ⟨fun hin => ?_, fun hout => ?_⟩⟩
  · have heq := pm0Result_recorded hr hrun hl hv hw
    exact ⟨by rw [heq, noteStopped_gen], fun h0 => by rw [heq, noteStopped_above h0]⟩
  · rw [pm0Result_warms hr hw hd hv hin]
    exact ⟨rfl, rfl, rfl⟩
  · have hspeed : judgeSpeed f (noted f s) = genShutdown .warmupFreq (withGen (noted f s).gen (noted f s)) :=
      (judgeSpeed_warmup hw hd hv).trans (judgeWarmup_faults (s := noted f s) hout)
    obtain ⟨hstate, hcause, hdrives, -, hcond⟩ := pm0Result_shutdown hsh hr hrun hspeed rfl
    exact ⟨hstate, hcause, congrArg (·.2.1) hdrives, hcond⟩

/-- The frequency of a second's edges (R152). -/
theorem frequencyOf_cases : (∀ e u, e < 2 → frequencyOf e u = 0) ∧
    (∀ e u, 2 ≤ e → 0 < u → frequencyOf e u = min 10000 ((e - 1) * 100000000 / u)) ∧ ∀ e u, frequencyOf e u ≤ 10000 := by
  refine ⟨fun e u h => if_pos h, fun e u he hu => ?_, fun e u => ?_⟩
  · rw [frequencyOf, if_neg (by omega), if_neg (by omega)]
  · unfold frequencyOf
    split
    · omega
    · exact Nat.min_le_left _ _

/-- Settles O21: the result by the state of the generator. -/
theorem Settled.pm0Result : Obligations.Pm0Result := by
  refine ⟨fun e u s hr => ?_, fun e u s hsh hr => ?_, frequencyOf_cases⟩
  · intro f
    obtain ⟨hfreq, hcrank, hzero, hrest⟩ := pm0Result_first (f := f) hr
    refine ⟨Machine.pm0Result f s, rfl, hfreq, hcrank, hzero, hrest, fun hs hf hv hc => ?_, fun hs hf hv hc => pm0Result_overruns hr hs hc hf hv⟩
    rw [pm0Result_fires hr hs hc hf hv]
    exact ⟨rfl, rfl, rfl, rfl, rfl, rfl, rfl⟩
  · intro f alone
    refine ⟨Machine.pm0Result f s, rfl, fun hs h0 => ?_, fun hs hrun h0 => pm0Result_alone hr hs hrun h0, fun hrun hv => ?_,
      fun hl hv => pm0Result_fourth hsh hr hl hv, fun hrun hl hv => pm0Result_fifth hsh hr hrun hl hv⟩
    · rw [h0]
      exact pm0Result_second hsh hr hs
    · exact pm0Result_shutdown (g := (noted f s).gen) hsh hr hrun (judgeSpeed_overspeed hrun hv) rfl

end Sys2Proof.Machine
end

section
/-! PROOFS. The timers of a start, of a bar and of the end of a run (O46, O48). -/

namespace Sys2Proof.Machine

variable {s t u : State} {f : Nat}

/-- Outside LOADED a change of state is one of the record and of the log. -/
theorem genEnter_rest {st : GenState} {x : Word} (h : s.gen.state ≠ .loaded) : { genEnter st x s with gen := s.gen, log := s.log } = s := by
  have hlog := logEv_rest (s := { s with gen := s.gen.enter st (now s) }) (k := .genState) (x := x) (a := wordOf s.gen.state.code)
    (b := wordOf st.code)
  unfold genEnter
  dsimp only
  rw [if_neg (by simpa using h)]
  exact congrArg (fun u : State => { u with gen := s.gen }) hlog

theorem genEnter_now {st : GenState} {x : Word} : now (genEnter st x s) = now s := (genEnter_quiet (Quiet.refl s)).now_eq

/-! ## The ends of a run (R115 to R117) -/

theorem judgeRundown_turning (h : 0 < s.gen.lastFreq) : judgeRundown s =
    setCond Pt.genFailStop true (setGen (fun g => { g with rundownWatch := false, rundownDue := false }) s) := if_pos h

theorem rundownExpiry_inRun (hr : inRun s = true) (hs : s.gen.state = .shutdown) (hw : s.gen.rundownWatch = true) :
    rundownExpiry s = judgeRundown s := by simp [rundownExpiry, hr, hs, hw]

theorem inRun_of_trainKept (h : trainKept s = true) : inRun s = false := by
  simp only [trainKept, starting, Bool.and_eq_true, Bool.not_eq_true'] at h
  exact h.1.1

theorem rundownExpiry_kept (hk : trainKept s = true) (hs : s.gen.state = .shutdown) (hw : s.gen.rundownWatch = true) :
    rundownExpiry s = setGen (fun g => { g with rundownDue := true }) s := by
  simp [rundownExpiry, inRun_of_trainKept hk, hk, hs, hw]

theorem cooldownExpiry_returns (hs : s.gen.state = .cooldown) (ht : s.gen.timer = true)
    (h : s.gen.requests.isEmpty = false ∨ ranFor s 1800 = false) : cooldownExpiry s = genEnter .ready 0 s := by
  rw [cooldownExpiry, if_pos (by simp [hs, ht]), if_pos (by rcases h with h | h <;> simp [h])]

theorem cooldownExpiry_stops (hs : s.gen.state = .cooldown) (ht : s.gen.timer = true) (hq : s.gen.requests.isEmpty = true)
    (hran : ranFor s 1800 = true) : cooldownExpiry s = genEnter .stopping 0 (setGen (fun g => { g with destDisabled := false }) s) := by
  rw [cooldownExpiry, if_pos (by simp [hs, ht]), if_neg (by simp [hq, hran])]

theorem stopExpiry_due (hs : s.gen.state = .stopping) (ht : s.gen.timer = true) :
    stopExpiry s = setCond Pt.genFailStop true (setGen (fun g => { g with timer := false }) s) := if_pos (by simp [hs, ht])

/-- Settles O48: each timer by the state in which it runs. -/
theorem endTimers : Obligations.EndTimers := by
  intro s hsh
  have hlen : Pt.genFailStop < s.conds.length := by
    rw [conds_length hsh]
    decide
  refine ⟨fun hr hs hw hf => ⟨rundownExpiry s, rfl, ?_⟩, fun hk hs hw => congrArg Host.Outcome.next (rundownExpiry_kept hk hs hw),
    fun hs ht => ⟨cooldownExpiry s, rfl, fun h => ?_, fun hq hran => ?_⟩, fun hs ht => ⟨stopExpiry s, rfl, ?_⟩⟩
  · rw [rundownExpiry_inRun hr hs hw, judgeRundown_turning hf, setCond_gen (by decide)]
    exact ⟨hs, condOf_setCond (s := setGen _ s) hlen⟩
  · rw [cooldownExpiry_returns hs ht h, genEnter_gen]
    exact ⟨rfl, rfl⟩
  · rw [cooldownExpiry_stops hs ht hq hran, genEnter_gen]
    exact ⟨rfl, rfl, rfl, rfl⟩
  · rw [stopExpiry_due hs ht, setCond_gen (by decide)]
    exact ⟨hs, rfl, condOf_setCond (s := setGen _ s) hlen⟩

/-! ## A start (R105 to R109) -/

theorem prestartExpiry_due (hs : s.gen.state = .prestart) (ht : s.gen.timer = true) :
    prestartExpiry s = genEnter .cranking 0 (setGen (fun g => { g with peak := 0 }) s) := if_pos (by simp [hs, ht])

theorem prestartExpiry_gen (hs : s.gen.state = .prestart) (ht : s.gen.timer = true) : (prestartExpiry s).gen =
    { s.gen.standing .cranking (now s) with peak := 0, pre := .released, run := .asserted, crank := .asserted } := by
  rw [prestartExpiry_due hs ht, genEnter_gen, setGen_gen, enter_standing (.inl rfl)]
  rfl

theorem crankExpiry_due (hs : s.gen.state = .cranking) (ht : s.gen.timer = true) :
    crankExpiry s = addAttempt .noFire s.gen.peak (genEnter .crankRest 0 s) := if_pos (by simp [hs, ht])

theorem crankExpiry_gen (hs : s.gen.state = .cranking) (ht : s.gen.timer = true) : (crankExpiry s).gen =
    { s.gen.standing .crankRest (now s) with
      pre := .released, run := .released, crank := .released,
      attempts := pushLast 8 s.gen.attempts ⟨now s, s.gen.series, s.gen.attempt, .noFire, s.gen.peak⟩ } := by
  rw [crankExpiry_due hs ht, addAttempt_gen, genEnter_gen, genEnter_now, enter_standing (.inr rfl)]
  rfl

theorem addAttempt_rest {o : AttemptOutcome} {peak : Nat} : { addAttempt o peak s with gen := s.gen, log := s.log } = s :=
  congrArg (fun u : State => { u with gen := s.gen }) logEv_rest

theorem crankExpiry_rest (hs : s.gen.state = .cranking) (ht : s.gen.timer = true) : { crankExpiry s with gen := s.gen, log := s.log } = s := by
  have hadd := congrArg (fun u : State => { u with gen := s.gen, log := s.log })
    (addAttempt_rest (s := genEnter .crankRest 0 s) (o := .noFire) (peak := s.gen.peak))
  rw [crankExpiry_due hs ht]
  exact hadd.trans (genEnter_rest (by simp [hs]))

theorem prestartExpiry_rest (hs : s.gen.state = .prestart) (ht : s.gen.timer = true) :
    { prestartExpiry s with gen := s.gen, log := s.log } = s := by
  rw [prestartExpiry_due hs ht]
  exact congrArg (fun u : State => { u with gen := s.gen })
    (genEnter_rest (s := setGen (fun g => { g with peak := 0 }) s) (st := .cranking) (x := 0) (by simp [hs]))

theorem restExpiry_again (hs : s.gen.state = .crankRest) (ht : s.gen.timer = true) (h : s.gen.attempt < startAttempts s.settings) :
    restExpiry s = genEnter .prestart 0 (setGen (fun g => { g with attempt := g.attempt + 1 }) s) := by
  rw [restExpiry, if_pos (by simp [hs, ht]), if_pos h]

theorem restExpiry_fails (hs : s.gen.state = .crankRest) (ht : s.gen.timer = true) (h : startAttempts s.settings ≤ s.gen.attempt) :
    restExpiry s = enterBar s := by
  rw [restExpiry, if_pos (by simp [hs, ht]), if_neg (Nat.not_lt.2 h)]

/-! ## A bar (R110) -/

/-- The first failure of the bar lies within the day. -/
def failsAgain (s : State) : Bool := match s.gen.firstFailure with | some t => decide (since s t < 86400) | none => false

/-- The record of a series that fails. -/
theorem enterBar_gen : (enterBar s).gen = { s.gen with
    barStart := now s, barHold := failsAgain s, ackTaken := s.gen.ackTaken && !failsAgain s,
    firstFailure := if failsAgain s then s.gen.firstFailure else some (now s) }.enter .barred (now s) := by
  unfold enterBar
  dsimp only
  rw [setCond_gen (by decide), genEnter_gen]
  rfl

theorem enterBar_conds : (enterBar s).conds = s.conds.set Pt.genFailStart true := by
  unfold enterBar
  dsimp only
  rw [conds_setCond, genEnter_conds]
  rfl

theorem barOver_barred (h : barOver s = true) : s.gen.state = .barred := by
  simp only [barOver, Bool.and_eq_true, beq_iff_eq] at h
  exact h.1.1

theorem checkBar_over (h : barOver s = true) :
    checkBar s = enterStandby (setGen (fun g => { g with barHold := false, ackTaken := false }) s) := if_pos h

/-- What a start of a series leaves of the record. -/
theorem seriesStart_marks : (seriesStart s).gen.barHold = s.gen.barHold ∧ (seriesStart s).gen.ackTaken = s.gen.ackTaken ∧
    (seriesStart s).gen.capacity = s.gen.capacity ∧ (seriesStart s).gen.derates = s.gen.derates := by
  unfold seriesStart
  split
  · dsimp only
    rw [genEnter_gen]
    exact ⟨rfl, rfl, rfl, rfl⟩
  · exact ⟨rfl, rfl, rfl, rfl⟩

theorem enterStandby_marks : (enterStandby s).gen.barHold = s.gen.barHold ∧ (enterStandby s).gen.ackTaken = s.gen.ackTaken ∧
    (enterStandby s).gen.capacity = genCapacity s.settings ∧ (enterStandby s).gen.derates = 0 := by
  have h := seriesStart_marks (s := standing s)
  rw [standing_gen] at h
  exact h

/-- Settles O46: the timers of a start by the state in which they run, and the bar by whether it is over. -/
theorem startRows : Obligations.StartRows := by
  refine ⟨fun s ht => ⟨fun hs => ⟨prestartExpiry s, rfl, prestartExpiry_gen hs ht, prestartExpiry_rest hs ht⟩,
    fun hs => ⟨crankExpiry s, rfl, crankExpiry_gen hs ht, crankExpiry_rest hs ht⟩⟩,
    fun s hsh hs ht => ⟨restExpiry s, rfl, fun h => ?again, fun h => ?fails⟩,
    fun s hr => ⟨fun h => ⟨checkBar s, whenDue_true hr, ?ended⟩, fun h => ?waits⟩⟩
  case again =>
    rw [restExpiry_again hs ht h, genEnter_gen]
    exact ⟨rfl, rfl, rfl, rfl⟩
  case fails =>
    rw [restExpiry_fails hs ht h]
    refine ⟨by rw [enterBar_gen]; rfl, by rw [enterBar_gen]; rfl, condOf_set enterBar_conds (by rw [conds_length hsh]; decide),
      fun hf => ?_, fun first hf hday => ?_, fun first hf hday => ?_⟩
    · have hagain : failsAgain s = false := by simp [failsAgain, hf]
      rw [enterBar_gen, hagain]
      exact ⟨rfl, rfl⟩
    · have hagain : failsAgain s = true := by simp [failsAgain, hf, hday]
      rw [enterBar_gen, hagain]
      exact ⟨rfl, Bool.and_false _, hf⟩
    · have hagain : failsAgain s = false := by simp [failsAgain, hf, hday]
      rw [enterBar_gen, hagain]
      exact ⟨rfl, rfl⟩
  case ended =>
    have hbar := barOver_barred h
    have hready : genReady (setGen (fun g => { g with barHold := false, ackTaken := false }) s) = false := by simp [genReady, hbar]
    rw [checkBar_over h]
    obtain ⟨hhold, hack, hcap, hder⟩ := enterStandby_marks (s := setGen (fun g => { g with barHold := false, ackTaken := false }) s)
    refine ⟨hhold, hack, hcap, hder, fun hq => ?_, fun hq htest => ?_⟩
    · rw [enterStandby_waits hready (.inl hq)]
      rfl
    · rw [enterStandby_begins hready hq htest]
      exact ⟨rfl, rfl, rfl⟩
  case waits => exact (whenDue_true hr).trans (congrArg Host.Outcome.next (if_neg (by simp [h])))

end Sys2Proof.Machine
end

section
/-! PROOFS. Requests, run limit and schedule (O45), and the Generator Controller's evaluation (O44). -/

namespace Sys2Proof.Machine

variable {s t u : State} {k : RequestKind}

/-! ## End times (R99) -/

theorem requestEnded_congr (h : t.gen.requests.get k = s.gen.requests.get k) (hn : now t = now s) : requestEnded t k = requestEnded s k := by
  rw [requestEnded, requestEnded, h, hn]

/-- The set after the check of one kind's end time. -/
theorem endIfReached_requests :
    (endIfReached k s).gen.requests = if requestEnded s k then s.gen.requests.put k none else s.gen.requests := by
  unfold endIfReached
  split
  · exact removeRequest_requests
  · rfl

theorem checkEndTimes_requests : (checkEndTimes s).gen.requests = { s.gen.requests with
    exercise := if requestEnded s .exercise then none else s.gen.requests.exercise,
    manual := if requestEnded s .manual then none else s.gen.requests.manual } := by
  have hget : (endIfReached .exercise s).gen.requests.get .manual = s.gen.requests.get .manual := by
    rw [endIfReached_requests]
    split <;> rfl
  have hnow : now (endIfReached .exercise s) = now s := (endIfReached_quiet (Quiet.refl s)).now_eq
  unfold checkEndTimes
  rw [endIfReached_requests, endIfReached_requests, requestEnded_congr hget hnow]
  split <;> split <;> rfl

theorem requested_iff_kept {v : Option RunRequest} {b : Bool} : (if b then none else v).isSome = (v.isSome && !b) := by
  cases b <;> simp

/-! ## The run limit (R102) -/

theorem checkRunLimit_due (h : runLimitDue s = true) :
    (checkRunLimit s).gen.requests = { s.gen.requests with depth := none } ∧ (checkRunLimit s).gen.limitActed = true ∧
      (checkRunLimit s).str.depthHeld = false ∧ (checkRunLimit s).str.depthSpent = true := by
  rw [checkRunLimit, if_pos h]
  simp only [logEv_gen, setGen_gen, removeRequest_requests, RequestSet.put, and_self]

/-! ## The exercise schedule (R103) -/

/-- The slot after one that is reached. -/
def slotAfter (slot : Nat) (s : State) : Option Nat :=
  if now s < slot + 604800 then some (slot + 604800) else slotFrom s.settings (now s + 1)

theorem checkSlot_reached {slot : Nat} (h : s.gen.nextSlot = some slot) (hs : slot ≤ now s) : checkSlot s =
    setGen (fun g => { g with nextSlot := slotAfter slot s })
      (if skipReason slot s = 0 then postRequest .exercise (exerciseLoaded s.settings) (now s + exerciseDuration s.settings) s
        else logEv .exerciseSkipped 0 (wordOf (skipReason slot s)) 0 s) := by
  unfold checkSlot
  simp only [h, if_pos hs]
  rfl

/-- The slot worked out lies within a week, on the day and at the time of the settings. -/
theorem slotFrom_spec {ss : List Word} {time : Nat} (hd : exerciseDay ss < 7) (ht : exerciseTime ss < 1440) :
    ∃ n, slotFrom ss time = some n ∧ time ≤ n ∧ n < time + 604800 ∧ dayOfWeek n = exerciseDay ss ∧
      timeOfDay n = exerciseTime ss * 60 := by
  refine ⟨_, if_neg (by omega), ?_, ?_, ?_, ?_⟩
  · omega
  · omega
  · unfold dayOfWeek
    omega
  · unfold timeOfDay
    omega

/-- A slot taken finds the generator in STANDBY, the fuel not low and no test running. -/
theorem skipReason_zero {slot : Nat} (h : skipReason slot s = 0) : pointActive s Pt.fuelCritical = false ∧ testRunning s = false := by
  unfold skipReason at h
  split at h
  · cases h
  split at h
  · cases h
  split at h
  · cases h
  next hfuel =>
    split at h
    · cases h
    split at h
    · cases h
    next htest => simp_all

theorem seriesStart_requests : (seriesStart s).gen.requests = s.gen.requests := by
  unfold seriesStart
  split
  · exact genEnter_requests
  · rfl

theorem addRequest_requests {load : Bool} {e : Nat} :
    (addRequest k load e s).gen.requests = s.gen.requests.put k (some ⟨now s, load, e⟩) := by
  unfold addRequest
  dsimp only
  split
  · rw [genEnter_requests, logEv_gen]
  · rw [seriesStart_requests, logEv_gen]

theorem postRequest_taken {load : Bool} {e : Nat} (hk : requested s k = false) (hf : pointActive s Pt.fuelCritical = false ∨ k = .depth)
    (ht : testRunning s = false) : postRequest k load e s = addRequest k load e s := by
  rw [postRequest, if_neg (by simp [hk]), if_neg (by rcases hf with h | h <;> simp [h]), if_neg (by simp [ht])]

theorem exec_exerciseSlotReached (hr : inRun s = true) : exec .exerciseSlotReached s = .next (checkSlot (refreshSlot s)) :=
  whenDue_true (f := fun t => t |> refreshSlot |> checkSlot) hr

/-- An exercise setting stored marks the schedule (R95). -/
theorem settingTaken_exercise {o : Nat} {old : Word} (hlo : 0x238 ≤ o) (hhi : o ≤ 0x23B) :
    settingTaken o old s = setGen (fun g => { g with slotStale := true }) s := by
  rw [settingTaken, if_neg (by omega), if_pos (by omega), plantStored, if_neg (by omega), if_neg (by omega), if_neg (by omega),
    if_neg (by omega), if_neg (by omega), if_neg (by omega), if_pos (by omega)]

/-- Settles O45: the set under removals and posts, and the slots by the arithmetic of the week. -/
theorem requestRows : Obligations.RequestRows := by
  refine ⟨fun s hr => ⟨checkEndTimes s, whenDue_true hr, ?_⟩, fun s hr hd => ⟨checkRunLimit s, whenDue_true hr, ?_⟩,
    fun slot s hr hstale hslot hpast => ⟨checkSlot s, ?_, ?_, ?_, ?_, ?_⟩, fun o v s hlo hhi h => ?_, fun s hr hstale => ?_⟩
  · have hq := checkEndTimes_requests (s := s)
    simp only [requested, RequestSet.get, hq]
    exact ⟨requested_iff_kept, requested_iff_kept, trivial, trivial⟩
  · obtain ⟨hq, hlimit, hheld, hspent⟩ := checkRunLimit_due hd
    exact ⟨by simp [requested, RequestSet.get, hq], hlimit, hheld, hspent, by rw [hq]⟩
  · have hfresh : refreshSlot s = s := if_neg (by simp [hstale])
    rw [exec_exerciseSlotReached hr, hfresh]
  · intro hnext
    rw [checkSlot_reached hslot hpast]
    exact if_pos hnext
  · intro hlate
    have hafter : (checkSlot s).gen.nextSlot = slotFrom s.settings (now s + 1) := by
      rw [checkSlot_reached hslot hpast]
      exact if_neg (by omega)
    refine ⟨fun hday => hafter.trans (if_pos hday), fun hday htime => ?_⟩
    obtain ⟨n, hn, hge, hlt, hdow, htod⟩ := slotFrom_spec (time := now s + 1) hday htime
    exact ⟨n, hafter.trans hn, by omega, by omega, hdow, htod⟩
  · intro h0 hnone
    obtain ⟨hfuel, htest⟩ := skipReason_zero h0
    rw [checkSlot_reached hslot hpast, if_pos h0, postRequest_taken hnone (.inl hfuel) htest, setGen_gen]
    exact congrArg RequestSet.exercise addRequest_requests
  · intro hskip
    rw [checkSlot_reached hslot hpast, if_neg hskip]
    refine ⟨by simp [setGen], fun hroom => ?_⟩
    rw [setGen_log, logEv_room hroom]
  · obtain ⟨-, hlisten, hguard⟩ := h
    intro u
    rw [guardedWrite_stores hlisten (by omega) (by omega) hguard]
    exact congrArg Host.Outcome.next (settingTaken_exercise hlo hhi)
  · have hfresh : refreshSlot s = { s with gen := { s.gen with nextSlot := slotFrom s.settings (now s), slotStale := false } } := if_pos hstale
    have hdone : refreshSlot (refreshSlot s) = refreshSlot s := if_neg (by rw [hfresh]; simp)
    have hr' : inRun (refreshSlot s) = true := by rw [hfresh]; exact hr
    rw [← hfresh]
    rw [exec_exerciseSlotReached hr, exec_exerciseSlotReached hr', hdone]

/-! ## What the evaluation leaves of the run hours (R97) -/

/-- The run hours, their residue and the mark of idle quanta. -/
def Gen.tally (g : Gen) := (g.residue, g.hours, g.idleQuanta)

/-- An operation that leaves the run hours and the mark of idle quanta as they are. -/
def Idles (s t : State) : Prop := t.gen.tally = s.gen.tally

theorem Idles.refl (s : State) : Idles s s := rfl
theorem Idles.trans (h : Idles s t) (k : Idles t u) : Idles s u := Eq.trans k h
theorem Idles.of_gen (h : t.gen = s.gen) : Idles s t := congrArg Gen.tally h

theorem ite_idles {c : Prop} [Decidable c] {a b : State} (ha : Idles s a) (hb : Idles s b) : Idles s (if c then a else b) := by
  split
  · exact ha
  · exact hb

theorem setGen_idles {f : Gen → Gen} (hf : ∀ g, (f g).tally = g.tally) : Idles s (setGen f s) := hf s.gen

theorem setNextSlot_idles {x : Option Nat} : Idles s (setGen (fun g => { g with nextSlot := x }) s) := rfl

theorem genEnter_idles {st : GenState} {x : Word} : Idles s (genEnter st x s) := by
  rw [Idles, genEnter_gen]
  rfl

theorem genMove_idles {st : GenState} {x : Word} : Idles s (genMove st x s) := by
  rw [Idles, genMove_gen]
  rfl

theorem addAttempt_idles {o : AttemptOutcome} {peak : Nat} : Idles s (addAttempt o peak s) := by
  rw [Idles, addAttempt_gen]
  rfl

theorem seriesStart_idles : Idles s (seriesStart s) := by
  unfold seriesStart
  refine ite_idles ?_ (.refl s)
  exact Idles.trans (t := { s with gen := { s.gen with series := (s.gen.series + 1) % 65536, attempt := 1 } }) rfl genEnter_idles

theorem enterStandby_idles : Idles s (enterStandby s) := by
  have h : Idles s (standing s) := by
    rw [Idles, standing_gen]
    rfl
  exact h.trans seriesStart_idles

theorem abandonSeries_idles {b : Bool} : Idles s (abandonSeries b s) := by
  have hadd : Idles s (match s.gen.state with
      | .prestart => addAttempt .aborted 0 s | .cranking => addAttempt .aborted s.gen.peak s | _ => s) := by
    split
    · exact addAttempt_idles
    · exact addAttempt_idles
    · exact .refl s
  unfold abandonSeries
  exact (hadd.trans (rfl : Idles _ { (_ : State) with gen := { (_ : State).gen with destDisabled := b } })).trans genEnter_idles

theorem addRequest_idles {load : Bool} {e : Nat} : Idles s (addRequest k load e s) := by
  unfold addRequest
  dsimp only
  split
  · refine Idles.trans ?_ genEnter_idles
    exact Idles.trans (t := { s with gen := { s.gen with requests := s.gen.requests.put k (some ⟨now s, load, e⟩) } }) rfl (.of_gen logEv_gen)
  · refine Idles.trans ?_ seriesStart_idles
    exact Idles.trans (t := { s with gen := { s.gen with requests := s.gen.requests.put k (some ⟨now s, load, e⟩) } }) rfl (.of_gen logEv_gen)

theorem refuseRequest_gen {r : Word} : (refuseRequest k r s).gen = s.gen := by
  unfold refuseRequest
  dsimp only
  split
  · rw [dropMainsFail_gen, logEv_gen]
  · exact logEv_gen

theorem postRequest_idles {load : Bool} {e : Nat} : Idles s (postRequest k load e s) := by
  unfold postRequest
  refine ite_idles (.refl s) (ite_idles (.of_gen refuseRequest_gen) (ite_idles (.of_gen refuseRequest_gen) addRequest_idles))

theorem removeRequest_idles {r : Word} : Idles s (removeRequest k r s) := by
  unfold removeRequest
  refine ite_idles ?_ (.refl s)
  have hlog : Idles s (logEv .runRequest (wordOf k.code) 2 r { s with gen := { s.gen with requests := s.gen.requests.put k none } }) :=
    Idles.trans (t := { s with gen := { s.gen with requests := s.gen.requests.put k none } }) rfl (.of_gen logEv_gen)
  dsimp only
  refine Idles.trans (hlog.trans ?_) (ite_idles abandonSeries_idles (.refl _))
  exact ite_idles (.of_gen dropMainsFail_gen) (.refl _)

theorem endIfReached_idles : Idles s (endIfReached k s) := ite_idles removeRequest_idles (.refl s)

theorem checkEndTimes_idles : Idles s (checkEndTimes s) := endIfReached_idles.trans endIfReached_idles

theorem checkRunLimit_idles : Idles s (checkRunLimit s) := by
  unfold checkRunLimit
  refine ite_idles ?_ (.refl s)
  have hlog : ∀ (u : State) (k : LogKind) (x a b : Word) (y : Strings), Idles u { logEv k x a b u with str := y } :=
    fun _ _ _ _ _ _ => .of_gen logEv_gen
  exact (removeRequest_idles.trans (setGen_idles fun _ => rfl)).trans (hlog _ _ _ _ _ _)

theorem refreshSlot_idles : Idles s (refreshSlot s) := ite_idles (setGen_idles fun _ => rfl) (.refl s)

theorem checkSlot_early (h : ∀ slot, s.gen.nextSlot = some slot → ¬ slot ≤ now s) : checkSlot s = s := by
  unfold checkSlot
  split
  · next slot hslot => exact if_neg (h slot hslot)
  · rfl

theorem checkSlot_idles : Idles s (checkSlot s) := by
  by_cases h : ∃ slot, s.gen.nextSlot = some slot ∧ slot ≤ now s
  · obtain ⟨slot, hslot, hpast⟩ := h
    rw [checkSlot_reached hslot hpast]
    exact (ite_idles postRequest_idles (.of_gen logEv_gen)).trans setNextSlot_idles
  · rw [checkSlot_early fun slot hslot hpast => h ⟨slot, hslot, hpast⟩]
    exact .refl s

theorem checkBar_idles : Idles s (checkBar s) := by
  by_cases h : barOver s = true
  · rw [checkBar_over h]
    exact (setGen_idles fun _ => rfl).trans enterStandby_idles
  · exact .of_gen (congrArg State.gen (if_neg h))

theorem checkRelease_idles : Idles s (checkRelease s) := ite_idles genMove_idles (.refl s)

theorem postClaim_gen {k : Slot} {level : Int} : (postClaim k level s).gen = s.gen := rfl

theorem wishClaim_gen {k : Slot} {level : Option Int} : (wishClaim k level s).gen = s.gen := by
  unfold wishClaim postIfNew
  split
  · split <;> rfl
  · exact withdrawClaim_gen

theorem genClaimCheck_gen : (genClaimCheck s).gen = s.gen := by
  unfold genClaimCheck
  split
  · exact wishClaim_gen
  · rfl

/-- The evaluation up to the fuel level. -/
def genChecks (s : State) : State := s |> checkEndTimes |> checkRunLimit |> refreshSlot |> checkSlot |> checkBar |> checkRelease |> genClaimCheck

theorem genChecks_idles : Idles s (genChecks s) := by
  unfold genChecks
  refine Idles.trans ?_ (.of_gen genClaimCheck_gen)
  refine Idles.trans ?_ checkRelease_idles
  refine Idles.trans ?_ checkBar_idles
  refine Idles.trans ?_ checkSlot_idles
  refine Idles.trans ?_ refreshSlot_idles
  exact checkEndTimes_idles.trans checkRunLimit_idles

theorem genChecks_quiet : Quiet s (genChecks s) := by
  unfold genChecks
  exact genClaimCheck_quiet (checkRelease_quiet (checkBar_quiet (checkSlot_quiet (refreshSlot_quiet (checkRunLimit_quiet
    (checkEndTimes_quiet (Quiet.refl s)))))))

theorem genEvaluation_inRun (hr : inRun s = true) :
    genEvaluation s = seriesStart (judgeIdleFlow (takeFuelLevel (genChecks (genRunSecond s)))) := if_pos hr

theorem genRunSecond_running (hr : s.gen.state.running = true) : (genRunSecond s).gen =
    if 360 ≤ s.gen.residue + 1 then { s.gen with residue := 0, hours := min 4294967295 (s.gen.hours + 1) }
    else { s.gen with residue := s.gen.residue + 1 } := by rw [genRunSecond, if_pos hr, setGen_gen]

theorem genRunSecond_stopped (hr : s.gen.state.running = false) : genRunSecond s = s := if_neg (by simp [hr])

theorem genRunSecond_idleQuanta : (genRunSecond s).gen.idleQuanta = s.gen.idleQuanta := by
  unfold genRunSecond
  split
  · rw [setGen_gen]
    split <;> rfl
  · rfl

theorem judgeIdleFlow_gen : (judgeIdleFlow s).gen = { s.gen with idleQuanta := false } := by
  unfold judgeIdleFlow
  dsimp only
  rw [setCond_gen (by decide)]
  rfl

theorem judgeIdleFlow_condOf (h : s.conds.length = 32) : condOf (judgeIdleFlow s) Pt.fuelFlowIdle = s.gen.idleQuanta :=
  condOf_setCond (s := setGen (fun g => { g with idleQuanta := false }) s) (h.symm ▸ by decide)

/-- The record after the evaluation but for a series that starts. -/
theorem seriesStart_fuel : (seriesStart s).gen.fuelLevel = s.gen.fuelLevel := by
  unfold seriesStart
  split
  · dsimp only
    rw [genEnter_gen]
    rfl
  · rfl

/-- After a start is considered no request stands in STANDBY but under a test. -/
theorem seriesStart_standby (h : (seriesStart s).gen.state = .standby) :
    (seriesStart s).gen.requests.isEmpty = true ∨ testRunning (seriesStart s) = true := by
  by_cases hc : (s.gen.state == .standby && !s.gen.requests.isEmpty && !testRunning s) = true
  · rw [seriesStart, if_pos hc] at h
    dsimp only at h
    rw [genEnter_gen] at h
    cases h
  · rw [seriesStart, if_neg hc] at h ⊢
    simp only [h, beq_self_eq_true, Bool.true_and, Bool.and_eq_true, Bool.not_eq_true', not_and, Bool.not_eq_false] at hc
    cases hq : s.gen.requests.isEmpty with
    | true => exact .inl rfl
    | false => exact .inr (hc hq)

/-- The run hours and the mark of idle quanta after the evaluation's checks. -/
theorem genChecks_tally : (genChecks (genRunSecond s)).gen.residue = (genRunSecond s).gen.residue ∧
    (genChecks (genRunSecond s)).gen.hours = (genRunSecond s).gen.hours ∧
    (genChecks (genRunSecond s)).gen.idleQuanta = s.gen.idleQuanta := by
  have h := genChecks_idles (s := genRunSecond s)
  simp only [Idles, Gen.tally, Prod.mk.injEq] at h
  exact ⟨h.1, h.2.1, h.2.2.trans genRunSecond_idleQuanta⟩

theorem seriesStart_tally : (seriesStart s).gen.residue = s.gen.residue ∧ (seriesStart s).gen.hours = s.gen.hours := by
  have h := seriesStart_idles (s := s)
  simp only [Idles, Gen.tally, Prod.mk.injEq] at h
  exact ⟨h.1, h.2.1⟩

theorem genEvaluation_hours (hr : inRun s = true) : (genEvaluation s).gen.residue = (genRunSecond s).gen.residue ∧
    (genEvaluation s).gen.hours = (genRunSecond s).gen.hours := by
  obtain ⟨hres, hhours, -⟩ := genChecks_tally (s := s)
  rw [genEvaluation_inRun hr, seriesStart_tally.1, seriesStart_tally.2, judgeIdleFlow_gen]
  generalize genChecks (genRunSecond s) = u at hres hhours ⊢
  exact ⟨hres, hhours⟩

theorem genRunSecond_quiet' : Quiet s (genRunSecond s) := genRunSecond_quiet (Quiet.refl s)

theorem meanOf_congr {c : Nat} (h : t.scan = s.scan) : meanOf t c = meanOf s c := by rw [meanOf, chan, h, meanOf, chan]

theorem genEvaluation_fuelLevel (hr : inRun s = true) : (genEvaluation s).gen.fuelLevel = (meanOf s 15).toNat := by
  have hscan : (genChecks (genRunSecond s)).scan = s.scan := (genChecks_quiet.scan_eq).trans genRunSecond_quiet'.scan_eq
  rw [genEvaluation_inRun hr, seriesStart_fuel, judgeIdleFlow_gen]
  generalize genChecks (genRunSecond s) = u at hscan ⊢
  exact congrArg Int.toNat (meanOf_congr hscan)

theorem genEvaluation_idleFlow (hsh : Shape s) (hr : inRun s = true) : condOf (genEvaluation s) Pt.fuelFlowIdle = s.gen.idleQuanta := by
  have hshape : Shape (genChecks (genRunSecond s)) := (genRunSecond_quiet'.trans genChecks_quiet).shape.trans hsh
  have htally := (genChecks_tally (s := s)).2.2
  rw [genEvaluation_inRun hr, condOf, seriesStart_conds, ← condOf]
  generalize genChecks (genRunSecond s) = u at hshape htally ⊢
  exact (judgeIdleFlow_condOf (s := takeFuelLevel u) (conds_length hshape)).trans htally

/-- Settles O44: the run second first, then the checks that leave the run hours alone, then fuel and series. -/
theorem generatorEvaluation : Obligations.GeneratorEvaluation := by
  intro s hsh hr
  obtain ⟨hres, hhours⟩ := genEvaluation_hours hr
  refine ⟨genEvaluation s, rfl, fun hrun h => ?_, fun hrun h => ?_, fun hrun => ?_, genEvaluation_fuelLevel hr,
    genEvaluation_idleFlow hsh hr, fun h => ?_⟩
  · rw [hres, hhours, genRunSecond_running hrun, if_neg (by omega)]
    exact ⟨rfl, rfl⟩
  · rw [hres, hhours, genRunSecond_running hrun, if_pos (by omega)]
    exact ⟨rfl, rfl⟩
  · rw [hres, hhours, genRunSecond_stopped hrun]
    exact ⟨rfl, rfl⟩
  · rw [genEvaluation_inRun hr] at h ⊢
    exact seriesStart_standby h

end Sys2Proof.Machine
end

section
/-! PROOFS. The roster's rules: what each of its operations makes of the records, the queue, the inhibits, the swap record and the log (03). -/

namespace Sys2Proof.Machine

variable {s t u : State} {m j : Nat} {r : ModuleRec}

/-! ## Reading the roster -/

theorem modRec_setMod {f : ModuleRec → ModuleRec} : modRec (setMod m f s) m = (modRec s m).map f := by
  simp only [modRec, setMod_ros, getElem?_updAt]
  cases s.ros.mods[m]? <;> rfl

theorem modRec_setMod_ne {f : ModuleRec → ModuleRec} (h : m ≠ j) : modRec (setMod m f s) j = modRec s j := by
  simp only [modRec, setMod_ros, getElem?_updAt_ne h]

theorem modRec_congr (h : t.ros.mods = s.ros.mods) : modRec t = modRec s := by
  funext m
  rw [modRec, h, modRec]

theorem modRec_lt (hs : Shape s) (h : modRec s m = some r) : m < 8 := by
  have hlen : s.ros.mods.length = 8 := by simp_all [Shape, shape]
  rw [modRec, Option.bind_eq_some_iff] at h
  obtain ⟨x, hx, -⟩ := h
  exact hlen ▸ (List.getElem?_eq_some_iff.1 hx).1

theorem modState_of_rec (h : modRec s m = some r) : modState s m = r.state := by rw [modState, h]; rfl

theorem modRec_of_state {st : ModState} (h : modState s m = st) (hne : st ≠ .absent) : ∃ r, modRec s m = some r ∧ r.state = st := by
  cases hr : modRec s m with
  | none =>
    rw [modState, hr] at h
    exact absurd h.symm hne
  | some r => exact ⟨r, rfl, (modState_of_rec hr).symm.trans h⟩

theorem modState_congr (h : modRec t = modRec s) : modState t = modState s := by
  funext m
  rw [modState, h, modState]

theorem mem_modulesIn {st : ModState} : m ∈ modulesIn s st ↔ m < 8 ∧ (modRec s m).isSome = true ∧ modState s m = st := by
  simp [modulesIn]

theorem modulesIn_congr {st : ModState} (hr : ∀ m, (modRec t m).isSome = (modRec s m).isSome) (h : modState t = modState s) :
    modulesIn t st = modulesIn s st := by
  simp only [modulesIn, h, hr]

theorem runningModules_congr (h : modState t = modState s) : runningModules t = runningModules s := by
  simp only [runningModules, h]

theorem onlineCapacity_congr (h : modState t = modState s) (hs : t.settings = s.settings) : onlineCapacity t = onlineCapacity s := by
  simp only [onlineCapacity, ratingsOf, runningModules_congr h, hs]

theorem effectiveCapacity_congr (h : modState t = modState s) (hs : t.settings = s.settings) :
    effectiveCapacity t = effectiveCapacity s := by
  simp only [effectiveCapacity, ratingsOf, runningModules_congr h, hs]

theorem insertQueue_congr (h : hoursOf t = hoursOf s) : ∀ l, insertQueue t m l = insertQueue s m l
  | [] => rfl
  | a :: l => by
    unfold insertQueue
    rw [h, insertQueue_congr h l]

theorem mem_insertQueue : ∀ l, m ∈ insertQueue s m l
  | [] => List.mem_singleton.2 rfl
  | a :: l => by
    unfold insertQueue
    split
    · exact List.mem_cons_self
    · exact List.mem_cons_of_mem _ (mem_insertQueue l)

/-! ## A change of a module's state (R54, R55, R63) -/

section Enter

variable {st : ModState}

theorem checkpoint_ros {n : Nat} : (checkpoint n s).ros = s.ros := by
  unfold checkpoint
  repeat' split
  all_goals rfl

theorem checkpoint_log {n : Nat} : (checkpoint n s).log = s.log := by
  unfold checkpoint
  repeat' split
  all_goals rfl

theorem logEv_ros {k : LogKind} {x a b : Word} : (logEv k x a b s).ros = s.ros := by
  unfold logEv logAt
  split <;> rfl

/-- The record of a module in a new state. -/
def ModuleRec.entering (r : ModuleRec) (st : ModState) (time : Nat) : ModuleRec := { r with state := st, entered := time }

/-- The roster after a module's change of state. -/
theorem modEnter_ros : (modEnter m st s).ros = { s.ros with
    mods := updAt m (Option.map fun r => r.entering st (now s)) s.ros.mods,
    queue := if st == .resting then insertQueue s m (s.ros.queue.filter (· != m)) else s.ros.queue.filter (· != m),
    inh := s.ros.inh.set m st.inhibit } := by
  have hhours : hoursOf (setMod m (fun r => r.entering st (now s)) s) = hoursOf s := by
    funext j
    rw [hoursOf, hoursOf]
    by_cases h : m = j
    · subst h
      rw [modRec_setMod]
      cases modRec s m <;> rfl
    · rw [modRec_setMod_ne h]
  have hqueue := insertQueue_congr (m := m) hhours (s.ros.queue.filter (· != m))
  unfold modEnter
  dsimp only
  split
  · rw [checkpoint_ros, logEv_ros]
    exact congrArg (fun q => ({ s.ros with
      mods := updAt m (Option.map fun r => r.entering st (now s)) s.ros.mods,
      queue := if st == .resting then q else s.ros.queue.filter (· != m), inh := s.ros.inh.set m st.inhibit } : Roster)) hqueue
  · rw [logEv_ros]
    exact congrArg (fun q => ({ s.ros with
      mods := updAt m (Option.map fun r => r.entering st (now s)) s.ros.mods,
      queue := if st == .resting then q else s.ros.queue.filter (· != m), inh := s.ros.inh.set m st.inhibit } : Roster)) hqueue

theorem modRec_modEnter : modRec (modEnter m st s) m = (modRec s m).map fun r => r.entering st (now s) := by
  simp only [modRec, modEnter_ros, getElem?_updAt]
  cases s.ros.mods[m]? <;> rfl

theorem modRec_modEnter_ne (h : m ≠ j) : modRec (modEnter m st s) j = modRec s j := by
  simp only [modRec, modEnter_ros, getElem?_updAt_ne h]

theorem modRec_modEnter_isSome : (modRec (modEnter m st s) j).isSome = (modRec s j).isSome := by
  by_cases h : m = j
  · subst h
    rw [modRec_modEnter, Option.isSome_map]
  · rw [modRec_modEnter_ne h]

theorem modState_modEnter (h : (modRec s m).isSome = true) : modState (modEnter m st s) m = st := by
  obtain ⟨r, hr⟩ := Option.isSome_iff_exists.1 h
  rw [modState, modRec_modEnter, hr]
  rfl

theorem modState_modEnter_ne (h : m ≠ j) : modState (modEnter m st s) j = modState s j := by
  rw [modState, modState, modRec_modEnter_ne h]

theorem modEnter_rest : (modEnter m st s).settings = s.settings ∧ now (modEnter m st s) = now s ∧ (modEnter m st s).inp = s.inp ∧
    (modEnter m st s).st = s.st := by
  have h := modEnter_quiet (Quiet.refl s) (m := m) (st := st)
  exact ⟨h.settings_eq, h.now_eq, h.inp_eq, h.st_eq⟩

/-- MODULE_STATE joins the log, where it has room. -/
theorem modEnter_log (h : s.log.queue.length < 32) : (modEnter m st s).log = { s.log with
    queue := s.log.queue ++ [⟨.moduleState, wordOf m, wordOf (modState s m).code, wordOf st.code, now s, s.log.gap⟩], gap := false } := by
  unfold modEnter
  dsimp only
  split
  · rw [checkpoint_log]
    exact logEv_room h
  · exact logEv_room h

end Enter

/-- Two updates of one place are one. -/
theorem updAt_updAt {α : Type} {f g : α → α} : ∀ {i : Nat} {l : List α}, updAt i f (updAt i g l) = updAt i (f ∘ g) l
  | i, [] => by cases i <;> rfl
  | 0, _ :: _ => rfl
  | i + 1, a :: l => congrArg (a :: ·) updAt_updAt

/-- Two updates of one module's record are one. -/
theorem updAt_map_map {f g : ModuleRec → ModuleRec} {l : List (Option ModuleRec)} :
    updAt m (Option.map f) (updAt m (Option.map g) l) = updAt m (Option.map fun r => f (g r)) l := by
  rw [updAt_updAt]
  congr 1
  funext o
  cases o <;> rfl

/-- A module whose record is rewritten as it changes its state. -/
theorem modEnter_setMod_ros {st : ModState} {f : ModuleRec → ModuleRec} (hf : ∀ r, (f r).hours = r.hours) :
    (modEnter m st (setMod m f s)).ros = { s.ros with
      mods := updAt m (Option.map fun r => (f r).entering st (now s)) s.ros.mods,
      queue := if st == .resting then insertQueue s m (s.ros.queue.filter (· != m)) else s.ros.queue.filter (· != m),
      inh := s.ros.inh.set m st.inhibit } := by
  have hhours : hoursOf (setMod m f s) = hoursOf s := by
    funext j
    rw [hoursOf, hoursOf]
    by_cases h : m = j
    · subst h
      rw [modRec_setMod]
      cases modRec s m with
      | none => rfl
      | some r => exact hf r
    · rw [modRec_setMod_ne h]
  have hnow : now (setMod m f s) = now s := rfl
  rw [modEnter_ros, setMod_ros, hnow, updAt_map_map]
  simp only [insertQueue_congr hhours]

/-- A module stops. -/
theorem stopModule_ros {b : Bool} : (stopModule m b s).ros = { s.ros with
    mods := updAt m (Option.map fun r => { r with destService := b }.entering .stopping (now s)) s.ros.mods,
    queue := s.ros.queue.filter (· != m), inh := s.ros.inh.set m .asserted } := modEnter_setMod_ros fun _ => rfl

theorem modRec_stopModule {b : Bool} : modRec (stopModule m b s) m =
    (modRec s m).map fun r => { r with destService := b }.entering .stopping (now s) := by
  simp only [modRec, stopModule_ros, getElem?_updAt]
  cases s.ros.mods[m]? <;> rfl

theorem modRec_stopModule_ne {b : Bool} (h : m ≠ j) : modRec (stopModule m b s) j = modRec s j := by
  simp only [modRec, stopModule_ros, getElem?_updAt_ne h]

theorem modRec_stopModule_isSome {b : Bool} : (modRec (stopModule m b s) j).isSome = (modRec s j).isSome := by
  by_cases h : m = j
  · subst h
    rw [modRec_stopModule, Option.isSome_map]
  · rw [modRec_stopModule_ne h]

theorem modState_stopModule {b : Bool} (h : (modRec s m).isSome = true) : modState (stopModule m b s) m = .stopping := by
  obtain ⟨r, hr⟩ := Option.isSome_iff_exists.1 h
  rw [modState, modRec_stopModule, hr]
  rfl

theorem modState_stopModule_ne {b : Bool} (h : m ≠ j) : modState (stopModule m b s) j = modState s j := by
  rw [modState, modState, modRec_stopModule_ne h]

/-- A module starts. -/
theorem startModule_ros : (startModule m s).ros = { s.ros with
    mods := updAt m (Option.map fun r => { r with starts := (r.starts + 1) % 65536 }.entering .starting (now s)) s.ros.mods,
    queue := s.ros.queue.filter (· != m), inh := s.ros.inh.set m .released } := modEnter_setMod_ros fun _ => rfl

theorem modRec_startModule : modRec (startModule m s) m =
    (modRec s m).map fun r => { r with starts := (r.starts + 1) % 65536 }.entering .starting (now s) := by
  unfold startModule
  rw [modRec_modEnter, modRec_setMod, Option.map_map]
  rfl

theorem modRec_startModule_ne (h : m ≠ j) : modRec (startModule m s) j = modRec s j := by
  unfold startModule
  rw [modRec_modEnter_ne h, modRec_setMod_ne h]

theorem modRec_startModule_isSome : (modRec (startModule m s) j).isSome = (modRec s j).isSome := by
  by_cases h : m = j
  · subst h
    rw [modRec_startModule, Option.isSome_map]
  · rw [modRec_startModule_ne h]

theorem modState_startModule (h : (modRec s m).isSome = true) : modState (startModule m s) m = .starting := by
  obtain ⟨r, hr⟩ := Option.isSome_iff_exists.1 h
  rw [modState, modRec_startModule, hr]
  rfl

theorem modState_startModule_ne (h : m ≠ j) : modState (startModule m s) j = modState s j := by
  rw [modState, modState, modRec_startModule_ne h]

/-! ## The conditions (R55) -/

theorem judgeCond_ros {p : Nat} {b : Bool} : (judgeCond p b s).ros = s.ros := by
  unfold judgeCond
  split
  · exact setCond_ros
  · rfl

theorem refreshModuleConds_ros : (refreshModuleConds s).ros = s.ros := judgeCond_ros.trans judgeCond_ros

theorem judgeCond_conds_length {p : Nat} {b : Bool} : (judgeCond p b s).conds.length = s.conds.length := by
  unfold judgeCond
  split
  · rw [conds_setCond, List.length_set]
  · rfl

/-- The two conditions stand as the states say. -/
theorem refreshModuleConds_condOf (hs : s.conds.length = 32) :
    condOf (refreshModuleConds s) Pt.moduleFail = !(modulesIn s .failed).isEmpty ∧
      condOf (refreshModuleConds s) Pt.moduleBarred = !(modulesIn s .barred).isEmpty := by
  unfold refreshModuleConds
  refine ⟨?_, condOf_judgeCond (by rw [judgeCond_conds_length, hs]; decide)⟩
  rw [condOf_judgeCond_ne (by decide), condOf_judgeCond (by rw [hs]; decide)]

/-! ## Swap record -/

theorem setSwap_modRec {f : Swap → Swap} : modRec (setSwap f s) = modRec s := modRec_congr rfl

theorem abandonSwap_ros {o : SwapOutcome} : (abandonSwap o s).ros = { s.ros with
    swap := { s.ros.swap with inProgress := false, retry := some (now s + 3600), outcome := o } } := logEv_ros

theorem abandonSwap_modRec {o : SwapOutcome} : modRec (abandonSwap o s) = modRec s := modRec_congr (by rw [abandonSwap_ros])

/-- Where a completed swap finds its outgoing module ONLINE, that module stops. -/
theorem completeSwap_ros (h : modState s s.ros.swap.outgoing = .online) : (completeSwap s).ros =
    { (stopModule s.ros.swap.outgoing false s).ros with
      swap := { s.ros.swap with inProgress := false, lastSwap := now s, outcome := .complete } } := by
  have hnow : now (stopModule s.ros.swap.outgoing false s) = now s := (stopModule_quiet (Quiet.refl s)).now_eq
  unfold completeSwap
  simp only [h, beq_self_eq_true, if_true]
  rw [logEv_ros, setSwap_ros, stopModule_ros]

/-! ## Strikes (R59) -/

/-- The strike list of a module that takes one more. -/
def struck (s : State) (m : Nat) : List Nat := freshStrikes s (((modRec s m).map (·.strikes)).getD []) ++ [now s]

/-- A module that takes a strike, before the swap it was started for ends. -/
def striking (m cause : Nat) (s : State) : State :=
  s |> setMod m (fun r => { r with strikes := struck s m }) |> modEnter m (if 3 ≤ (struck s m).length then .barred else .failed)
    |> logEv .strike (wordOf m) (wordOf (struck s m).length) (wordOf cause)

theorem strike_eq {cause : Nat} : strike m cause s =
    if incoming (striking m cause s) m then abandonSwap .failedStart (striking m cause s) else striking m cause s := rfl

theorem striking_ros {cause : Nat} : (striking m cause s).ros = { s.ros with
    mods := updAt m (Option.map fun r =>
      { r with strikes := struck s m }.entering (if 3 ≤ (struck s m).length then .barred else .failed) (now s)) s.ros.mods,
    queue := s.ros.queue.filter (· != m), inh := s.ros.inh.set m .asserted } := by
  unfold striking
  rw [logEv_ros, modEnter_setMod_ros (f := fun r => { r with strikes := struck s m }) fun _ => rfl]
  split <;> rfl

theorem modRec_striking {cause : Nat} : modRec (striking m cause s) m = (modRec s m).map fun r =>
    { r with strikes := struck s m }.entering (if 3 ≤ (struck s m).length then .barred else .failed) (now s) := by
  simp only [modRec, striking_ros, getElem?_updAt]
  cases s.ros.mods[m]? <;> rfl

theorem modRec_striking_ne {cause : Nat} (h : m ≠ j) : modRec (striking m cause s) j = modRec s j := by
  simp only [modRec, striking_ros, getElem?_updAt_ne h]

theorem striking_now {cause : Nat} : now (striking m cause s) = now s :=
  (logEv_quiet (modEnter_quiet (setMod_quiet (Quiet.refl s)))).now_eq

theorem incoming_congr (h : t.ros.swap = s.ros.swap) : incoming t m = incoming s m := by rw [incoming, h, incoming]

theorem modRec_strike {cause : Nat} : modRec (strike m cause s) = modRec (striking m cause s) := by
  rw [strike_eq]
  split
  · exact abandonSwap_modRec
  · rfl

theorem strike_inh {cause : Nat} : (strike m cause s).ros.inh = s.ros.inh.set m .asserted := by
  rw [strike_eq]
  split
  · rw [abandonSwap_ros, striking_ros]
  · rw [striking_ros]

theorem strike_swap {cause : Nat} : (strike m cause s).ros.swap =
    if incoming s m then { s.ros.swap with inProgress := false, retry := some (now s + 3600), outcome := .failedStart }
    else s.ros.swap := by
  rw [strike_eq, incoming_congr (s := s) (by rw [striking_ros])]
  split
  · rw [abandonSwap_ros, striking_ros, striking_now]
  · rw [striking_ros]

end Sys2Proof.Machine
end

section
/-! PROOFS. The rows of the modules (O36, O37) and the shed (O38). -/

namespace Sys2Proof.Machine

variable {s t u : State} {m j : Nat} {r : ModuleRec}

/-! ## A start and a stop judged (R56, R57) -/

theorem inStateFor_of_rec (h : modRec s m = some r) : inStateFor s m = since s r.entered := by rw [inStateFor, h]; rfl

theorem struck_of_rec (h : modRec s m = some r) : struck s m = freshStrikes s r.strikes ++ [now s] := by rw [struck, h]; rfl

theorem judgeStart_expires (hs : modState s m = .starting) (ho : modOk s m = false) (h30 : 30 ≤ inStateFor s m) :
    judgeStart m s = strike m 1 s := by
  rw [judgeStart, if_pos hs, if_neg (by simp [ho]), if_pos h30]

theorem judgeStart_confirms (hs : modState s m = .starting) (ho : modOk s m = true) : judgeStart m s = confirmStart m s := by
  rw [judgeStart, if_pos hs, if_pos ho]

/-- A module confirmed ONLINE, before the swap it was started for completes. -/
def confirming (m : Nat) (s : State) : State := modEnter m .online (setMod m (fun r => { r with watch := 0 }) s)

theorem confirmStart_eq : confirmStart m s = if incoming (confirming m s) m then completeSwap (confirming m s) else confirming m s := rfl

theorem modRec_confirming : modRec (confirming m s) m = (modRec s m).map fun r => { r with watch := 0 }.entering .online (now s) := by
  rw [confirming, modRec_modEnter, modRec_setMod, Option.map_map]
  rfl

theorem modRec_confirming_ne (h : m ≠ j) : modRec (confirming m s) j = modRec s j := by
  rw [confirming, modRec_modEnter_ne h, modRec_setMod_ne h]

theorem confirming_swap : (confirming m s).ros.swap = s.ros.swap := by
  rw [confirming, modEnter_ros]
  rfl

theorem confirming_now : now (confirming m s) = now s := modEnter_rest.2.1

theorem refreshModuleConds_modRec : modRec (refreshModuleConds s) = modRec s := modRec_congr (by rw [refreshModuleConds_ros])

/-- A condition of a module in a state stands after the conditions are judged. -/
theorem refreshModuleConds_of_mem (hs : Shape s) (hm : m < 8) (hr : modRec s m = some r) :
    (r.state = .failed → condOf (refreshModuleConds s) Pt.moduleFail = true) ∧
      (r.state = .barred → condOf (refreshModuleConds s) Pt.moduleBarred = true) := by
  have hsome : ∀ st, r.state = st → (!(modulesIn s st).isEmpty) = true := by
    intro st hst
    have hmem : m ∈ modulesIn s st := mem_modulesIn.2 ⟨hm, by rw [hr]; rfl, (modState_of_rec hr).trans hst⟩
    cases h : modulesIn s st with
    | nil => simp [h] at hmem
    | cons => rfl
  obtain ⟨hfail, hbar⟩ := refreshModuleConds_condOf (conds_length hs)
  exact ⟨fun h => hfail.trans (hsome _ h), fun h => hbar.trans (hsome _ h)⟩

/-- The entries of a strike. -/
theorem striking_log {cause : Nat} (h : s.log.queue.length + 2 ≤ 32) : (striking m cause s).log = { s.log with
    queue := s.log.queue ++ [⟨.moduleState, wordOf m, wordOf (modState s m).code,
        wordOf (if 3 ≤ (struck s m).length then ModState.barred else ModState.failed).code, now s, s.log.gap⟩,
      ⟨.strike, wordOf m, wordOf (struck s m).length, wordOf cause, now s, false⟩], gap := false } := by
  have hstate : modState (setMod m (fun r => { r with strikes := struck s m }) s) m = modState s m := by
    rw [modState, modRec_setMod, modState]
    cases modRec s m <;> rfl
  have henter : (modEnter m (if 3 ≤ (struck s m).length then .barred else .failed)
      (setMod m (fun r => { r with strikes := struck s m }) s)).log = _ := modEnter_log (by rw [setMod_log]; omega)
  have hnow : now (modEnter m (if 3 ≤ (struck s m).length then .barred else .failed)
      (setMod m (fun r => { r with strikes := struck s m }) s)) = now s := modEnter_rest.2.1
  unfold striking
  rw [logEv_room, henter, hnow, hstate]
  · simp [now]
  · rw [henter]
    simp
    omega

theorem strike_log_swap {cause : Nat} (hin : incoming s m = true) (h : s.log.queue.length + 3 ≤ 32) :
    (strike m cause s).log.queue = s.log.queue ++ [⟨.moduleState, wordOf m, wordOf (modState s m).code,
        wordOf (if 3 ≤ (struck s m).length then ModState.barred else ModState.failed).code, now s, s.log.gap⟩,
      ⟨.strike, wordOf m, wordOf (struck s m).length, wordOf cause, now s, false⟩,
      ⟨.rotation, wordOf s.ros.swap.incoming, wordOf s.ros.swap.outgoing, 2, now s, false⟩] := by
  have hlog := striking_log (m := m) (cause := cause) (s := s) (by omega)
  have hswap : (striking m cause s).ros.swap = s.ros.swap := by rw [striking_ros]
  rw [strike_eq, if_pos ((incoming_congr hswap).trans hin)]
  unfold abandonSwap
  rw [logEv_room (by rw [setSwap_log, hlog]; simp; omega)]
  simp only [setSwap_log, hlog, hswap]
  have hnow : now (setSwap (fun w => { w with inProgress := false, retry := some (now (striking m cause s) + 3600), outcome := .failedStart })
      (striking m cause s)) = now s := striking_now
  rw [hnow]
  simp [SwapOutcome.code, wordOf]

/-! ## The rows -/

theorem incoming_module (h : incoming s m = true) : s.ros.swap.incoming = m := by
  simp only [incoming, Bool.and_eq_true, beq_iff_eq] at h
  exact h.2

/-- A start that expires. -/
theorem moduleStart_expires (hsh : Shape s) (hr : modRec s m = some r) (hs : r.state = .starting) (ho : modOk s m = false)
    (h30 : 30 ≤ since s r.entered) :
    let l := freshStrikes s r.strikes ++ [now s]
    let t := refreshModuleConds (judgeStart m s)
    (modRec t m = some { r with strikes := l, state := if 3 ≤ l.length then .barred else .failed, entered := now s } ∧
      t.ros.inh = s.ros.inh.set m .asserted ∧
      condOf t (if 3 ≤ l.length then Pt.moduleBarred else Pt.moduleFail) = true ∧ (∀ j, j ≠ m → modRec t j = modRec s j)) ∧
    (incoming s m = false → t.ros.swap = s.ros.swap) ∧
    (incoming s m = true →
      t.ros.swap = { s.ros.swap with inProgress := false, retry := some (now s + 3600), outcome := .failedStart } ∧
      (s.log.queue.length + 3 ≤ 32 → s.log.queue ++
        [⟨.moduleState, wordOf m, 2, if 3 ≤ l.length then 6 else 5, now s, s.log.gap⟩,
          ⟨.strike, wordOf m, wordOf l.length, 1, now s, false⟩,
          ⟨.rotation, wordOf m, wordOf s.ros.swap.outgoing, 2, now s, false⟩] <+: t.log.queue)) := by
  intro l t
  have hl : struck s m = l := struck_of_rec hr
  have hstate : modState s m = .starting := (modState_of_rec hr).trans hs
  have hstrike : judgeStart m s = strike m 1 s := judgeStart_expires hstate ho (by rw [inStateFor_of_rec hr]; exact h30)
  have ht : t = refreshModuleConds (strike m 1 s) := congrArg refreshModuleConds hstrike
  have hrec : modRec (strike m 1 s) m = some { r with strikes := l, state := if 3 ≤ l.length then .barred else .failed, entered := now s } := by
    rw [modRec_strike, modRec_striking, hr, hl]
    rfl
  have hshape : Shape (strike m 1 s) := (strike_quiet (Quiet.refl s)).shape.trans hsh
  obtain ⟨hfail, hbar⟩ := refreshModuleConds_of_mem hshape (modRec_lt hsh hr) hrec
  rw [ht, refreshModuleConds_modRec, refreshModuleConds_ros, strike_inh, strike_swap]
  refine ⟨⟨hrec, rfl, ?_, fun j hj => ?_⟩, fun hin => if_neg (by simp [hin]), fun hin => ⟨if_pos hin, fun hroom => ?_⟩⟩
  · split
    · next h3 => exact hbar (if_pos h3)
    · next h3 => exact hfail (if_neg h3)
  · rw [modRec_strike, modRec_striking_ne (Ne.symm hj)]
  · have hlog := strike_log_swap (cause := 1) hin hroom
    rw [hl, hstate, incoming_module hin] at hlog
    have hgrows : LogGrows (strike m 1 s) (refreshModuleConds (strike m 1 s)) := refreshModuleConds_grows
    rw [LogGrows, hlog] at hgrows
    refine List.IsPrefix.trans ?_ hgrows
    refine ⟨[], (List.append_nil _).trans ?_⟩
    split <;> rfl

/-- A start that is confirmed. -/
theorem moduleStart_confirms (hr : modRec s m = some r) (hs : r.state = .starting) (ho : modOk s m = true) :
    let t := refreshModuleConds (judgeStart m s)
    (incoming s m = false → modRec t m = some { r with watch := 0, state := .online, entered := now s }) ∧
    (incoming s m = true → s.ros.swap.outgoing ≠ m → modState s s.ros.swap.outgoing = .online →
      modState t m = .online ∧ modState t s.ros.swap.outgoing = .stopping ∧
      t.ros.swap = { s.ros.swap with inProgress := false, lastSwap := now s, outcome := .complete }) := by
  intro t
  have hstate : modState s m = .starting := (modState_of_rec hr).trans hs
  have ht : t = refreshModuleConds (confirmStart m s) := congrArg refreshModuleConds (judgeStart_confirms hstate ho)
  have hrec : modRec (confirming m s) m = some { r with watch := 0, state := .online, entered := now s } := by
    rw [modRec_confirming, hr]
    rfl
  rw [ht, refreshModuleConds_modRec, modState_congr refreshModuleConds_modRec, refreshModuleConds_ros, confirmStart_eq,
    incoming_congr confirming_swap]
  refine ⟨fun hin => ?_, fun hin hne hon => ?_⟩
  · rw [if_neg (by simp [hin])]
    exact hrec
  · have hout : modState (confirming m s) (confirming m s).ros.swap.outgoing = .online := by
      rw [confirming_swap, modState, modRec_confirming_ne (Ne.symm hne)]
      exact hon
    have hros := completeSwap_ros hout
    have hmods : modRec (completeSwap (confirming m s)) = modRec (stopModule (confirming m s).ros.swap.outgoing false (confirming m s)) :=
      modRec_congr (by rw [hros])
    obtain ⟨q, hq, -⟩ := modRec_of_state hout (by decide)
    rw [if_pos hin, modState_congr hmods, hros, confirming_swap, confirming_now]
    rw [confirming_swap] at hq
    refine ⟨?_, modState_stopModule (by rw [hq]; rfl), rfl⟩
    rw [modState_stopModule_ne hne, modState_of_rec hrec]

theorem judgeStop_expires (hs : modState s m = .stopping) (ho : modOk s m = true) (h10 : 10 ≤ inStateFor s m) : judgeStop m s =
    logEv .stopUnconfirmed (wordOf m) (wordOf (stopDestination s m).code) 0 (modEnter m (stopDestination s m) s) := by
  rw [judgeStop, if_pos hs]
  dsimp only
  rw [if_neg (by simp [ho]), if_pos h10]

theorem stopDestination_of_rec (h : modRec s m = some r) : stopDestination s m = if r.destService then .service else .resting := by
  rw [stopDestination, h]
  rfl

/-- A stop not confirmed in its time. -/
theorem module_stop_unconfirmed (hr : modRec s m = some r) (hs : r.state = .stopping) (ho : modOk s m = true)
    (h10 : 10 ≤ since s r.entered) :
    let t := refreshModuleConds (judgeStop m s)
    modRec t m = some { r with state := if r.destService then .service else .resting, entered := now s } ∧
      t.ros.inh = s.ros.inh.set m .asserted ∧ (r.destService = false → m ∈ t.ros.queue) ∧
      (s.log.queue.length + 2 ≤ 32 → s.log.queue ++
        [⟨.moduleState, wordOf m, 4, if r.destService then 7 else 1, now s, s.log.gap⟩,
          ⟨.stopUnconfirmed, wordOf m, if r.destService then 7 else 1, 0, now s, false⟩] <+: t.log.queue) := by
  intro t
  have hstate : modState s m = .stopping := (modState_of_rec hr).trans hs
  have hdest := stopDestination_of_rec hr
  have ht : t = refreshModuleConds (logEv .stopUnconfirmed (wordOf m) (wordOf (stopDestination s m).code) 0
      (modEnter m (stopDestination s m) s)) :=
    congrArg refreshModuleConds (judgeStop_expires hstate ho (by rw [inStateFor_of_rec hr]; exact h10))
  have hrec : modRec (logEv .stopUnconfirmed (wordOf m) (wordOf (stopDestination s m).code) 0 (modEnter m (stopDestination s m) s)) =
      modRec (modEnter m (stopDestination s m) s) := modRec_congr (by rw [logEv_ros])
  rw [ht, refreshModuleConds_modRec, refreshModuleConds_ros, hrec, logEv_ros, modRec_modEnter, hr, modEnter_ros, hdest]
  refine ⟨rfl, ?_, fun hd => ?_, fun hroom => ?_⟩
  · cases r.destService <;> rfl
  · rw [hd]
    exact mem_insertQueue _
  · have hlog : (modEnter m (if r.destService then .service else .resting) s).log = _ := modEnter_log (by omega)
    have hnow : now (modEnter m (if r.destService then .service else .resting) s) = now s := modEnter_rest.2.1
    have hgrows := refreshModuleConds_grows (s := logEv .stopUnconfirmed (wordOf m)
      (wordOf (if r.destService then ModState.service else ModState.resting).code) 0
      (modEnter m (if r.destService then .service else .resting) s))
    rw [LogGrows, logEv_room (by rw [hlog]; simp; omega), hlog, hnow, hstate] at hgrows
    refine List.IsPrefix.trans ?_ hgrows
    refine ⟨[], ?_⟩
    cases r.destService <;> simp [ModState.code, wordOf]

/-- A watch span that completes. -/
theorem watchModule_strikes (hr : modRec s m = some r) (hw : watchDue s m = true) :
    watchModule m s = strike m 2 (setMod m (fun q => { q with watch := r.watch + 1 }) s) := by
  simp only [watchDue, hr, Option.map_some, Option.getD_some, Bool.and_eq_true, Bool.not_eq_true', beq_iff_eq, decide_eq_true_eq] at hw
  obtain ⟨⟨⟨hon, hdead⟩, hok⟩, h5⟩ := hw
  rw [watchModule, if_pos hon]
  simp only [hr, Option.map_some, Option.getD_some]
  rw [if_neg (by simp [hdead, hok]), if_pos h5]

theorem exec_moduleStartExpiry {m : Fin 8} (hr : inRun s = true) (h : 30 ≤ inStateFor s m.val) :
    exec (.moduleStartExpiry m) s = .next (refreshModuleConds (judgeStart m.val s)) :=
  whenDue_true (f := fun t => refreshModuleConds (judgeStart m.val t)) (by simp [hr, h])

theorem exec_stopUnconfirmed {m : Fin 8} (hr : inRun s = true) (h : 10 ≤ inStateFor s m.val) :
    exec (.stopUnconfirmed m) s = .next (refreshModuleConds (judgeStop m.val s)) :=
  whenDue_true (f := fun t => refreshModuleConds (judgeStop m.val t)) (by simp [hr, h])

theorem exec_watchSpanExpiry {m : Fin 8} (hr : inRun s = true) (h : watchDue s m.val = true) :
    exec (.watchSpanExpiry m) s = .next (refreshModuleConds (watchModule m.val s)) :=
  whenDue_true (f := fun t => refreshModuleConds (watchModule m.val t)) (by simp [hr, h])

/-- Settles O36: a start by its MOD_OK, a stop at its time, and a watch span that completes. -/
theorem moduleRows : Obligations.ModuleRows := by
  refine ⟨fun m r s hsh hr hrec hs h30 => ?starts, fun m r s hsh hr hrec hs ho h10 => ?stops, fun m r s hsh hr hrec hw => ?watches⟩
  case starts =>
    have h := fun ho => moduleStart_expires hsh hrec hs ho h30
    exact ⟨refreshModuleConds (judgeStart m.val s), exec_moduleStartExpiry hr (by rw [inStateFor_of_rec hrec]; exact h30), fun ho => (h ho).1, fun ho => (h ho).2.1,
      fun ho => (h ho).2.2, fun ho => (moduleStart_confirms hrec hs ho).1, fun ho => (moduleStart_confirms hrec hs ho).2⟩
  case stops =>
    exact ⟨refreshModuleConds (judgeStop m.val s), exec_stopUnconfirmed hr (by rw [inStateFor_of_rec hrec]; exact h10),
      module_stop_unconfirmed hrec hs ho h10⟩
  case watches =>
    intro l
    have hrec' : modRec (setMod m.val (fun q => { q with watch := r.watch + 1 }) s) m.val = some { r with watch := r.watch + 1 } := by
      rw [modRec_setMod, hrec]
      rfl
    have hl : struck (setMod m.val (fun q => { q with watch := r.watch + 1 }) s) m.val = l := (struck_of_rec hrec').trans rfl
    refine ⟨refreshModuleConds (watchModule m.val s), exec_watchSpanExpiry hr hw, ?_⟩
    rw [refreshModuleConds_modRec, refreshModuleConds_ros, watchModule_strikes hrec hw, strike_inh, modRec_strike, modRec_striking, hrec', hl]
    exact ⟨rfl, rfl⟩

/-- Settles O37: by whether the hold has run. -/
theorem retryHoldEnd : Obligations.RetryHoldEnd := by
  intro m r s hsh hrun hrec hs
  have hstate : modState s m.val = .failed := (modState_of_rec hrec).trans hs
  refine ⟨refreshModuleConds (endHold m.val s), whenDue_true (f := fun t => refreshModuleConds (endHold m.val t)) hrun, fun h => ?_, fun h => ?_⟩
  · have hend : endHold m.val s = modEnter m.val .resting s := if_pos ⟨hstate, by rw [inStateFor_of_rec hrec]; exact h⟩
    rw [refreshModuleConds_modRec, refreshModuleConds_ros, hend, modRec_modEnter, hrec, modEnter_ros]
    exact ⟨rfl, rfl, rfl⟩
  · have hwait : endHold m.val s = s := if_neg (by rw [inStateFor_of_rec hrec]; omega)
    rw [refreshModuleConds_ros, hwait]

end Sys2Proof.Machine
end

section
/-! PROOFS. The shed (O38) and a capacity taken (R65). -/

namespace Sys2Proof.Machine

variable {s t u : State} {m j n : Nat} {r : ModuleRec} {c : Cap}

/-! ## The most worn module -/

/-- A choice by comparison over a list chooses from it. -/
theorem foldl_choice_mem {α : Type} {f : α → α → α} (hf : ∀ a b, f a b = a ∨ f a b = b) : ∀ (l : List α) (a : α), l.foldl f a ∈ a :: l
  | [], _ => List.mem_singleton.2 rfl
  | b :: l, a => by
    have h := foldl_choice_mem hf l (f a b)
    rcases List.mem_cons.1 h with h | h
    · rcases hf a b with e | e
      · rw [List.foldl_cons, h, e]
        exact List.mem_cons_self
      · rw [List.foldl_cons, h, e]
        exact List.mem_cons_of_mem _ List.mem_cons_self
    · exact List.mem_cons_of_mem _ (List.mem_cons_of_mem _ h)

theorem mostWorn_mem (h : mostWorn s = some m) : m ∈ modulesIn s .online := by
  unfold mostWorn at h
  split at h
  · cases h
  · next a l hl =>
    rw [hl, ← Option.some.inj h]
    exact foldl_choice_mem (fun x y => by split <;> simp) l a

theorem mostWorn_none (h : mostWorn s = none) : modulesIn s .online = [] := by
  unfold mostWorn at h
  split at h
  · next hl => exact hl
  · cases h

/-! ## The online capacity under the stops -/

/-- A module that leaves STARTING or ONLINE leaves the running modules. -/
theorem runningModules_drops (hm : modState t m ≠ .starting ∧ modState t m ≠ .online) (hj : ∀ j, j ≠ m → modState t j = modState s j) :
    runningModules t = (runningModules s).filter (· != m) := by
  unfold runningModules
  rw [List.filter_filter]
  refine List.filter_congr fun j _ => ?_
  by_cases h : j = m
  · subst h
    simp [hm.1, hm.2]
  · simp [hj j h, h]

theorem sum_le_of_sublist {l l' : List Nat} (h : List.Sublist l l') : l.sum ≤ l'.sum := by
  induction h with
  | slnil => exact Nat.le_refl _
  | cons a _ ih =>
    rw [List.sum_cons]
    omega
  | cons_cons a _ ih =>
    rw [List.sum_cons, List.sum_cons]
    omega

theorem onlineCapacity_drops (hm : modState t m ≠ .starting ∧ modState t m ≠ .online) (hj : ∀ j, j ≠ m → modState t j = modState s j)
    (hs : t.settings = s.settings) : onlineCapacity t ≤ onlineCapacity s := by
  unfold onlineCapacity ratingsOf
  rw [runningModules_drops hm hj, hs]
  exact sum_le_of_sublist ((List.filter_sublist (p := (· != m))).map _)

/-- The modules in a state that one module leaves. -/
theorem modulesIn_drops {st : ModState} (hr : ∀ j, (modRec t j).isSome = (modRec s j).isSome) (hm : modState t m ≠ st)
    (hj : ∀ j, j ≠ m → modState t j = modState s j) : modulesIn t st = (modulesIn s st).filter (· != m) := by
  unfold modulesIn
  rw [List.filter_filter]
  refine List.filter_congr fun j _ => ?_
  by_cases h : j = m
  · subst h
    simp [hm]
  · simp [hj j h, hr j, h]

theorem stopModule_settings {b : Bool} : (stopModule m b s).settings = s.settings := (stopModule_quiet (Quiet.refl s)).settings_eq

section Stop

variable (hm : m ∈ modulesIn s .online)
include hm

theorem stopModule_leaves : modState (stopModule m false s) m = .stopping := modState_stopModule (mem_modulesIn.1 hm).2.1

theorem stopModule_online : modulesIn (stopModule m false s) .online = (modulesIn s .online).filter (· != m) :=
  modulesIn_drops (fun _ => modRec_stopModule_isSome) (by rw [stopModule_leaves hm]; decide) fun _ h => modState_stopModule_ne (Ne.symm h)

theorem stopModule_starting (h : modulesIn s .starting = []) : modulesIn (stopModule m false s) .starting = [] := by
  rw [modulesIn_drops (s := s) (fun _ => modRec_stopModule_isSome) (by rw [stopModule_leaves hm]; decide)
    fun _ h => modState_stopModule_ne (Ne.symm h), h]
  rfl

/-- One ONLINE module fewer. -/
theorem stopModule_online_length : (modulesIn (stopModule m false s) .online).length + 1 ≤ (modulesIn s .online).length := by
  rw [stopModule_online hm, ← List.countP_eq_length_filter]
  have hlt : (modulesIn s .online).countP (· != m) < (modulesIn s .online).length :=
    Nat.lt_of_le_of_ne List.countP_le_length fun h => by simpa using List.countP_eq_length.1 h m hm
  omega

end Stop

/-- With no module STARTING and none ONLINE the online capacity is 0. -/
theorem onlineCapacity_none (hs : modulesIn s .starting = []) (ho : modulesIn s .online = []) : onlineCapacity s = 0 := by
  have hrun : runningModules s = [] := by
    refine List.filter_eq_nil_iff.2 fun m hm h => ?_
    have hst : modState s m = .starting ∨ modState s m = .online := by simpa using h
    have hlt : m < 8 := List.mem_range.1 hm
    rcases hst with h | h
    · obtain ⟨r, hr, -⟩ := modRec_of_state h (by decide)
      have hmem : m ∈ modulesIn s .starting := mem_modulesIn.2 ⟨hlt, by rw [hr]; rfl, h⟩
      rw [hs] at hmem
      exact List.not_mem_nil hmem
    · obtain ⟨r, hr, -⟩ := modRec_of_state h (by decide)
      have hmem : m ∈ modulesIn s .online := mem_modulesIn.2 ⟨hlt, by rw [hr]; rfl, h⟩
      rw [ho] at hmem
      exact List.not_mem_nil hmem
  rw [onlineCapacity, hrun]
  rfl

theorem Cap.holds_zero : c.holds 0 = true := by cases c <;> simp [Cap.holds]

theorem Cap.holds_mono {a b : Nat} (h : c.holds b = true) (hab : a ≤ b) : c.holds a = true := by
  cases c with
  | unlimited => rfl
  | limited v =>
    simp only [Cap.holds, decide_eq_true_eq] at h ⊢
    omega

theorem stopModule_cap {b : Bool} : (stopModule m b s).ros.cap = s.ros.cap := by rw [stopModule_ros]

theorem stopExcess_cap : ∀ {n : Nat} {s : State}, (stopExcess n s).ros.cap = s.ros.cap
  | 0, _ => rfl
  | n + 1, s => by
    unfold stopExcess
    split
    · rfl
    · split
      · exact stopExcess_cap.trans stopModule_cap
      · rfl

/-- Stops of as many modules as are ONLINE bring the online capacity within the capacity in force. -/
theorem stopExcess_holds : ∀ {n : Nat} {s : State}, (modulesIn s .online).length ≤ n → modulesIn s .starting = [] →
    s.ros.cap.holds (onlineCapacity (stopExcess n s)) = true
  | 0, s, hn, hs => by
    have ho : modulesIn s .online = [] := List.eq_nil_of_length_eq_zero (Nat.le_zero.1 hn)
    rw [stopExcess, onlineCapacity_none hs ho]
    exact Cap.holds_zero
  | n + 1, s, hn, hs => by
    unfold stopExcess
    split
    · next h => exact h
    · split
      · next m hm =>
        have hmem := mostWorn_mem hm
        have hlen := stopModule_online_length hmem
        have ih := stopExcess_holds (n := n) (s := stopModule m false s) (by omega) (stopModule_starting hmem hs)
        rw [stopModule_cap] at ih
        exact ih
      · next hm =>
        rw [onlineCapacity_none hs (mostWorn_none hm)]
        exact Cap.holds_zero

theorem modulesIn_length {st : ModState} : (modulesIn s st).length ≤ 8 := Nat.le_trans (List.length_filter_le _ _) (by simp)

/-! ## A start abandoned -/

theorem modEnter_cap {st : ModState} : (modEnter m st s).ros.cap = s.ros.cap := by rw [modEnter_ros]

theorem abandonStart_cap : (abandonStart s).ros.cap = s.ros.cap := by
  unfold abandonStart
  split
  · exact modEnter_cap
  · rfl

theorem head_modulesIn {st : ModState} (h : (modulesIn s st).head? = some m) : (modRec s m).isSome = true ∧ modState s m = st :=
  (mem_modulesIn.1 (List.mem_of_mem_head? h)).2

theorem abandonStart_capacity : onlineCapacity (abandonStart s) ≤ onlineCapacity s := by
  unfold abandonStart
  split
  · next m hm =>
    have hstate : modState (modEnter m .resting s) m = .resting := modState_modEnter (head_modulesIn hm).1
    exact onlineCapacity_drops (by rw [hstate]; decide) (fun _ h => modState_modEnter_ne (Ne.symm h)) modEnter_rest.1
  · exact Nat.le_refl _

/-- With at most one module STARTING none is afterwards. -/
theorem abandonStart_starting (h : (modulesIn s .starting).length ≤ 1) : modulesIn (abandonStart s) .starting = [] := by
  unfold abandonStart
  split
  · next m hm =>
    have hstate : modState (modEnter m .resting s) m = .resting := modState_modEnter (head_modulesIn hm).1
    rw [modulesIn_drops (s := s) (fun _ => modRec_modEnter_isSome) (by rw [hstate]; decide) fun _ h => modState_modEnter_ne (Ne.symm h)]
    cases hl : modulesIn s .starting with
    | nil => rfl
    | cons a l =>
      rw [hl] at h hm
      have hnil : l = [] := List.eq_nil_of_length_eq_zero (by simpa using h)
      simp_all
  · next hm => exact List.head?_eq_none_iff.1 hm

/-! ## The immediate shed and a capacity taken (R65) -/

theorem immediateShed_holding (h : s.ros.cap.holds (onlineCapacity s) = true) : immediateShed s = s := if_pos h

theorem immediateShed_cap : (immediateShed s).ros.cap = s.ros.cap := by
  unfold immediateShed
  split
  · rfl
  · exact stopExcess_cap.trans abandonStart_cap

theorem immediateShed_holds (h : (modulesIn s .starting).length ≤ 1) : s.ros.cap.holds (onlineCapacity (immediateShed s)) = true := by
  unfold immediateShed
  split
  · next hc => exact hc
  · have hstop := stopExcess_holds (n := 8) (s := abandonStart s) modulesIn_length (abandonStart_starting h)
    rw [abandonStart_cap] at hstop
    exact hstop

theorem takeCapacity_same (h : s.ros.cap = c) : takeCapacity c s = s := if_pos h

/-- The roster as a capacity comes into force: the watch spans restart when it leaves 0 (R58). -/
def revived (c : Cap) (s : State) : State :=
  if s.ros.cap.dead then { s with ros := { s.ros with cap := c, mods := s.ros.mods.map (Option.map fun r => { r with watch := 0 }) } }
  else { s with ros := { s.ros with cap := c } }

theorem takeCapacity_new (h : s.ros.cap ≠ c) : takeCapacity c s =
    if (immediateShed (revived c s)).ros.swap.inProgress ∧ c ≠ .unlimited then
      abandonSwap .abandonedSource (abandonStart (immediateShed (revived c s)))
    else immediateShed (revived c s) := by
  unfold takeCapacity revived
  rw [if_neg h]

theorem revived_cap : (revived c s).ros.cap = c := by
  unfold revived
  split <;> rfl

theorem revived_modState : modState (revived c s) = modState s := by
  funext m
  unfold revived
  split
  · simp only [modState, modRec, List.getElem?_map]
    cases s.ros.mods[m]? with
    | none => rfl
    | some o => cases o <;> rfl
  · rfl

theorem revived_isSome : (modRec (revived c s) m).isSome = (modRec s m).isSome := by
  unfold revived
  split
  · simp only [modRec, List.getElem?_map]
    cases s.ros.mods[m]? with
    | none => rfl
    | some o => cases o <;> rfl
  · rfl

theorem takeCapacity_cap : (takeCapacity c s).ros.cap = c := by
  by_cases h : s.ros.cap = c
  · rw [takeCapacity_same h, h]
  · rw [takeCapacity_new h]
    split
    · rw [abandonSwap_ros, abandonStart_cap, immediateShed_cap, revived_cap]
    · rw [immediateShed_cap, revived_cap]

theorem takeCapacity_holds (hne : s.ros.cap ≠ c) (h : (modulesIn s .starting).length ≤ 1) :
    c.holds (onlineCapacity (takeCapacity c s)) = true := by
  have hstart : modulesIn (revived c s) .starting = modulesIn s .starting := modulesIn_congr (fun _ => revived_isSome) revived_modState
  have hshed := immediateShed_holds (s := revived c s) (by rw [hstart]; exact h)
  rw [revived_cap] at hshed
  rw [takeCapacity_new hne]
  split
  · have hcap : onlineCapacity (abandonSwap .abandonedSource (abandonStart (immediateShed (revived c s)))) =
        onlineCapacity (abandonStart (immediateShed (revived c s))) :=
      onlineCapacity_congr (modState_congr abandonSwap_modRec) (abandonSwap_quiet (Quiet.refl _)).settings_eq
    rw [hcap]
    exact Cap.holds_mono hshed abandonStart_capacity
  · exact hshed

/-! ## The shed span (R69) -/

theorem shedCandidate_online (h : shedCandidate s = some m) : m ∈ modulesIn s .online := by
  unfold shedCandidate at h
  split at h
  · next c hc =>
    split at h
    · cases h
      exact mostWorn_mem hc
    · cases h
  · cases h

theorem shedRule_due (h : shedCandidate s = some m) (h600 : 600 ≤ s.ros.shedSpan + 1) :
    shedRule s = stopModule m false { s with ros := { s.ros with shedSpan := 0 } } := by
  unfold shedRule
  simp only [h, if_pos h600]

/-- A rating, reserve or utilisation stored (R53). -/
theorem settingTaken_account {o : Nat} {old : Word} (hlo : 0x218 ≤ o) (hhi : o ≤ 0x221) : settingTaken o old s = immediateShed s := by
  rw [settingTaken, if_neg (by omega), if_pos (by omega), plantStored, if_neg (by omega), if_neg (by omega), if_neg (by omega),
    if_pos (by omega)]

/-- Settles O38: the stop of the candidate, and the stops of the immediate shed. -/
theorem shedRows : Obligations.ShedRows := by
  refine ⟨fun c s hsh hr hc h600 => ⟨shedRule s, whenDue_true (by simp [hr, hc, h600]), ?_⟩,
    fun s hsh h => ⟨immediateShed_cap, by rw [immediateShed_cap]; exact immediateShed_holds h⟩,
    fun o v s hlo hhi h => ?_⟩
  · have hmem : c ∈ modulesIn { s with ros := { s.ros with shedSpan := 0 } } .online := shedCandidate_online hc
    obtain ⟨r, hrec, -⟩ := modRec_of_state (mem_modulesIn.1 hmem).2.2 (by decide)
    rw [shedRule_due hc h600]
    refine ⟨stopModule_leaves hmem, ?_, ?_, ?_⟩
    · rw [stopDestination, modRec_stopModule, hrec]
      rfl
    · rw [stopModule_ros]
    · rw [stopModule_ros]
  · obtain ⟨-, hlisten, hguard⟩ := h
    intro u
    refine ⟨immediateShed u, ?_, rfl, immediateShed_holding, fun h => ⟨immediateShed_cap, ?_⟩⟩
    · rw [guardedWrite_stores hlisten (by omega) (by omega) hguard]
      exact congrArg Host.Outcome.next (settingTaken_account hlo hhi)
    · rw [immediateShed_cap]
      exact immediateShed_holds h

end Sys2Proof.Machine
end

section
/-! PROOFS. A command posted and run (R170, R171), and the commands of the roster (O39). -/

namespace Sys2Proof.Machine

variable {s t u : State} {slot : Fin 16} {tag : BitVec 8} {op : Nat} {c : Instr} {r : ModuleRec} {m : Nat}

/-! ## A command that the checks pass -/

/-- The state in which a command's rule has run, before it is answered, and the reply. -/
def ruled (slot : Fin 16) (op : Nat) (tag : BitVec 8) (s : State) : State × Reply := runRule slot.val op (atPost slot op tag s)

/-- The state after a command that the checks pass. -/
def commanded (slot : Fin 16) (op : Nat) (tag : BitVec 8) (s : State) : State :=
  answer slot.val op tag.toNat (ruled slot op tag s).2 (ruled slot op tag s).1

theorem exec_command (hp : postOf c = some (slot, op, tag)) (ho : op < 256) (hne : op ≠ Op.softReset) (hl : Listens s)
    (hd : dispatchRefusal op s = none) : exec c s = .next (commanded slot op tag s) := by
  rw [exec_post hp, post_listens hl ho, takeCommand_runs (dispatchRefusal_atPost.trans hd) hne]
  rfl

theorem replyOf_commanded (hs : Shape s) : replyOf (commanded slot op tag s) slot = (ruled slot op tag s).2 := by
  refine replyOf_answer ?_
  rw [ruled, runRule_ruled.cmd, atPost_slots_length hs]
  exact slot.isLt

theorem commanded_gen : (commanded slot op tag s).gen = (ruled slot op tag s).1.gen := answer_gen

theorem commanded_ros : (commanded slot op tag s).ros = (ruled slot op tag s).1.ros := logEv_ros

theorem commanded_conds : (commanded slot op tag s).conds = (ruled slot op tag s).1.conds := logEv_conds

theorem commanded_modRec : modRec (commanded slot op tag s) = modRec (ruled slot op tag s).1 := modRec_congr (by rw [commanded_ros])

/-- The state in which a command is judged has the shape of the one before. -/
theorem heartbeat_shape : shape (heartbeat s) = shape s := (heartbeat_quiet (s := s)).shape

theorem atPost_shape (hs : Shape s) : Shape (atPost slot op tag s) := by
  have h : shape (heartbeat s) = _ := heartbeat_shape.trans hs
  simp only [Shape, shape, atPost, captureWord, hostStore, updAt_length] at h ⊢
  exact h

/-! ## MODULE_SERVICE (R61) -/

theorem moduleService_none (h : modRec s m = none) : moduleService m s = (s, .refusedRange, 1) := by simp only [moduleService, h]

theorem moduleService_refused (h : modRec s m = some r) (hs : r.state = .service ∨ (r.state = .stopping ∧ r.destService = true)) :
    moduleService m s = (s, .refusedState, 1) := by
  rcases hs with hs | ⟨hs, hd⟩
  · simp only [moduleService, h, hs]
  · simp only [moduleService, h, hs, hd, if_true]

theorem moduleService_stopping (h : modRec s m = some r) (hs : r.state = .stopping) (hd : r.destService = false) :
    moduleService m s = (setMod m (fun r => { r with destService := true }) s, .done, 0) := by
  simp only [moduleService, h, hs, hd, Bool.false_eq_true, if_false]

theorem moduleService_runs (h : modRec s m = some r) (hs : r.state = .online ∨ r.state = .starting) :
    (moduleService m s).2 = (.done, 0) ∧ modRec (moduleService m s).1 m =
      some { r with destService := true, state := .stopping, entered := now s } := by
  have hstop : modRec (stopModule m true s) m = some { r with destService := true, state := .stopping, entered := now s } := by
    rw [modRec_stopModule, h]
    rfl
  rcases hs with hs | hs <;> unfold moduleService <;> rw [h] <;> simp only [hs]
  · exact ⟨trivial, by rw [refreshModuleConds_modRec, hstop]⟩
  · refine ⟨trivial, ?_⟩
    rw [refreshModuleConds_modRec]
    split
    · rw [abandonSwap_modRec, hstop]
    · exact hstop

theorem moduleService_rests (h : modRec s m = some r) (hs : r.state = .resting ∨ r.state = .failed ∨ r.state = .barred) :
    moduleService m s = (refreshModuleConds (modEnter m .service s), .done, 0) := by
  rcases hs with hs | hs | hs <;> simp only [moduleService, h, hs]

/-! ## MODULE_RETURN (R62) -/

theorem moduleReturn_none (h : modRec s m = none) : moduleReturn m s = (s, .refusedRange, 1) := by simp only [moduleReturn, h]

/-- The record with its strikes cleared. -/
theorem modRec_cleared (h : modRec s m = some r) :
    modRec (setMod m (fun r => { r with strikes := [] }) s) m = some { r with strikes := [] } := by rw [modRec_setMod, h]; rfl

theorem moduleReturn_returns (h : modRec s m = some r) (hs : r.state = .service ∨ r.state = .failed ∨ r.state = .barred) :
    moduleReturn m s = (refreshModuleConds (modEnter m .resting (setMod m (fun r => { r with strikes := [] }) s)), .done, 0) := by
  rcases hs with hs | hs | hs <;> simp only [moduleReturn, h, hs]

theorem moduleReturn_stopping (h : modRec s m = some r) (hs : r.state = .stopping) : moduleReturn m s =
    (setMod m (fun r => { r with destService := false }) (setMod m (fun r => { r with strikes := [] }) s), .done, 0) := by
  simp only [moduleReturn, h, hs]

theorem moduleReturn_stays (h : modRec s m = some r) (hs : r.state = .resting ∨ r.state = .starting ∨ r.state = .online ∨ r.state = .absent) :
    moduleReturn m s = (setMod m (fun r => { r with strikes := [] }) s, .done, 0) := by
  rcases hs with hs | hs | hs | hs <;> simp only [moduleReturn, h, hs]

/-- A present module's return is always done. -/
theorem moduleReturn_done (h : modRec s m = some r) : (moduleReturn m s).2 = (.done, 0) := by
  cases hs : r.state with
  | service => rw [moduleReturn_returns h (.inl hs)]
  | failed => rw [moduleReturn_returns h (.inr (.inl hs))]
  | barred => rw [moduleReturn_returns h (.inr (.inr hs))]
  | stopping => rw [moduleReturn_stopping h hs]
  | resting => rw [moduleReturn_stays h (.inl hs)]
  | starting => rw [moduleReturn_stays h (.inr (.inl hs))]
  | online => rw [moduleReturn_stays h (.inr (.inr (.inl hs)))]
  | absent => rw [moduleReturn_stays h (.inr (.inr (.inr hs)))]

/-! ## ROTATE_NOW (R74) -/

/-- The three preconditions before the pair of a swap is looked for. -/
abbrev MayRotate (s : State) : Prop :=
  s.ros.swap.inProgress = false ∧ anyStarting s = false ∧ s.ros.cap = .unlimited ∧ attended s = false

theorem rotateNow_none (h : MayRotate s) (hp : swapPair s = none) : rotateNow s = (s, .refusedState, 3) := by
  obtain ⟨hin, hs, hc, ha⟩ := h
  simp only [rotateNow, hin, hs, hc, ha, hp, ne_eq, not_true, Bool.false_eq_true, if_false]

theorem rotateNow_near {p : Nat × Nat} (h : MayRotate s) (hp : swapPair s = some p) (hm : marginMet s p = false) :
    rotateNow s = (s, .refusedState, 4) := by
  obtain ⟨hin, hs, hc, ha⟩ := h
  simp only [rotateNow, hin, hs, hc, ha, hp, hm, ne_eq, not_true, Bool.false_eq_true, if_false]

theorem rotateNow_starts {p : Nat × Nat} (h : MayRotate s) (hp : swapPair s = some p) (hm : marginMet s p = true) :
    rotateNow s = (startSwap p.1 p.2 s, .started, 0) := by
  obtain ⟨hin, hs, hc, ha⟩ := h
  simp only [rotateNow, hin, hs, hc, ha, hp, hm, ne_eq, not_true, Bool.false_eq_true, if_false, if_true]

theorem startSwap_swap {i o : Nat} : (startSwap i o s).ros.swap =
    { s.ros.swap with inProgress := true, incoming := i, outgoing := o, retry := none } := by
  unfold startSwap
  rw [startModule_ros]
  rfl

theorem modState_startSwap {i o : Nat} (h : (modRec s i).isSome = true) : modState (startSwap i o s) i = .starting :=
  modState_startModule (s := setSwap _ s) h

/-- Settles O39: each command by the state of its module, or of the swap. -/
theorem moduleCommands : Obligations.ModuleCommands := by
  intro slot tag s hs hl
  refine ⟨fun hd => ?service, fun hd => ?back, fun hd => ?rotate⟩
  case service =>
    intro u m
    have hnow : now u = now s := atPost_now
    have hrule : ruled slot Op.moduleService tag s = moduleService m u := rfl
    refine ⟨commanded slot Op.moduleService tag s, exec_command rfl (by decide) (by decide) hl hd, ?_⟩
    rw [replyOf_commanded hs, commanded_modRec, commanded_ros, hrule]
    refine ⟨fun h => ?_, fun r h hst => ?_, fun r h hst => ?_, fun r h hst hdest => ?_, fun r h hst => ?_⟩
    · rw [moduleService_none h]
    · rw [moduleService_refused h hst]
    · obtain ⟨hreply, hrec⟩ := moduleService_runs h hst
      exact ⟨hreply, by rw [hrec, hnow]⟩
    · rw [moduleService_stopping h hst hdest, modRec_setMod, h]
      exact ⟨rfl, rfl⟩
    · rw [moduleService_rests h hst, refreshModuleConds_modRec, refreshModuleConds_ros, modRec_modEnter, h, modEnter_ros, hnow]
      exact ⟨rfl, rfl, fun hmem => by simp at hmem⟩
  case back =>
    intro u m
    have hnow : now u = now s := atPost_now
    have hrule : ruled slot Op.moduleReturn tag s = moduleReturn m u := rfl
    refine ⟨commanded slot Op.moduleReturn tag s, exec_command rfl (by decide) (by decide) hl hd, ?_⟩
    rw [replyOf_commanded hs, commanded_modRec, commanded_ros, hrule]
    refine ⟨fun h => ?_, fun r h => moduleReturn_done h, fun r h hst => ?_, fun r h hst => ?_, fun r h hst => ?_⟩
    · rw [moduleReturn_none h]
    · have hrec := modRec_cleared h
      rw [moduleReturn_returns h hst, refreshModuleConds_modRec, refreshModuleConds_ros, modRec_modEnter, hrec, modEnter_ros]
      exact ⟨congrArg (fun time => some (ModuleRec.entering { r with strikes := [] } .resting time)) hnow, mem_insertQueue _⟩
    · rw [moduleReturn_stopping h hst, modRec_setMod, modRec_cleared h]
      rfl
    · rw [moduleReturn_stays h (by rcases hst with h | h | h <;> simp [h]), modRec_cleared h]
  case rotate =>
    intro u
    have hrule : ruled slot Op.rotateNow tag s = rotateNow u := rfl
    refine ⟨commanded slot Op.rotateNow tag s, exec_command rfl (by decide) (by decide) hl hd, ?_⟩
    rw [replyOf_commanded hs, commanded_ros, modState_congr commanded_modRec, hrule]
    refine ⟨fun hp => ?_, fun hp hst => ?_, fun hp hst hc => ?_, fun hp hst hc ha => ?_, fun hp hst hc ha => ?_⟩
    · simp only [rotateNow, hp, if_true]
    · simp only [rotateNow, hp, hst, Bool.false_eq_true, if_false, if_true]
    · rw [rotateNow, if_neg (by simp [hp]), if_neg (by simp [hst]), if_pos hc]
    · rw [rotateNow, if_neg (by simp [hp]), if_neg (by simp [hst]), if_neg (by simp [hc]), if_pos ha]
    · have hmay : MayRotate u := ⟨hp, hst, hc, ha⟩
      refine ⟨fun h => by rw [rotateNow_none hmay h], fun p h hm => by rw [rotateNow_near hmay h hm], fun p h hm => ?_⟩
      rw [rotateNow_starts hmay h hm]
      exact ⟨rfl, startSwap_swap, modState_startSwap⟩

end Sys2Proof.Machine
end

section
/-! PROOFS. The rows of a running engine (O47) and the generator's commands (O49). -/

namespace Sys2Proof.Machine

variable {s t u : State} {c : ShutdownCause} {k : RequestKind}

/-! ## The capacity handed on (R91) -/

theorem handCapacity_cap (h : trainRuns s = true) : (handCapacity s).ros.cap = sourceCapacity s := by
  rw [handCapacity, if_pos h, takeCapacity_cap]

theorem sourceCapacity_onGen (h : s.src.xfer.state = .onGen) : sourceCapacity s = .limited s.gen.capacity := by
  simp only [sourceCapacity, h]

/-- The generator's capacity counts ON_GEN alone. -/
theorem sourceCapacity_setGen {f : Gen → Gen} (h : s.src.xfer.state ≠ .onGen) : sourceCapacity (setGen f s) = sourceCapacity s := by
  unfold sourceCapacity
  simp only [setGen_src]
  cases hx : s.src.xfer.state <;> simp_all <;> rfl

/-- The state of a derate before the roster takes the capacity. -/
def derating (s : State) : State :=
  setCond Pt.genOverload true (logEv .derate 0 (wordOf (max (s.gen.capacity - largestOnline s) (smallestPresent s)))
    (wordOf (s.gen.capacity - max (s.gen.capacity - largestOnline s) (smallestPresent s)))
    (setGen (fun g => { g with
      capacity := max (s.gen.capacity - largestOnline s) (smallestPresent s), derates := satInc g.derates, droopSpan := 0 }) s))

theorem derate_eq : derate s = handCapacity (derating s) := rfl

theorem derating_st : (derating s).st = s.st := by
  rw [derating, setCond_st]
  exact (logEv_quiet (Quiet.refl _)).st_eq

theorem derate_cap (hr : inRun s = true) (h : s.src.xfer.state = .onGen) :
    (derate s).ros.cap = .limited (max (s.gen.capacity - largestOnline s) (smallestPresent s)) := by
  have hrun : trainRuns (derating s) = true := trainRuns_of_inRun ((inRun_congr derating_st).trans hr)
  have hxfer : (derating s).src.xfer.state = .onGen := by
    rw [derating, setCond_xfer, logEv_src]
    exact h
  rw [derate_eq, handCapacity_cap hrun, sourceCapacity_onGen hxfer, derating, setCond_gen (by decide), logEv_gen]
  rfl

/-! ## Engine faults -/

theorem genShutdown_condOf (hs : Shape s) : condOf (genShutdown c s) Pt.genShutdown = true :=
  condOf_set genShutdown_conds (by rw [conds_length hs]; decide)

/-- The switches of an engine whose oil-pressure protection has just armed. -/
def armed (s : State) : State := setGen (fun g => { g with oilTimer := false, oilArmed := true }) s

theorem oilArming_due (ht : s.gen.oilTimer = true) (hr : s.gen.state.running = true) : oilArming s = checkSwitches (armed s) :=
  if_pos (by rw [ht, hr]; rfl)

section Armed

variable (hr : inRun s = true) (hs : s.gen.state.running = true)
include hr hs

theorem checkSwitches_armed : checkSwitches (armed s) =
    if dinLevel s 10 then genShutdown .oil (armed s) else if dinLevel s 11 then genShutdown .coolant (armed s) else armed s :=
  if_pos (show (inRun s && s.gen.state.running) = true by rw [hr, hs]; rfl)

end Armed

theorem genCapacity_stored {v : Word} (h : Shape s) : genCapacity (stored 0x232 v s).settings = v.toNat := by
  have hl : s.settings.length = 640 := by simp_all [Shape, shape]
  simp [genCapacity, stored, natIn, wordIn, setWord, heartbeat_settings, List.getD, hl]

theorem exec_genCapacityStored {v : Word} (h : Stores 0x232 v s) :
    exec (.guardedWrite 0x232 v) s = .next (genCapacityStored (stored 0x232 v s)) := by
  obtain ⟨-, hlisten, hguard⟩ := h
  have htaken : ∀ old u, settingTaken 0x232 old u = genCapacityStored u := fun old u => by simp [settingTaken, plantStored]
  rw [guardedWrite_stores hlisten (by decide) (by decide) hguard]
  exact congrArg Host.Outcome.next (htaken _ _)

theorem exec_derate (hr : inRun s = true) (hd : derateDue s = true) (hf : s.gen.lastFreq < droopLimit s.settings) :
    exec .derate s = .next (derate s) := by
  simp only [derateDue, Bool.and_eq_true, decide_eq_true_eq] at hd
  obtain ⟨hcheck, h5⟩ := hd
  have hdroop : judgeDroop s.gen.lastFreq s = derate s := judgeDroop_derates hcheck hf (by rw [droopNext, if_pos hcheck, if_pos hf]; exact h5)
  refine (whenDue_true (f := fun t => judgeDroop t.gen.lastFreq t) (by simp [hr, derateDue, hcheck, h5, hf])).trans ?_
  rw [hdroop]

theorem exec_underspeed (hr : inRun s = true) (hd : underspeedDue s = true) (hf : s.gen.lastFreq < underspeed s.settings) :
    exec .underspeedSpanReached s =
      .next (genShutdown .underspeed (withGen { s.gen with underspeedSpan := s.gen.underspeedSpan + 1 } s)) := by
  have hd' := hd
  simp only [underspeedDue, Bool.and_eq_true, decide_eq_true_eq, beq_iff_eq] at hd'
  obtain ⟨hl, h10⟩ := hd'
  refine (whenDue_true (f := fun t => judgeUnderspeed t.gen.lastFreq t) (by simp [hr, hd, hf])).trans ?_
  rw [judgeUnderspeed_trips hl hf h10]

/-- Settles O47: the warm-up by its frequency, the arming by its switches, and the capacity by whether the transfer is ON_GEN. -/
theorem runningRows : Obligations.RunningRows := by
  refine ⟨fun s hsh hr hs ht => ⟨warmupExpiry s, rfl, ?warm⟩, fun s hsh hr ht hs => ⟨oilArming s, rfl, ?oil⟩,
    fun s hsh => ⟨fun hr hc => whenDue_true (f := setGen fun g => { g with loadCheckBegun := true }) (by rw [hr, hc]; rfl),
      fun h => whenDue_false (by rcases h with h | h <;> simp [h]), fun hr hd hf => ⟨derate s, exec_derate hr hd hf, ?derates⟩⟩,
    fun s hsh hr hd hf => ⟨_, exec_underspeed hr hd hf, ?under⟩, fun v s h => ?stored⟩
  case warm =>
    have hwarm : warmupExpiry s = judgeWarmup s := by
      rw [warmupExpiry, if_pos (by rw [hs, ht]; rfl), if_pos hr]
    rw [hwarm]
    refine ⟨fun hin => ?_, fun hout => ?_⟩
    · rw [judgeWarmup_ready hin]
      exact ⟨rfl, rfl, rfl, rfl, rfl⟩
    · rw [judgeWarmup_faults hout, genShutdown_gen]
      exact ⟨rfl, rfl, rfl, genShutdown_condOf hsh⟩
  case oil =>
    rw [oilArming_due ht hs, checkSwitches_armed hr hs]
    refine ⟨fun ho => ?_, fun ho hc => ?_, fun ho hc => ?_⟩
    · rw [if_pos ho, genShutdown_gen]
      exact ⟨rfl, rfl, rfl, genShutdown_condOf (s := armed s) hsh⟩
    · rw [if_neg (by simp [ho]), if_pos hc, genShutdown_gen]
      exact ⟨rfl, rfl⟩
    · rw [if_neg (by simp [ho]), if_neg (by simp [hc])]
      rfl
  case derates =>
    refine ⟨by rw [derate_gen], by rw [derate_gen], by rw [derate_gen], condOf_set derate_conds (by rw [conds_length hsh]; decide),
      derate_cap hr⟩
  case under =>
    rw [genShutdown_gen]
    exact ⟨rfl, rfl, rfl, rfl, genShutdown_condOf (s := withGen _ s) hsh⟩
  case stored =>
    intro u
    have hcap : genCapacity u.settings = v.toNat := genCapacity_stored h.1
    have hrun : trainRuns u = true := trainRuns_of_inRun (stored_inRun.trans (inRun_of_guard h.2.2))
    refine ⟨genCapacityStored u, exec_genCapacityStored h, fun hd => if_neg hd, fun hd => ?_⟩
    have htaken : genCapacityStored u = takeCapacity (sourceCapacity (withGen { u.gen with capacity := v.toNat } u))
        (withGen { u.gen with capacity := v.toNat } u) := by
      rw [genCapacityStored, if_pos hd, hcap]
      exact if_pos hrun
    have hgen : (genCapacityStored u).gen.capacity = v.toNat := by
      rw [genCapacityStored, if_pos hd, handCapacity_gen, hcap]
      rfl
    refine ⟨hgen, fun hx hsame => ?_, fun hx => ?_⟩
    · rw [htaken]
      exact takeCapacity_same (hsame.trans (sourceCapacity_setGen (f := fun g => { g with capacity := v.toNat }) hx).symm)
    · have hsrc : sourceCapacity (withGen { u.gen with capacity := v.toNat } u) = .limited v.toNat :=
        sourceCapacity_onGen (s := withGen { u.gen with capacity := v.toNat } u) hx
      rw [htaken, hsrc, takeCapacity_cap]
      exact ⟨rfl, fun hne hstart => takeCapacity_holds (s := withGen { u.gen with capacity := v.toNat } u) hne hstart⟩

/-! ## GEN_RUN (R100) -/

section GenRun

variable {n l : Nat}

theorem genRun_refused_loaded (h1 : 1 ≤ n) (h2 : n ≤ 1440) (hl : 1 < l) : genRunCommand n l s = (s, .refusedRange, 2) := by
  rw [genRunCommand, if_neg (by omega), if_pos hl]

section Ranges

variable (h1 : 1 ≤ n) (h2 : n ≤ 1440) (hl : l ≤ 1)
include h1 h2 hl

theorem genRun_refused_disabled (hs : s.gen.state = .disabled) : genRunCommand n l s = (s, .refusedState, 1) := by
  rw [genRunCommand, if_neg (by omega), if_neg (by omega), if_pos (by simp [hs])]

variable (hs : s.gen.state ≠ .disabled)
include hs

theorem genRun_refused_fuel (hf : pointActive s Pt.fuelCritical = true) : genRunCommand n l s = (s, .refusedState, 2) := by
  rw [genRunCommand, if_neg (by omega), if_neg (by omega), if_neg (by simp [hs]), if_pos hf]

variable (hf : pointActive s Pt.fuelCritical = false)
include hf

theorem genRun_refused_test (ht : testRunning s = true) : genRunCommand n l s = (s, .refusedBusy, 1) := by
  rw [genRunCommand, if_neg (by omega), if_neg (by omega), if_neg (by simp [hs]), if_neg (by simp [hf]), if_pos ht]

variable (ht : testRunning s = false)
include ht

theorem genRun_refused_manual (hm : requested s .manual = true) : genRunCommand n l s = (s, .refusedBusy, 2) := by
  rw [genRunCommand, if_neg (by omega), if_neg (by omega), if_neg (by simp [hs]), if_neg (by simp [hf]), if_neg (by simp [ht]), if_pos hm]

theorem genRun_taken (hm : requested s .manual = false) :
    genRunCommand n l s = (addRequest .manual (l == 1) (now s + n * 60) s, .done, 0) := by
  rw [genRunCommand, if_neg (by omega), if_neg (by omega), if_neg (by simp [hs]), if_neg (by simp [hf]), if_neg (by simp [ht]),
    if_neg (by simp [hm]), postRequest_taken hm (.inl hf) ht]

end Ranges

end GenRun

/-! ## GEN_RESET (R112) -/

/-- What entry to STANDBY leaves of the marks of a bar, of a fault and of service. -/
theorem enterStandby_keeps : (enterStandby s).gen.firstFailure = s.gen.firstFailure ∧ (enterStandby s).gen.cause = s.gen.cause ∧
    (enterStandby s).gen.service = s.gen.service := by
  have hseries : (seriesStart (standing s)).gen.firstFailure = (standing s).gen.firstFailure ∧
      (seriesStart (standing s)).gen.cause = (standing s).gen.cause ∧ (seriesStart (standing s)).gen.service = (standing s).gen.service := by
    unfold seriesStart
    split
    · dsimp only
      rw [genEnter_gen]
      exact ⟨rfl, rfl, rfl⟩
    · exact ⟨rfl, rfl, rfl⟩
  rw [standing_gen] at hseries
  exact hseries

theorem enterStandby_condOf {p : Nat} (h : p ≠ Pt.genOverload) : condOf (enterStandby s) p = condOf s p :=
  condOf_set_ne enterStandby_conds h.symm

theorem enterStandby_standby (hr : genReady s = false) (h : s.gen.requests.isEmpty = true) : (enterStandby s).gen.state = .standby := by
  rw [enterStandby_waits hr (.inl h)]
  rfl

/-- The state of a bar ended by GEN_RESET, before STANDBY. -/
def unbarred (s : State) : State :=
  setCond Pt.genFailStart false (setGen (fun g => { g with barHold := false, ackTaken := false, firstFailure := none }) s)

theorem unbarred_gen : (unbarred s).gen = { s.gen with barHold := false, ackTaken := false, firstFailure := none } := setCond_gen (by decide)

theorem genReset_barred (h : s.gen.state = .barred) : genResetCommand s = (enterStandby (unbarred s), .done, 0) := by
  simp only [genResetCommand, h]
  rfl

/-- The state of a fault cleared by GEN_RESET, before STANDBY. -/
def cleared (s : State) : State :=
  setCond Pt.genFailStop false (setCond Pt.genShutdown false (setGen (fun g => { g with cause := .none }) s))

theorem cleared_gen : (cleared s).gen = { s.gen with cause := .none } := (setCond_gen (by decide)).trans (setCond_gen (by decide))

theorem genReset_shutdown (h : s.gen.state = .shutdown) (hf : s.gen.lastFreq = 0) :
    genResetCommand s = (enterStandby (cleared s), .done, 0) := by
  simp only [genResetCommand, h, hf, if_true]
  rfl

theorem genReset_turning (h : s.gen.state = .shutdown) (hf : s.gen.lastFreq ≠ 0) : genResetCommand s = (s, .refusedBusy, 1) := by
  simp only [genResetCommand, h, if_neg hf]

theorem genReset_refused (hb : s.gen.state ≠ .barred) (hs : s.gen.state ≠ .shutdown) : genResetCommand s = (s, .refusedState, 1) := by
  unfold genResetCommand
  split
  · next h => exact absurd h hb
  · next h => exact absurd h hs
  · rfl

/-! ## GEN_SERVICE (R121, R122) -/

/-- The record with its service mark. -/
def withService (b : Bool) (s : State) : State := setGen (fun g => { g with service := b }) s

theorem addAttempt_service {o : AttemptOutcome} {peak : Nat} : (addAttempt o peak s).gen.service = s.gen.service := by rw [addAttempt_gen]

/-- The record of a series abandoned. -/
theorem abandonSeries_marks {b : Bool} : (abandonSeries b s).gen.state = .stopping ∧ (abandonSeries b s).gen.destDisabled = b ∧
    (abandonSeries b s).gen.service = s.gen.service := by
  unfold abandonSeries
  dsimp only
  rw [genEnter_gen]
  refine ⟨rfl, rfl, ?_⟩
  show (State.gen (match s.gen.state with | .prestart => _ | .cranking => _ | _ => s)).service = s.gen.service
  split
  · exact addAttempt_service
  · exact addAttempt_service
  · rfl

/-- Service set from a state in which no engine cranks, runs or stops. -/
theorem serviceOn_disables (h : s.gen.state = .standby ∨ s.gen.state = .barred ∨ s.gen.state = .shutdown) :
    (serviceOn s).gen.state = .disabled ∧ (serviceOn s).gen.service = s.gen.service := by
  rcases h with h | h | h <;> simp only [serviceOn, h]
  · rw [genMove_gen]
    exact ⟨rfl, rfl⟩
  · rw [genMove_gen]
    exact ⟨rfl, rfl⟩
  · rw [setCond_gen (by decide), genMove_gen]
    exact ⟨rfl, rfl⟩

theorem serviceOn_barred (h : s.gen.state = .barred) : (serviceOn s).gen.barHold = s.gen.barHold ∧
    (serviceOn s).gen.firstFailure = s.gen.firstFailure ∧ (serviceOn s).gen.ackTaken = false := by
  simp only [serviceOn, h]
  rw [genMove_gen]
  exact ⟨rfl, rfl, rfl⟩

theorem inSeries_cases {st : GenState} (h : st.inSeries = true) : st = .prestart ∨ st = .cranking ∨ st = .crankRest := by
  cases st <;> simp_all [GenState.inSeries]

/-- Service set while the engine cranks, runs or stops. -/
theorem serviceOn_stops (h : s.gen.state.inSeries = true ∨ s.gen.state.running = true ∨ s.gen.state = .stopping) :
    (serviceOn s).gen.state = .stopping ∧ (serviceOn s).gen.destDisabled = true ∧ (serviceOn s).gen.service = s.gen.service := by
  rcases h with h | h | h
  · rcases inSeries_cases h with h | h | h <;> simp only [serviceOn, h] <;> exact abandonSeries_marks
  · rcases running_cases h with h | h | h | h <;> simp only [serviceOn, h] <;> rw [genMove_gen] <;> exact ⟨rfl, rfl, rfl⟩
  · simp only [serviceOn, h]
    exact ⟨h, rfl, rfl⟩

theorem serviceOn_service : (serviceOn s).gen.service = s.gen.service := by
  cases h : s.gen.state with
  | standby => exact (serviceOn_disables (.inl h)).2
  | barred => exact (serviceOn_disables (.inr (.inl h))).2
  | shutdown => exact (serviceOn_disables (.inr (.inr h))).2
  | prestart | cranking | crankRest => exact (serviceOn_stops (.inl (by rw [h]; rfl))).2.2
  | warmup | ready | loaded | cooldown => exact (serviceOn_stops (.inr (.inl (by rw [h]; rfl)))).2.2
  | stopping => exact (serviceOn_stops (.inr (.inr h))).2.2
  | disabled | cleared => simp only [serviceOn, h]

theorem serviceOff_service : (serviceOff s).gen.service = s.gen.service := by
  unfold serviceOff
  split
  · rfl
  · exact enterStandby_keeps.2.2
  · rfl

theorem genService_on (hf : genFitted s = true) (hs : s.gen.service = false) :
    genServiceCommand 1 s = (serviceOn (withService true s), .done, 0) := by
  simp only [genServiceCommand, hf, hs]
  rfl

theorem genService_off (hf : genFitted s = true) (hs : s.gen.service = true) :
    genServiceCommand 0 s = (serviceOff (withService false s), .done, 0) := by
  simp only [genServiceCommand, hf, hs]
  rfl

end Sys2Proof.Machine
end

section
/-! PROOFS. The generator's commands (O49): the obligation. -/

namespace Sys2Proof.Machine

variable {s t u : State}

theorem not_ready_of_state {st : GenState} (h : s.gen.state = st) (hr : st ≠ .ready) (hl : st ≠ .loaded) : genReady s = false := by
  rw [genReady, h]
  simp [hr, hl]

theorem commanded_condOf {slot : Fin 16} {op : Nat} {tag : BitVec 8} {p : Nat} :
    condOf (commanded slot op tag s) p = condOf (ruled slot op tag s).1 p := by
  rw [condOf, condOf, commanded_conds]

/-- GEN_RESET by the state of the generator. -/
theorem genReset_outcome (u : State) : let t := genResetCommand u
    (u.gen.state = .barred → t.2 = (.done, 0) ∧ t.1.gen.barHold = false ∧ t.1.gen.firstFailure = none ∧
      condOf t.1 Pt.genFailStart = false ∧ (u.gen.requests.isEmpty = true → t.1.gen.state = .standby)) ∧
    (u.gen.state = .shutdown → u.gen.lastFreq = 0 → t.2 = (.done, 0) ∧ t.1.gen.cause = .none ∧
      condOf t.1 Pt.genShutdown = false ∧ condOf t.1 Pt.genFailStop = false ∧
      (u.gen.requests.isEmpty = true → t.1.gen.state = .standby)) ∧
    (u.gen.state = .shutdown → u.gen.lastFreq ≠ 0 → t.2 = (.refusedBusy, 1) ∧ t.1.gen = u.gen) ∧
    (u.gen.state ≠ .barred → u.gen.state ≠ .shutdown → t.2 = (.refusedState, 1) ∧ t.1.gen = u.gen) := by
  intro t
  refine ⟨fun hs => ?_, fun hs hf => ?_, fun hs hf => ?_, fun hb hs => ?_⟩
  · have hready : genReady (unbarred u) = false := not_ready_of_state (st := .barred) (by rw [unbarred_gen]; exact hs) nofun nofun
    have ht : t = (enterStandby (unbarred u), .done, 0) := genReset_barred hs
    rw [ht]
    refine ⟨rfl, ?_, ?_, ?_, fun hq => enterStandby_standby hready (by rw [unbarred_gen]; exact hq)⟩
    · rw [enterStandby_marks.1, unbarred_gen]
    · rw [enterStandby_keeps.1, unbarred_gen]
    · rw [enterStandby_condOf (by decide)]
      exact condOf_withdrawn
  · have hready : genReady (cleared u) = false := not_ready_of_state (st := .shutdown) (by rw [cleared_gen]; exact hs) nofun nofun
    have ht : t = (enterStandby (cleared u), .done, 0) := genReset_shutdown hs hf
    rw [ht]
    refine ⟨rfl, ?_, ?_, ?_, fun hq => enterStandby_standby hready (by rw [cleared_gen]; exact hq)⟩
    · rw [enterStandby_keeps.2.1, cleared_gen]
    · rw [enterStandby_condOf (by decide), cleared, condOf_setCond_ne (by decide)]
      exact condOf_withdrawn
    · rw [enterStandby_condOf (by decide)]
      exact condOf_withdrawn
  · have ht : t = (u, .refusedBusy, 1) := genReset_turning hs hf
    rw [ht]
    exact ⟨rfl, rfl⟩
  · have ht : t = (u, .refusedState, 1) := genReset_refused hb hs
    rw [ht]
    exact ⟨rfl, rfl⟩

/-- GEN_SERVICE set. -/
theorem genService_on_outcome (u : State) :
    (serviceOn (withService true u)).gen.service = true ∧
    (u.gen.state = .standby ∨ u.gen.state = .barred ∨ u.gen.state = .shutdown → (serviceOn (withService true u)).gen.state = .disabled) ∧
    (u.gen.state = .barred → (serviceOn (withService true u)).gen.barHold = u.gen.barHold ∧
      (serviceOn (withService true u)).gen.firstFailure = u.gen.firstFailure ∧ (serviceOn (withService true u)).gen.ackTaken = false) ∧
    (u.gen.state.inSeries = true ∨ u.gen.state.running = true ∨ u.gen.state = .stopping →
      (serviceOn (withService true u)).gen.state = .stopping ∧ (serviceOn (withService true u)).gen.destDisabled = true) :=
  ⟨serviceOn_service, fun h => (serviceOn_disables (s := withService true u) h).1, serviceOn_barred (s := withService true u),
    fun h => ⟨(serviceOn_stops (s := withService true u) h).1, (serviceOn_stops (s := withService true u) h).2.1⟩⟩

/-- GEN_SERVICE cleared. -/
theorem genService_off_outcome (u : State) :
    (serviceOff (withService false u)).gen.service = false ∧
    (u.gen.state = .disabled → u.gen.requests.isEmpty = true → (serviceOff (withService false u)).gen.state = .standby) ∧
    (u.gen.state = .stopping →
      (serviceOff (withService false u)).gen.state = .stopping ∧ (serviceOff (withService false u)).gen.destDisabled = false) := by
  refine ⟨serviceOff_service, fun hst hq => ?_, fun hst => ?_⟩
  · have hoff : serviceOff (withService false u) = enterStandby (withService false u) := by
      simp only [serviceOff, withService, setGen_gen, hst]
    rw [hoff]
    exact enterStandby_standby (not_ready_of_state (s := withService false u) hst nofun nofun) hq
  · have hoff : serviceOff (withService false u) = setGen (fun g => { g with destDisabled := false }) (withService false u) := by
      simp only [serviceOff, withService, setGen_gen, hst]
    rw [hoff]
    exact ⟨hst, rfl⟩

/-- Settles O49: each command by the cases of its rule. -/
theorem genCommands : Obligations.GenCommands := by
  refine ⟨fun slot tag s hsh hl hd => ?run, fun slot tag s hsh hl hd => ?reset, fun slot tag s hsh hl hd => ?service⟩
  case run =>
    intro u n l
    have hnow : now u = now s := atPost_now
    have hrule : ruled slot Op.genRun tag s = genRunCommand n l u := rfl
    refine ⟨commanded slot Op.genRun tag s, exec_command rfl (by decide) (by decide) hl hd, ?_⟩
    rw [replyOf_commanded hsh, commanded_gen, hrule]
    refine ⟨fun h => by rw [genRunCommand, if_pos h], fun h1 h2 => ⟨fun h3 => by rw [genRun_refused_loaded h1 h2 h3],
      fun h3 hs => by rw [genRun_refused_disabled h1 h2 h3 hs], fun h3 hs hf => by rw [genRun_refused_fuel h1 h2 h3 hs hf],
      fun h3 hs hf ht => by rw [genRun_refused_test h1 h2 h3 hs hf ht], fun h3 hs hf ht =>
        ⟨fun hm => by rw [genRun_refused_manual h1 h2 h3 hs hf ht hm], fun hm => ?_⟩⟩⟩
    rw [genRun_taken h1 h2 h3 hs hf ht hm, addRequest_requests, hnow]
    exact ⟨rfl, rfl, rfl, rfl, rfl⟩
  case reset =>
    intro u
    have hrule : ruled slot Op.genReset tag s = genResetCommand u := rfl
    refine ⟨commanded slot Op.genReset tag s, exec_command rfl (by decide) (by decide) hl hd, ?_⟩
    simp only [commanded_condOf]
    rw [replyOf_commanded hsh, commanded_gen, hrule]
    exact genReset_outcome u
  case service =>
    intro u v
    have hrule : ruled slot Op.genService tag s = genServiceCommand v u := rfl
    refine ⟨commanded slot Op.genService tag s, exec_command rfl (by decide) (by decide) hl hd, ?_⟩
    rw [replyOf_commanded hsh, commanded_gen, hrule]
    refine ⟨fun h => by rw [genServiceCommand, if_pos h], fun h hf => ?_, fun h hf hs => ?_, fun h hf hs => ?_, fun h hf hs => ?_,
      fun h hf hs => ?_⟩
    · rw [genServiceCommand, if_neg (by omega), if_pos (by simp [hf])]
    · simp [genServiceCommand, h, hf, hs]
    · simp [genServiceCommand, h, hf, hs]
    · rw [h, genService_on hf hs]
      exact ⟨rfl, genService_on_outcome u⟩
    · rw [h, genService_off hf hs]
      exact ⟨rfl, genService_off_outcome u⟩

end Sys2Proof.Machine
end

section
/-! PROOFS. The roster's evaluation (O35): what it leaves of the account, and what it does when it finds no module to judge. -/

namespace Sys2Proof.Machine

variable {s t u v : State} {m j h : Nat} {r : ModuleRec}

/-! ## The part of the account that the modules' changes leave -/

/-- The load, whether one has been seen, the capacity in force and the request total. -/
def Roster.account (x : Roster) := (x.load, x.loadSeen, x.cap, x.requestTotal)

/-- A change that leaves that part of the account. -/
def Accounts (s t : State) : Prop := t.ros.account = s.ros.account

theorem Accounts.refl (s : State) : Accounts s s := rfl
theorem Accounts.trans (h : Accounts s t) (k : Accounts t u) : Accounts s u := Eq.trans k h
theorem Accounts.of_ros (h : t.ros = s.ros) : Accounts s t := congrArg Roster.account h

theorem Accounts.fields (h : Accounts s t) : t.ros.load = s.ros.load ∧ t.ros.loadSeen = s.ros.loadSeen ∧ t.ros.cap = s.ros.cap ∧
    t.ros.requestTotal = s.ros.requestTotal := by
  unfold Accounts Roster.account at h
  simpa only [Prod.mk.injEq] using h

theorem ite_accounts {c : Prop} [Decidable c] {a b : State} (ha : Accounts s a) (hb : Accounts s b) : Accounts s (if c then a else b) := by
  split
  · exact ha
  · exact hb

theorem foldl_accounts {α : Type} {f : α → State → State} (hf : ∀ a t, Accounts t (f a t)) :
    ∀ (l : List α) (s : State), Accounts s (l.foldl (fun t a => f a t) s)
  | [], s => .refl s
  | a :: l, s => (hf a s).trans (foldl_accounts hf l (f a s))

theorem eachModule_accounts {f : Nat → State → State} (hf : ∀ a t, Accounts t (f a t)) {ms : List Nat} : Accounts s (eachModule f ms s) :=
  foldl_accounts hf ms s

theorem modEnter_accounts {st : ModState} : Accounts s (modEnter m st s) := by
  rw [Accounts, modEnter_ros]
  rfl

theorem stopModule_accounts {b : Bool} : Accounts s (stopModule m b s) := by
  rw [Accounts, stopModule_ros]
  rfl

theorem startModule_accounts : Accounts s (startModule m s) := by
  rw [Accounts, startModule_ros]
  rfl

theorem abandonSwap_accounts {o : SwapOutcome} : Accounts s (abandonSwap o s) := by
  rw [Accounts, abandonSwap_ros]
  rfl

theorem completeSwap_accounts : Accounts s (completeSwap s) := by
  have hsome : ∀ (w : State) (f : Swap → Swap) (k : LogKind) (x a b : Word), Accounts w (logEv k x a b (setSwap f w)) := by
    intro w f k x a b
    rw [Accounts, logEv_ros]
    rfl
  unfold completeSwap
  exact (ite_accounts stopModule_accounts (.refl s)).trans (hsome _ _ _ _ _ _)

theorem startSwap_accounts {i o : Nat} : Accounts s (startSwap i o s) :=
  Accounts.trans (t := setSwap (fun w => { w with inProgress := true, incoming := i, outgoing := o, retry := none }) s) rfl
    startModule_accounts

theorem strike_accounts {cause : Nat} : Accounts s (strike m cause s) := by
  have hstriking : Accounts s (striking m cause s) := by
    rw [Accounts, striking_ros]
    rfl
  rw [strike_eq]
  exact ite_accounts (hstriking.trans abandonSwap_accounts) hstriking

theorem judgeStart_accounts : Accounts s (judgeStart m s) := by
  have hconfirm : Accounts s (confirming m s) :=
    Accounts.trans (t := setMod m (fun r => { r with watch := 0 }) s) rfl modEnter_accounts
  unfold judgeStart
  refine ite_accounts (ite_accounts ?_ (ite_accounts strike_accounts (.refl s))) (.refl s)
  rw [confirmStart_eq]
  exact ite_accounts (hconfirm.trans completeSwap_accounts) hconfirm

theorem judgeStop_accounts : Accounts s (judgeStop m s) := by
  unfold judgeStop
  refine ite_accounts (ite_accounts modEnter_accounts (ite_accounts ?_ (.refl s))) (.refl s)
  exact modEnter_accounts.trans (.of_ros logEv_ros)

theorem endHold_accounts : Accounts s (endHold m s) := ite_accounts modEnter_accounts (.refl s)

theorem watchModule_accounts : Accounts s (watchModule m s) := by
  have hset : ∀ f : ModuleRec → ModuleRec, Accounts s (setMod m f s) := fun _ => rfl
  unfold watchModule
  exact ite_accounts (ite_accounts (hset _) (ite_accounts ((hset _).trans strike_accounts) (hset _))) (.refl s)

/-- The evaluation up to the load. -/
def watched (s : State) : State := addRunSeconds (eachModule watchModule (List.range 8) (rosterJudge (modulesIn s .stopping) s))

theorem rosterJudge_accounts {ms : List Nat} : Accounts s (rosterJudge ms s) := by
  unfold rosterJudge
  refine Accounts.trans ?_ (eachModule_accounts fun _ _ => judgeStop_accounts)
  refine Accounts.trans ?_ (eachModule_accounts fun _ _ => judgeStart_accounts)
  exact Accounts.trans (t := pruneStrikes s) rfl (eachModule_accounts fun _ _ => endHold_accounts)

theorem addRunSeconds_accounts : Accounts s (addRunSeconds s) := rfl

theorem watched_accounts : Accounts s (watched s) := by
  unfold watched
  exact (rosterJudge_accounts.trans (eachModule_accounts fun _ _ => watchModule_accounts)).trans addRunSeconds_accounts

theorem addRule_accounts : Accounts s (addRule s) := by
  unfold addRule
  refine ite_accounts ?_ (.refl s)
  split
  · exact startModule_accounts
  · exact .refl s

theorem shedRule_accounts : Accounts s (shedRule s) := by
  unfold shedRule
  split
  · exact ite_accounts (Accounts.trans (t := { s with ros := { s.ros with shedSpan := 0 } }) rfl stopModule_accounts) rfl
  · exact rfl

theorem rotationCheck_accounts : Accounts s (rotationCheck s) := by
  unfold rotationCheck
  refine ite_accounts ?_ (.refl s)
  split
  · exact ite_accounts startSwap_accounts (.refl s)
  · exact .refl s

/-- The evaluation up to the shortfall. -/
def decided (s : State) : State := rotationCheck (shedRule (addRule (takeLoad (watched s))))

theorem rosterSteps_eq : rosterSteps (modulesIn s .stopping) s = decideShortfall (decided s) := rfl

theorem decided_accounts : Accounts (takeLoad (watched s)) (decided s) :=
  (addRule_accounts.trans shedRule_accounts).trans rotationCheck_accounts

theorem rosterEvaluation_inRun (hr : inRun s = true) : Machine.rosterEvaluation s = refreshRosterConds (decideShortfall (decided s)) :=
  if_pos hr

theorem refreshRosterConds_ros : (refreshRosterConds s).ros = s.ros := setCond_ros.trans refreshModuleConds_ros

theorem rosterEvaluation_ros (hr : inRun s = true) : (Machine.rosterEvaluation s).ros = (decideShortfall (decided s)).ros := by
  rw [rosterEvaluation_inRun hr, refreshRosterConds_ros]

theorem watched_quiet : Quiet s (watched s) := by
  unfold watched
  exact addRunSeconds_quiet (eachModule_quiet (rosterJudge_quiet (Quiet.refl s)) fun _ _ h => watchModule_quiet h)

theorem decided_quiet : Quiet s (decided s) := by
  unfold decided
  exact rotationCheck_quiet (shedRule_quiet (addRule_quiet (takeLoad_quiet watched_quiet)))

theorem validMean_congr {c : Nat} (h : t.scan = s.scan) : validMean t c = validMean s c := by
  rw [validMean, validMean, meanOf_congr h, chan, h, chan]

theorem decideShortfall_load : (decideShortfall s).ros.load = s.ros.load := rfl

/-- The load after an evaluation (R64). -/
theorem rosterEvaluation_load (hr : inRun s = true) : (Machine.rosterEvaluation s).ros.load =
    if s.ros.loadSeen || (validMean s 1).isSome then (meanOf s 1).toNat else 0 := by
  have hscan : (watched s).scan = s.scan := watched_quiet.scan_eq
  have hseen : (watched s).ros.loadSeen = s.ros.loadSeen := (watched_accounts (s := s)).fields.2.1
  have hload : (decided s).ros.load = (takeLoad (watched s)).ros.load := (decided_accounts (s := s)).fields.1
  rw [rosterEvaluation_ros hr, decideShortfall_load, hload]
  generalize watched s = w at hscan hseen
  show (if w.ros.loadSeen || (validMean w 1).isSome then (meanOf w 1).toNat else 0) = _
  rw [hseen, validMean_congr hscan, meanOf_congr hscan]

/-! ## The shortfall and the conditions (R55, R66) -/

theorem demand_congr (hl : t.ros.load = s.ros.load) (hq : t.ros.requestTotal = s.ros.requestTotal) : demand t = demand s := by
  rw [demand, demand, hl, hq]

theorem headFits_congr (hm : modState t = modState s) (hq : t.ros.queue = s.ros.queue) (hc : t.ros.cap = s.ros.cap)
    (hs : t.settings = s.settings) : headFits t = headFits s := by
  unfold headFits queueHead
  rw [hq, hc, onlineCapacity_congr hm hs, hs]

theorem rosterEvaluation_shortfall (hr : inRun s = true) :
    let t := Machine.rosterEvaluation s
    t.ros.shortfall = (decide (effectiveCapacity t < demand t) && (t.ros.cap.dead || !headFits t)) := by
  intro t
  have hros : t.ros = { (decided s).ros with
      shortfall := decide (effectiveCapacity (decided s) < demand (decided s)) && ((decided s).ros.cap.dead || !headFits (decided s)) } :=
    rosterEvaluation_ros hr
  have hset : t.settings = (decided s).settings :=
    ((rosterEvaluation_quiet (Quiet.refl s)).settings_eq).trans (decided_quiet (s := s)).settings_eq.symm
  generalize decided s = w at hros hset
  have hmods : modState t = modState w := modState_congr (modRec_congr (by rw [hros]))
  rw [effectiveCapacity_congr hmods hset, demand_congr (s := w) (by rw [hros]) (by rw [hros]),
    headFits_congr (s := w) hmods (by rw [hros]) (by rw [hros]) hset, hros]

theorem rosterEvaluation_condOf (hs : Shape s) (hr : inRun s = true) :
    let t := Machine.rosterEvaluation s
    condOf t Pt.capacityShort = t.ros.shortfall ∧ condOf t Pt.moduleFail = !(modulesIn t .failed).isEmpty ∧
      condOf t Pt.moduleBarred = !(modulesIn t .barred).isEmpty := by
  intro t
  have hshape : Shape (decideShortfall (decided s)) := (decideShortfall_quiet decided_quiet).shape.trans hs
  have ht : t = refreshRosterConds (decideShortfall (decided s)) := rosterEvaluation_inRun hr
  generalize decideShortfall (decided s) = w at hshape ht
  have hin : ∀ st, modulesIn t st = modulesIn w st := by
    intro st
    have hrec : modRec t = modRec w := modRec_congr (by rw [ht, refreshRosterConds_ros])
    exact modulesIn_congr (fun m => by rw [hrec]) (modState_congr hrec)
  obtain ⟨hfail, hbar⟩ := refreshModuleConds_condOf (s := w) (conds_length hshape)
  have hlen : (refreshModuleConds w).conds.length = 32 := by
    unfold refreshModuleConds
    rw [judgeCond_conds_length, judgeCond_conds_length, conds_length hshape]
  rw [hin, hin, ht, refreshRosterConds_ros]
  refine ⟨condOf_setCond (s := refreshModuleConds w) (by rw [hlen]; decide), ?_, ?_⟩
  · exact (condOf_setCond_ne (by decide)).trans hfail
  · exact (condOf_setCond_ne (by decide)).trans hbar

end Sys2Proof.Machine
end

section
/-! PROOFS. The roster's evaluation that finds no module to judge: the add rule and the start of a rotation (O35). -/

namespace Sys2Proof.Machine

variable {s t u v : State} {m j h : Nat} {r : ModuleRec} {l k : List (Option ModuleRec)}

/-! ## What such an evaluation makes of the records before the rules -/

/-- A module's record without its watch span and its strikes. -/
def ModuleRec.bare (r : ModuleRec) : ModuleRec := { r with watch := 0, strikes := [] }

/-- Two lists of records that differ in watch spans and strikes alone. -/
def Alike (l k : List (Option ModuleRec)) : Prop := l.map (Option.map ModuleRec.bare) = k.map (Option.map ModuleRec.bare)

theorem Alike.trans {x : List (Option ModuleRec)} (h : Alike l k) (h' : Alike k x) : Alike l x := Eq.trans h h'

theorem Alike.modRec_bare (h : Alike t.ros.mods s.ros.mods) : (modRec t m).map ModuleRec.bare = (modRec s m).map ModuleRec.bare := by
  have hm : ∀ w : State, (modRec w m).map ModuleRec.bare = ((w.ros.mods.map (Option.map ModuleRec.bare))[m]?).bind id := by
    intro w
    rw [modRec, List.getElem?_map]
    cases w.ros.mods[m]? <;> rfl
  rw [hm, hm, h]

/-- What a record says without its watch span and its strikes. -/
theorem Alike.modRec_map {α : Type} (f : ModuleRec → α) (hf : ∀ r, f r.bare = f r) (h : Alike t.ros.mods s.ros.mods) :
    (modRec t m).map f = (modRec s m).map f := by
  have hb : ∀ o : Option ModuleRec, o.map f = (o.map ModuleRec.bare).map f := by
    intro o
    cases o with
    | none => rfl
    | some r => exact congrArg some (hf r).symm
  rw [hb, hb (modRec s m), h.modRec_bare]

theorem Alike.modState (h : Alike t.ros.mods s.ros.mods) : modState t = modState s := by
  funext m
  rw [Machine.modState, h.modRec_map _ fun _ => rfl, Machine.modState]

theorem Alike.hoursOf (h : Alike t.ros.mods s.ros.mods) : hoursOf t = hoursOf s := by
  funext m
  rw [Machine.hoursOf, h.modRec_map _ fun _ => rfl, Machine.hoursOf]

theorem Alike.isSome (h : Alike t.ros.mods s.ros.mods) : (modRec t m).isSome = (modRec s m).isSome := by
  have := congrArg Option.isSome (h.modRec_bare (m := m))
  simpa only [Option.isSome_map] using this

theorem Alike.modulesIn {st : ModState} (h : Alike t.ros.mods s.ros.mods) : modulesIn t st = modulesIn s st :=
  modulesIn_congr (fun _ => h.isSome) h.modState

/-- The state with other records, another load and another shed span. -/
def reckoned (l : List (Option ModuleRec)) (load span : Nat) (s : State) : State :=
  { s with ros := { s.ros with mods := l, load := load, shedSpan := span } }

theorem reckoned_self : reckoned s.ros.mods s.ros.load s.ros.shedSpan s = s := rfl

theorem ModulesSettled.of_alike (h : ModulesSettled s) (hl : Alike l s.ros.mods) {a b : Nat} : ModulesSettled (reckoned l a b s) := by
  have hal : Alike (reckoned l a b s).ros.mods s.ros.mods := hl
  intro m hm
  have hin : inStateFor (reckoned l a b s) m = inStateFor s m :=
    congrArg (·.getD 0) (hal.modRec_map (fun r => since s r.entered) fun _ => rfl)
  rw [hal.modState, hin]
  exact h m hm

theorem eachModule_none {f : Nat → State → State} : ∀ {ms : List Nat}, (∀ m ∈ ms, f m s = s) → eachModule f ms s = s
  | [], _ => rfl
  | m :: ms, h => by
    rw [eachModule, List.foldl_cons, h m List.mem_cons_self]
    exact eachModule_none fun j hj => h j (List.mem_cons_of_mem m hj)

theorem eachModule_invariant {P : State → Prop} {f : Nat → State → State} :
    ∀ {ms : List Nat} {s : State}, P s → (∀ m ∈ ms, ∀ t, P t → P (f m t)) → P (eachModule f ms s)
  | [], _, hs, _ => hs
  | m :: _, s, hs, h => eachModule_invariant (s := f m s) (h m List.mem_cons_self s hs) fun j hj => h j (List.mem_cons_of_mem m hj)

theorem modulesIn_eq_nil {st : ModState} (h : ∀ m < 8, modState s m ≠ st) : modulesIn s st = [] := by
  refine List.eq_nil_iff_forall_not_mem.2 fun m hm => ?_
  obtain ⟨hlt, -, hst⟩ := mem_modulesIn.1 hm
  exact h m hlt hst

theorem ModulesSettled.endHold (h : ModulesSettled s) (hm : m < 8) : endHold m s = s := by
  obtain ⟨-, -, hhold, -⟩ := h m hm
  refine if_neg fun ⟨hst, hspan⟩ => ?_
  exact absurd (hhold hst) (by omega)

theorem pruneStrikes_alike : Alike (pruneStrikes s).ros.mods s.ros.mods := by
  rw [Alike, pruneStrikes, List.map_map]
  refine List.map_congr_left fun o _ => ?_
  cases o <;> rfl

theorem rosterJudge_settled (h : ModulesSettled s) : rosterJudge (modulesIn s .stopping) s = pruneStrikes s := by
  have hset : ModulesSettled (pruneStrikes s) := h.of_alike (a := s.ros.load) (b := s.ros.shedSpan) pruneStrikes_alike
  have hstart : modulesIn (pruneStrikes s) .starting = [] := modulesIn_eq_nil fun m hm => (hset m hm).1
  have hstop : modulesIn s .stopping = [] := modulesIn_eq_nil fun m hm => (h m hm).2.1
  have hhold : eachModule endHold (List.range 8) (pruneStrikes s) = pruneStrikes s :=
    eachModule_none fun m hm => hset.endHold (List.mem_range.1 hm)
  rw [hstop]
  unfold rosterJudge
  dsimp only
  rw [hhold, hstart]
  rfl

/-- The records differ from those of a state in watch spans and strikes alone, and nothing else differs. -/
def Rewatched (s t : State) : Prop := ∃ l, t = reckoned l s.ros.load s.ros.shedSpan s ∧ Alike l s.ros.mods

theorem pruneStrikes_rewatched : Rewatched s (pruneStrikes s) := ⟨_, rfl, pruneStrikes_alike⟩

theorem updAt_alike {f : ModuleRec → ModuleRec} (hf : ∀ r, (f r).bare = r.bare) : ∀ {m : Nat} {l : List (Option ModuleRec)},
    Alike (updAt m (Option.map f) l) l
  | m, [] => by cases m <;> rfl
  | 0, o :: l => by
    have ho : (o.map f).map ModuleRec.bare = o.map ModuleRec.bare := by
      cases o with
      | none => rfl
      | some r => exact congrArg some (hf r)
    exact congrArg (· :: l.map (Option.map ModuleRec.bare)) ho
  | m + 1, o :: l => congrArg (o.map ModuleRec.bare :: ·) (updAt_alike hf (m := m) (l := l))

theorem watchModule_rewatched (h : ModulesSettled s) (hm : m < 8) (ht : Rewatched s t) : Rewatched s (watchModule m t) := by
  obtain ⟨l, rfl, hl⟩ := ht
  obtain ⟨-, -, -, hok⟩ := h.of_alike hl (a := s.ros.load) (b := s.ros.shedSpan) m hm
  unfold watchModule
  split
  · next hon =>
    rw [if_pos (hok hon)]
    exact ⟨_, rfl, (updAt_alike (f := fun r => { r with watch := 0 }) fun _ => rfl).trans hl⟩
  · exact ⟨l, rfl, hl⟩

theorem runSecond_bare : r.bare.runSecond = r.runSecond.bare := by
  unfold ModuleRec.runSecond
  split
  · next h =>
    rw [if_pos (show r.state = .online from h)]
    split
    · next hh =>
      rw [if_pos (show 360 ≤ r.residue + 1 from hh)]
      rfl
    · next hh =>
      rw [if_neg (show ¬ 360 ≤ r.residue + 1 from hh)]
      rfl
  · next h =>
    rw [if_neg (show ¬ r.state = .online from h)]

theorem Alike.runSeconds (h : Alike l k) : Alike (l.map (Option.map ModuleRec.runSecond)) (k.map (Option.map ModuleRec.runSecond)) := by
  have hc : ∀ x : List (Option ModuleRec), (x.map (Option.map ModuleRec.runSecond)).map (Option.map ModuleRec.bare) =
      (x.map (Option.map ModuleRec.bare)).map (Option.map ModuleRec.runSecond) := by
    intro x
    rw [List.map_map, List.map_map]
    refine List.map_congr_left fun o _ => ?_
    cases o with
    | none => rfl
    | some r => exact congrArg some runSecond_bare.symm
  rw [Alike, hc, hc, h]

/-- The records before the rules are those after the run seconds, apart from watch spans and strikes. -/
theorem watched_settled (h : ModulesSettled s) :
    ∃ l, watched s = reckoned l s.ros.load s.ros.shedSpan s ∧ Alike l (addRunSeconds s).ros.mods := by
  have hw : Rewatched s (eachModule watchModule (List.range 8) (pruneStrikes s)) :=
    eachModule_invariant pruneStrikes_rewatched fun m hm t ht => watchModule_rewatched h (List.mem_range.1 hm) ht
  unfold watched
  rw [rosterJudge_settled h]
  generalize eachModule watchModule (List.range 8) (pruneStrikes s) = w at hw
  obtain ⟨l, rfl, hl⟩ := hw
  exact ⟨_, rfl, hl.runSeconds⟩

theorem addRunSeconds_modState : modState (addRunSeconds s) = modState s := by
  funext m
  rw [modState, modState]
  simp only [modRec, addRunSeconds, List.getElem?_map]
  rcases s.ros.mods[m]? with _ | _ | r
  · rfl
  · rfl
  · show ModuleRec.state _ = r.state
    unfold ModuleRec.runSecond
    split
    · split <;> rfl
    · rfl

theorem addRunSeconds_starts : (modRec (addRunSeconds s) m).map (·.starts) = (modRec s m).map (·.starts) := by
  simp only [modRec, addRunSeconds, List.getElem?_map]
  rcases s.ros.mods[m]? with _ | _ | r
  · rfl
  · rfl
  · refine congrArg some ?_
    show ModuleRec.starts _ = r.starts
    unfold ModuleRec.runSecond
    split
    · split <;> rfl
    · rfl

theorem addRunSeconds_isSome : (modRec (addRunSeconds s) m).isSome = (modRec s m).isSome := by
  have h := congrArg Option.isSome (addRunSeconds_starts (s := s) (m := m))
  simpa only [Option.isSome_map] using h

end Sys2Proof.Machine
end

section
/-! PROOFS. The add rule, the shed span and the start of a rotation at an evaluation that finds no module to judge, and O35. -/

namespace Sys2Proof.Machine

variable {s t u v : State} {m j h a b : Nat} {r : ModuleRec} {l : List (Option ModuleRec)}

/-! ## The state that the rules find -/

/-- The records are those after the run seconds, apart from watch spans and strikes. -/
abbrev Counted (l : List (Option ModuleRec)) (s : State) : Prop := Alike l (addRunSeconds s).ros.mods

theorem Counted.modState (hl : Counted l s) : modState (reckoned l a b s) = modState s :=
  (Alike.modState (t := reckoned l a b s) (s := addRunSeconds s) hl).trans addRunSeconds_modState

theorem Counted.isSome (hl : Counted l s) : (modRec (reckoned l a b s) m).isSome = (modRec s m).isSome :=
  (Alike.isSome (t := reckoned l a b s) (s := addRunSeconds s) hl).trans addRunSeconds_isSome

theorem Counted.modulesIn (hl : Counted l s) {st : ModState} : modulesIn (reckoned l a b s) st = modulesIn s st :=
  modulesIn_congr (fun _ => hl.isSome) hl.modState

theorem Counted.effectiveCapacity (hl : Counted l s) : effectiveCapacity (reckoned l a b s) = effectiveCapacity s :=
  effectiveCapacity_congr hl.modState rfl

theorem Counted.headFits (hl : Counted l s) : headFits (reckoned l a b s) = headFits s := headFits_congr hl.modState rfl rfl rfl

theorem Counted.onlineCount (hl : Counted l s) : onlineCount (reckoned l a b s) = onlineCount s := congrArg List.length hl.modulesIn

theorem anyStarting_false (h : modulesIn s .starting = []) : anyStarting s = false := by
  rw [anyStarting, h]
  rfl

theorem Counted.anyStarting (hl : Counted l s) (hset : ModulesSettled s) : anyStarting (reckoned l a b s) = false :=
  anyStarting_false (hl.modulesIn.trans (modulesIn_eq_nil fun m hm => (hset m hm).1))

theorem Counted.swapPair (hl : Counted l s) : swapPair (reckoned l a b s) = swapPair (addRunSeconds s) := by
  have hh : hoursOf (reckoned l a b s) = hoursOf (addRunSeconds s) := Alike.hoursOf hl
  have hin : Machine.modulesIn (reckoned l a b s) .online = Machine.modulesIn (addRunSeconds s) .online := Alike.modulesIn hl
  have hq : queueHead (reckoned l a b s) = queueHead (addRunSeconds s) := rfl
  unfold Machine.swapPair mostWorn
  rw [hh, hin, hq]

theorem Counted.marginMet (hl : Counted l s) {p : Nat × Nat} : marginMet (reckoned l a b s) p = marginMet (addRunSeconds s) p := by
  have hh : hoursOf (reckoned l a b s) = hoursOf (addRunSeconds s) := Alike.hoursOf hl
  unfold Machine.marginMet
  rw [hh]
  rfl

/-! ## The add rule (R68) -/

/-- The add rule starts a module. -/
abbrev Adds (load : Nat) (s : State) : Prop := WantsModule load s ∧ s.ros.cap.dead = false ∧ headFits s = true

theorem Counted.addRule_adds (hl : Counted l s) (hset : ModulesSettled s) (hq : s.ros.queue.head? = some h) (ha : Adds a s) :
    addRule (reckoned l a b s) = startModule h (reckoned l a b s) := by
  obtain ⟨hwants, hdead, hfits⟩ := ha
  have hhead : queueHead (reckoned l a b s) = some h := hq
  unfold addRule
  rw [if_pos, hhead]
  rw [hl.effectiveCapacity, hl.onlineCount, hl.anyStarting hset, hl.headFits, hfits]
  exact ⟨hwants, rfl, congrArg (!·) hdead, rfl⟩

theorem Counted.addRule_waits (hl : Counted l s) (ha : ¬ Adds a s) : addRule (reckoned l a b s) = reckoned l a b s := by
  unfold addRule
  rw [hl.effectiveCapacity, hl.onlineCount, hl.headFits]
  refine if_neg fun ⟨hwants, _, hdead, hfits⟩ => ha ⟨hwants, ?_, hfits⟩
  have hd : (!s.ros.cap.dead) = true := hdead
  simpa using hd

/-- With a module STARTING nothing is shed and no swap starts. -/
theorem shed_rotate_of_starting (h : anyStarting s = true) :
    rotationCheck (shedRule s) = { s with ros := { s.ros with shedSpan := 0 } } := by
  have hshed : shedCandidate s = none := by
    unfold shedCandidate
    split
    · rw [h]
      exact if_neg fun hc => by simp at hc
    · rfl
  have hspan : shedRule s = { s with ros := { s.ros with shedSpan := 0 } } := by
    unfold shedRule
    rw [hshed]
  have hany : anyStarting { s with ros := { s.ros with shedSpan := 0 } } = true := h
  rw [hspan]
  exact if_neg fun hc => by simp [hany] at hc

/-! ## The start of a rotation (R70, R71) -/

/-- Before its end the shed rule counts its span alone. -/
theorem shedRule_counts (hs : s.ros.shedSpan + 1 < 600) : ∃ n, shedRule s = { s with ros := { s.ros with shedSpan := n } } := by
  unfold shedRule
  split
  · exact ⟨_, if_neg (by omega)⟩
  · exact ⟨_, rfl⟩

theorem Counted.rotation_due (hl : Counted l s) (hset : ModulesSettled s) {p : Nat × Nat} (hp : SwapDue s (addRunSeconds s) p) :
    rotationCheck (reckoned l a b s) = startSwap p.1 p.2 (reckoned l a b s) := by
  obtain ⟨hprog, htimely, hatt, hcap, hpair, hmargin⟩ := hp
  have hmet : Machine.marginMet (reckoned l a b s) p = true := hl.marginMet.trans (decide_eq_true hmargin)
  unfold rotationCheck
  rw [if_pos, hl.swapPair, hpair]
  · exact if_pos hmet
  · rw [hl.anyStarting hset]
    exact ⟨congrArg (!·) hprog, htimely, congrArg (!·) hatt, hcap, rfl⟩

theorem Counted.rotation_none (hl : Counted l s) (hp : ∀ p, ¬ SwapDue s (addRunSeconds s) p) :
    rotationCheck (reckoned l a b s) = reckoned l a b s := by
  unfold rotationCheck
  split
  · next hc =>
    obtain ⟨hprog, htimely, hatt, hcap, -⟩ := hc
    split
    · next p hpair =>
      refine if_neg fun hmet => hp p ⟨?_, htimely, ?_, hcap, hl.swapPair.symm.trans hpair, ?_⟩
      · exact (Bool.not_eq_true' _).mp hprog
      · exact (Bool.not_eq_true' _).mp hatt
      · exact of_decide_eq_true (hl.marginMet.symm.trans hmet)
    · rfl
  · rfl

/-! ## What the evaluation comes to (R67) -/

/-- The evaluation's records, queue, inhibits and swap record are those its rules leave. -/
theorem rosterEvaluation_rules (hr : inRun s = true) :
    let t := Machine.rosterEvaluation s
    modRec t = modRec (decided s) ∧ t.ros.queue = (decided s).ros.queue ∧ t.ros.inh = (decided s).ros.inh ∧
      t.ros.swap = (decided s).ros.swap ∧ t.ros.load = (takeLoad (watched s)).ros.load := by
  intro t
  have hros : t.ros = (decideShortfall (decided s)).ros := rosterEvaluation_ros hr
  have hload : (decided s).ros.load = (takeLoad (watched s)).ros.load := (decided_accounts (s := s)).fields.1
  rw [← hload]
  generalize decided s = w at hros
  exact ⟨modRec_congr (by rw [hros]; rfl), by rw [hros]; rfl, by rw [hros]; rfl, by rw [hros]; rfl, by rw [hros]; rfl⟩

/-- What the rules find at an evaluation that has no module to judge. -/
theorem takeLoad_settled (hset : ModulesSettled s) : ∃ l, Counted l s ∧
    takeLoad (watched s) = reckoned l (takeLoad (watched s)).ros.load s.ros.shedSpan s := by
  obtain ⟨l, hw, hl⟩ := watched_settled hset
  rw [hw]
  exact ⟨l, hl, rfl⟩

/-- The one STARTING module. -/
theorem modulesIn_singleton {st : ModState} (hlt : h < 8) (hs : (modRec s h).isSome = true) (hst : modState s h = st)
    (hne : ∀ m < 8, m ≠ h → modState s m ≠ st) : modulesIn s st = [h] := by
  have hf : modulesIn s st = (List.range 8).filter (· == h) := by
    refine List.filter_congr fun m hm => ?_
    by_cases hmh : m = h
    · subst hmh
      simp [hs, hst]
    · rw [beq_false_of_ne (hne m (List.mem_range.1 hm) hmh), Bool.and_false, beq_false_of_ne hmh]
  rw [hf, List.filter_beq, List.count_range, if_pos hlt]
  rfl

theorem decided_adds (hset : ModulesSettled s) (hq : s.ros.queue.head? = some h) (hlt : h < 8) (hsome : (modRec s h).isSome = true)
    (ha : Adds (takeLoad (watched s)).ros.load s) :
    ∃ l a, Counted l s ∧ decided s = { startModule h (reckoned l a s.ros.shedSpan s) with
      ros := { (startModule h (reckoned l a s.ros.shedSpan s)).ros with shedSpan := 0 } } := by
  obtain ⟨l, hl, hv⟩ := takeLoad_settled hset
  refine ⟨l, (takeLoad (watched s)).ros.load, hl, ?_⟩
  unfold decided
  generalize (takeLoad (watched s)).ros.load = a at ha hv
  rw [hv, hl.addRule_adds hset hq ha]
  refine shed_rotate_of_starting ?_
  have hstart : h ∈ modulesIn (startModule h (reckoned l a s.ros.shedSpan s)) .starting :=
    mem_modulesIn.2 ⟨hlt, by rw [modRec_startModule_isSome, hl.isSome, hsome], modState_startModule (by rw [hl.isSome, hsome])⟩
  unfold anyStarting
  cases hm : modulesIn (startModule h (reckoned l a s.ros.shedSpan s)) .starting with
  | nil => simp [hm] at hstart
  | cons => rfl

theorem validMean_some {c : Nat} {l : Int} (h : validMean s c = some l) : meanOf s c = l := by
  unfold validMean at h
  split at h
  · exact Option.some.inj h
  · cases h

theorem rosterEvaluation_adds (hs : Shape s) (hr : inRun s = true) (hset : ModulesSettled s) (hq : s.ros.queue.head? = some h)
    (hrec : modRec s h = some r) (ha : Adds (Machine.rosterEvaluation s).ros.load s) :
    let t := Machine.rosterEvaluation s
    modState t h = .starting ∧ (modRec t h).map (·.starts) = some ((r.starts + 1) % 65536) ∧ t.ros.inh = s.ros.inh.set h .released ∧
      t.ros.queue = s.ros.queue.filter (· != h) ∧ modulesIn t .starting = [h] ∧ t.ros.swap = s.ros.swap := by
  intro t
  have hlt : h < 8 := modRec_lt hs hrec
  have hsome : (modRec s h).isSome = true := by rw [hrec]; rfl
  obtain ⟨htrec, htq, hti, htsw, htl⟩ := rosterEvaluation_rules hr
  rw [htl] at ha
  obtain ⟨l, a, hl, hd⟩ := decided_adds hset hq hlt hsome ha
  rw [hd] at htrec htq hti htsw
  generalize hw : reckoned l a s.ros.shedSpan s = w at htrec htq hti htsw
  have hstarts : (modRec w h).map (·.starts) = some r.starts := by
    rw [← hw, Alike.modRec_map (t := reckoned l a s.ros.shedSpan s) _ (fun _ => rfl) hl, addRunSeconds_starts, hrec]
    rfl
  have hwros : w.ros.queue = s.ros.queue ∧ w.ros.inh = s.ros.inh ∧ w.ros.swap = s.ros.swap := by
    subst hw
    exact ⟨rfl, rfl, rfl⟩
  have hwstate : modState w = modState s := by rw [← hw]; exact hl.modState
  have htr : modRec t = modRec (startModule h w) := htrec.trans (modRec_congr rfl)
  have hst : modState t = modState (startModule h w) := modState_congr htr
  have hstarting : modState t h = .starting := by rw [hst]; exact modState_startModule (by rw [← hw, hl.isSome, hsome])
  refine ⟨hstarting, ?_, ?_, ?_, ?_, ?_⟩
  · rw [htr, modRec_startModule, Option.map_map]
    cases hwr : modRec w h with
    | none => simp [hwr] at hstarts
    | some x =>
      rw [hwr] at hstarts
      have hx : x.starts = r.starts := Option.some.inj hstarts
      exact congrArg (fun n => some ((n + 1) % 65536)) hx
  · rw [hti, startModule_ros, hwros.2.1]
  · rw [htq, startModule_ros, hwros.1]
  · refine modulesIn_singleton hlt ?_ hstarting fun m hm hne => ?_
    · rw [htr, modRec_startModule_isSome, ← hw, hl.isSome, hsome]
    · rw [hst, modState_startModule_ne (Ne.symm hne), hwstate]
      exact (hset m hm).1
  · rw [htsw, startModule_ros, hwros.2.2]

/-- With no module added and the shed span short of its end, the rotation check finds the state that the add rule left. -/
theorem decided_waits (hset : ModulesSettled s) (ha : ¬ Adds (takeLoad (watched s)).ros.load s) (hspan : s.ros.shedSpan + 1 < 600) :
    ∃ l a b, Counted l s ∧ decided s = rotationCheck (reckoned l a b s) := by
  obtain ⟨l, hl, hv⟩ := takeLoad_settled hset
  unfold decided
  generalize (takeLoad (watched s)).ros.load = a at ha hv
  rw [hv, hl.addRule_waits ha]
  obtain ⟨b, hb⟩ := shedRule_counts (s := reckoned l a s.ros.shedSpan s) hspan
  exact ⟨l, a, b, hl, by rw [hb]; rfl⟩

theorem rosterEvaluation_rotates (hr : inRun s = true) (hset : ModulesSettled s) (ha : ¬ Adds (Machine.rosterEvaluation s).ros.load s)
    (hspan : s.ros.shedSpan + 1 < 600) {p : Nat × Nat} (hp : SwapDue s (addRunSeconds s) p) (hsome : (modRec s p.1).isSome = true) :
    let t := Machine.rosterEvaluation s
    t.ros.swap = { s.ros.swap with inProgress := true, incoming := p.1, outgoing := p.2, retry := none } ∧
      modState t p.1 = .starting ∧ (p.2 ≠ p.1 → modState t p.2 = .online) ∧ t.ros.inh = s.ros.inh.set p.1 .released ∧
      t.ros.queue = s.ros.queue.filter (· != p.1) := by
  intro t
  obtain ⟨htrec, htq, hti, htsw, htl⟩ := rosterEvaluation_rules hr
  rw [htl] at ha
  obtain ⟨l, a, b, hl, hd⟩ := decided_waits hset ha hspan
  rw [hd, hl.rotation_due hset hp, startSwap] at htrec htq hti htsw
  have honline : modState s p.2 = .online := by
    obtain ⟨-, -, -, -, hpair, -⟩ := hp
    unfold swapPair at hpair
    split at hpair
    · next hd m _ hm =>
      obtain ⟨-, -, hst⟩ := mem_modulesIn.1 (mostWorn_mem hm)
      rw [addRunSeconds_modState] at hst
      rw [← Option.some.inj hpair]
      exact hst
    · cases hpair
  generalize hw : setSwap (fun w => { w with inProgress := true, incoming := p.1, outgoing := p.2, retry := none })
    (reckoned l a b s) = w at htrec htq hti htsw
  have hwrec : modRec w = modRec (reckoned l a b s) := by rw [← hw]; exact setSwap_modRec
  have hwstate : modState w = modState s := (modState_congr hwrec).trans hl.modState
  have hwros : w.ros.queue = s.ros.queue ∧ w.ros.inh = s.ros.inh ∧
      w.ros.swap = { s.ros.swap with inProgress := true, incoming := p.1, outgoing := p.2, retry := none } := by
    subst hw
    exact ⟨rfl, rfl, rfl⟩
  have hst : modState t = modState (startModule p.1 w) := modState_congr htrec
  refine ⟨?_, ?_, fun hne => ?_, ?_, ?_⟩
  · rw [htsw, startModule_ros, hwros.2.2]
  · rw [hst]
    exact modState_startModule (by rw [hwrec, hl.isSome, hsome])
  · rw [hst, modState_startModule_ne (Ne.symm hne), hwstate, honline]
  · rw [hti, startModule_ros, hwros.2.1]
  · rw [htq, startModule_ros, hwros.1]

theorem rosterEvaluation_rests (hr : inRun s = true) (hset : ModulesSettled s) (ha : ¬ Adds (Machine.rosterEvaluation s).ros.load s)
    (hspan : s.ros.shedSpan + 1 < 600) (hp : ∀ p, ¬ SwapDue s (addRunSeconds s) p) :
    let t := Machine.rosterEvaluation s
    modulesIn t .starting = [] ∧ t.ros.queue = s.ros.queue ∧ t.ros.inh = s.ros.inh ∧ t.ros.swap = s.ros.swap := by
  intro t
  obtain ⟨htrec, htq, hti, htsw, htl⟩ := rosterEvaluation_rules hr
  rw [htl] at ha
  obtain ⟨l, a, b, hl, hd⟩ := decided_waits hset ha hspan
  rw [hd, hl.rotation_none hp] at htrec htq hti htsw
  have hst : modState t = modState s := (modState_congr htrec).trans hl.modState
  exact ⟨modulesIn_eq_nil fun m hm => by rw [hst]; exact (hset m hm).1, htq, hti, htsw⟩

/-- Settles O35: the load, the shortfall and the conditions of any evaluation; with no module to judge, the rules find the modules as they
were. -/
theorem Settled.rosterEvaluation : Obligations.RosterEvaluation := by
  intro s hs hr
  obtain ⟨hshort, hfail, hbar⟩ := rosterEvaluation_condOf hs hr
  refine ⟨Machine.rosterEvaluation s, rfl, fun l hl => ?_, fun hl => ?_, rosterEvaluation_shortfall hr, hshort, hfail, hbar,
    fun hset => ?_⟩
  · rw [rosterEvaluation_load hr, hl, Option.isSome_some, Bool.or_true, if_pos rfl, validMean_some hl]
  · rw [rosterEvaluation_load hr, hl, Option.isSome_none, Bool.or_false]
  · intro adds
    refine ⟨fun h r hq hrec ha => rosterEvaluation_adds hs hr hset hq hrec ha, fun ha hspan => ⟨fun p hp hsome => ?_, fun hp => ?_⟩⟩
    · exact rosterEvaluation_rotates hr hset ha hspan hp hsome
    · exact rosterEvaluation_rests hr hset ha hspan hp

end Sys2Proof.Machine
end

section
/-! PROOFS. The end of LOAD_ANCHOR (O12): the descriptor and the remap table read from the memory, and the host accesses that then proceed. -/

namespace Sys2Proof.Machine

variable {s t u : State} {m k a n : Nat}

/-! ## Reads of start-up -/

/-- The cells, the remap table and the straps are the same. -/
def SameStore (s t : State) : Prop := t.path.cells = s.path.cells ∧ t.path.remap = s.path.remap ∧ t.path.msz = s.path.msz

theorem Quiet.sameStore (h : Quiet s t) : SameStore s t := ⟨still_cells h.still, h.remap_eq, h.msz_eq⟩

theorem pathSize_congr (h : SameStore s t) : t.path.size = s.path.size := congrArg memSize h.2.2

theorem memRead_congr (h : SameStore s t) : memRead t a = memRead s a := by
  obtain ⟨hcells, hremap, hmsz⟩ := h
  unfold memRead Path.redirect Path.entryFor Path.spareAddr Path.size
  rw [hcells, hremap, hmsz]

/-- What the memory reads as depends on nothing else. -/
theorem readWords_congr (h : SameStore s t) : readWords t a n = readWords s a n :=
  List.map_congr_left fun _ _ => memRead_congr h

/-! ## A usable descriptor comes into force (R184) -/

theorem dropModule_quiet : Quiet s (dropModule m s) := by
  have hros : Quiet s { s with ros := { s.ros with
      mods := s.ros.mods.set m none, inh := s.ros.inh.set m .unpowered, queue := s.ros.queue.filter (· != m) } } :=
    (Quiet.refl s).ros _ List.length_set List.length_set
  unfold dropModule
  split
  · exact Quiet.ite (abandonSwap_quiet hros) hros
  · exact Quiet.refl s

theorem dropString_quiet : Quiet s (dropString k s) := by
  unfold dropString
  exact Quiet.ite ((Quiet.refl s).str _ List.length_set List.length_set) (Quiet.refl s)

/-- The conditions of the blocks that were kept. -/
theorem keptConds_quiet (h : Quiet s t) : Quiet s (t |> (fun t => if t.st.keepTrain then refreshModuleConds t else t)
    |> fun t => if t.st.keepStrings then refreshStringConds t else t) := by
  have hc : Quiet s (if t.st.keepTrain then refreshModuleConds t else t) := (refreshModuleConds_quiet h).ite h
  exact (refreshStringConds_quiet hc).ite hc

/-- Beyond the descriptor itself its taking is quiet. -/
theorem takeDescriptor_quiet {d : Descriptor} : Quiet (setStart (fun x => { x with desc := some d }) s) (takeDescriptor d s) := by
  have hm := eachModule_quiet (Quiet.refl (setStart (fun x => { x with desc := some d }) s)) (f := dropModule) (ms := List.range 8)
    fun _ _ h => h.trans dropModule_quiet
  unfold takeDescriptor
  exact keptConds_quiet (Quiet.foldl (fun _ _ h => h.trans dropString_quiet) (List.range 4) hm)

/-- The start-up record after the descriptor is judged. -/
theorem judgeDescriptor_spec : (∀ d, usableDescriptor s.path.size (readWords s (s.path.size - 64) 16) = some d →
      (judgeDescriptor s).st = { s.st with desc := some d }) ∧
    (usableDescriptor s.path.size (readWords s (s.path.size - 64) 16) = none →
      (judgeDescriptor s).st = { s.st with forCommissioning := true }) ∧
    SameStore s (judgeDescriptor s) := by
  unfold judgeDescriptor
  split
  · next d hd =>
    refine ⟨fun e he => ?_, fun he => ?_, takeDescriptor_quiet.sameStore⟩
    · rw [hd] at he
      cases he
      exact takeDescriptor_quiet.st_eq
    · rw [hd] at he
      cases he
  · next hd =>
    refine ⟨fun e he => ?_, fun _ => rfl, rfl, rfl, rfl⟩
    rw [hd] at he
    cases he

theorem loadRemap_spec : (loadRemap s).st = s.st ∧ (loadRemap s).path.remap = remapTableOf s.path.size (readWords s (s.path.size - 48) 32) := by
  unfold loadRemap
  dsimp only
  split
  · have h := setCond_quiet (Quiet.refl (setPath (fun p => { p with remap := remapTableOf s.path.size (readWords s (s.path.size - 48) 32) }) s))
      (p := Pt.memoryWorn) (b := true)
    exact ⟨h.st_eq, h.remap_eq⟩
  · exact ⟨rfl, rfl⟩

theorem placeLoads_st {l : List OwnRequest} : (placeLoads l s).st.state = s.st.state ∧ (placeLoads l s).st.desc = s.st.desc ∧
    (placeLoads l s).st.forCommissioning = s.st.forCommissioning ∧ (placeLoads l s).path.remap = s.path.remap := by
  unfold placeLoads
  split <;> exact ⟨rfl, rfl, rfl, rfl⟩

/-- The accesses released in start-up leave the start-up record and the remap table as they are. -/
theorem releaseHeld_st (h : starting s = true) : (releaseHeld s).st = s.st ∧ (releaseHeld s).path.remap = s.path.remap := by
  have hf := releaseHeld_startUpFields h
  have hst : (startUpFields (releaseHeld s)).2.1 = s.st := by rw [hf]; rfl
  have hrm : (startUpFields (releaseHeld s)).2.2.2.2.2.2.2.2.2.2.2.2.2.2.2.2.2.2 = s.path.remap := by rw [hf]; rfl
  exact ⟨hst, hrm⟩

/-- Settles O12: the judgement, the remap table and the new start-up state, which the released accesses leave as they are. -/
theorem loadAnchorEnd : Obligations.LoadAnchorEnd := by
  intro s hst
  refine ⟨loadAnchorEnds s, rfl, ?_⟩
  obtain ⟨hsome, hnone, hpath⟩ := judgeDescriptor_spec (s := s)
  obtain ⟨hrst, hrmap⟩ := loadRemap_spec (s := judgeDescriptor s)
  rw [pathSize_congr hpath, readWords_congr hpath] at hrmap
  unfold loadAnchorEnds
  rw [if_pos hst]
  dsimp only
  generalize loadRemap (judgeDescriptor s) = w at hrst hrmap
  generalize hv : endLoads (setStart (fun x => { x with state := .loadSettings }) w) = v
  have hvst : v.st = { w.st with state := .loadSettings } := by rw [← hv]; rfl
  have hvmap : v.path.remap = w.path.remap := by rw [← hv]; rfl
  generalize settingsLoads _ = l
  obtain ⟨hpst, hpdesc, hpcom, hpmap⟩ := placeLoads_st (s := v) (l := l)
  have hstate : (placeLoads l v).st.state = .loadSettings := by rw [hpst, hvst]
  obtain ⟨hlst, hlmap⟩ := releaseHeld_st (s := placeLoads l v) (by unfold starting inRun inCommissioning; rw [hstate]; rfl)
  rw [hlst, hlmap, hstate, hpdesc, hpcom, hpmap, hvst, hvmap, hrst, hrmap]
  refine ⟨rfl, fun d hd => ?_, fun hd => ?_, rfl⟩
  · rw [hsome d hd]
    exact ⟨rfl, rfl⟩
  · rw [hnone hd]
    exact ⟨rfl, rfl⟩

end Sys2Proof.Machine
end

section
/-! PROOFS. The ends of LOAD_SETTINGS and LOAD_COUNTERS (O13): the copies, the counter records read, and the records rebuilt from them. -/

namespace Sys2Proof.Machine

variable {s t u : State} {m k n : Nat} {w : List Word} {ns : List Nat}

/-! ## The host accesses released when a start-up state's reads end -/

theorem starting_of_state {st : StartState} (h : s.st.state = st) (hr : st ≠ .run) (hc : st ≠ .commissioning) : starting s = true := by
  unfold starting inRun inCommissioning
  rw [h, beq_false_of_ne hr, beq_false_of_ne hc]
  rfl

/-- What the reads' end leaves as it is, in start-up (R157, R163). -/
theorem loadsEnd_fields (h : starting s = true) : (loadsEnd s).clk = s.clk ∧ (loadsEnd s).st = s.st ∧ (loadsEnd s).settings = s.settings ∧
    (loadsEnd s).str = s.str ∧ (loadsEnd s).ros = s.ros ∧ (loadsEnd s).gen = s.gen ∧ (loadsEnd s).log.ready = s.log.ready := by
  have hf : startUpFields (loadsEnd s) = startUpFields (endLoads s) := releaseHeld_startUpFields h
  generalize loadsEnd s = u at hf
  unfold startUpFields at hf
  simp only [Prod.mk.injEq] at hf
  obtain ⟨hclk, hst, hset, -, -, -, hstr, hros, -, hgen, -, -, -, -, hready, -⟩ := hf
  exact ⟨hclk, hst, hset, hstr, hros, hgen, hready⟩

theorem arrive_conds_length (h : starting s = true) {x : HostAccess} : (arrive x s).conds.length = s.conds.length := by
  have hrefuse : ∀ (u : State) (r a : Nat) (v : Word), (refuseWrite r a v u).conds = u.conds := fun u r a v => logEv_conds
  have hanchor : ∀ (j : Nat) (v : Word), (anchorWrite j v s).conds = s.conds := by
    intro j v
    unfold anchorWrite
    dsimp only
    split
    · exact hrefuse _ _ _ _
    · rfl
  have hbeat : (heartbeat s).conds.length = s.conds.length := by
    unfold heartbeat
    dsimp only
    split
    · rw [silenceTo, conds_setCond, List.length_set, logEv_conds]
    · rfl
  have hpr : ∀ (o : Nat) (v : Word), (prWrite o v s).conds.length = s.conds.length := by
    intro o v
    unfold prWrite
    dsimp only
    rw [if_pos ((starting_of_fields (heartbeat_startUpFields h)).trans h), hrefuse, hbeat]
  have haddr : ∀ (a : Nat) (v : Word), (addrWrite a v s).conds.length = s.conds.length := by
    intro a v
    unfold addrWrite
    split
    · exact hpr _ _
    · rw [hanchor]
    · rw [hrefuse]
    · rw [hrefuse]
    · rfl
    · rfl
  unfold arrive
  split
  · rfl
  · cases x with
    | addr a v => exact haddr _ _
    | pr o v => exact hpr _ _
    | anchor j v => rw [perform, hanchor]

theorem releaseHeld_conds_length (h : starting s = true) : (releaseHeld s).conds.length = s.conds.length := by
  have step : ∀ (l : List HostAccess) (t : State), starting t = true →
      (l.foldl (fun t x => arrive x t) t).conds.length = t.conds.length := by
    intro l
    induction l with
    | nil => intro t _; rfl
    | cons x l ih =>
      intro t ht
      exact (ih _ ((starting_of_fields (arrive_startUpFields ht)).trans ht)).trans (arrive_conds_length ht)
  exact step _ _ h

/-! ## The next state's loads -/

theorem placeLoads_fields {l : List OwnRequest} : (placeLoads l s).clk = s.clk ∧ (placeLoads l s).settings = s.settings ∧
    (placeLoads l s).str = s.str ∧ (placeLoads l s).ros = s.ros ∧ (placeLoads l s).gen = s.gen ∧ (placeLoads l s).scan = s.scan ∧
    (placeLoads l s).pm = s.pm ∧ (placeLoads l s).conds = s.conds ∧ (placeLoads l s).log = s.log := by
  unfold placeLoads
  split <;> exact ⟨rfl, rfl, rfl, rfl, rfl, rfl, rfl, rfl, rfl⟩

theorem placeLoads_startup {l : List OwnRequest} : { (placeLoads l s).st with loads := [] } = { s.st with loads := [] } := by
  unfold placeLoads
  split <;> rfl

/-! ## The end of LOAD_SETTINGS (R185) -/

/-- The start-up record after the defaulted words are reported. -/
theorem reportDefaulted_st : (reportDefaulted [] s).st = s.st ∧ ∀ (o : Nat) (l : List Nat),
    (reportDefaulted (o :: l) s).st = { s.st with defaulted := l.length + 1, firstDefaulted := o } := by
  refine ⟨rfl, fun o l => ?_⟩
  have h := logEv_quiet (k := .settingsDefaulted) (x := 0) (a := wordOf (o :: l).length) (b := wordOf o)
    (setCond_quiet (p := Pt.settingsDefaulted) (b := true)
      (Quiet.refl (setStart (fun x => { x with defaulted := (o :: l).length, firstDefaulted := o }) s)))
  exact h.st_eq

/-- The copies handed over: beyond them, the scanner and the meters nothing outside the jobs changes. -/
theorem handSettings_quiet {ss : List Word} :
    Quiet { s with settings := ss, pm := { s.pm with counting := true }, scan := { s.scan with on := true } } (handSettings ss s) := by
  have hcap := eachString_quiet (f := capacityStored) (ks := List.range 4)
    (Quiet.refl { s with settings := ss, pm := { s.pm with counting := true }, scan := { s.scan with on := true } })
    fun _ _ h => capacityStored_quiet h
  unfold handSettings
  exact Quiet.ite (genCapacityStored_quiet (immediateShed_quiet (busWindowStored_quiet hcap))) hcap

theorem handSettings_fields {ss : List Word} : (handSettings ss s).st = s.st ∧ (handSettings ss s).settings = ss ∧
    (handSettings ss s).scan.on = true ∧ (handSettings ss s).pm.counting = true := by
  have h := handSettings_quiet (s := s) (ss := ss)
  exact ⟨h.st_eq, h.settings_eq, by rw [h.scan_eq], by rw [h.pm_eq]⟩

/-- LOAD_SETTINGS_END (R185). -/
theorem loadSettingsEnds_spec (hst : s.st.state = .loadSettings) :
    let raw := readWords s (prBase s + 0x180) 640
    let t := loadSettingsEnds s
    t.st.state = .loadCounters ∧ t.settings = loadedSettings raw ∧ t.scan.on = true ∧ t.pm.counting = true ∧
      (∀ o l, replacedOffsets raw = o :: l → t.st.defaulted = l.length + 1 ∧ t.st.firstDefaulted = o) ∧
      (replacedOffsets raw = [] → t.st.defaulted = s.st.defaulted ∧ t.st.firstDefaulted = s.st.firstDefaulted) := by
  intro raw t
  obtain ⟨-, hust, -⟩ := loadsEnd_fields (starting_of_state hst nofun nofun)
  obtain ⟨hv, hvset, hvscan, hvpm⟩ := handSettings_fields (s := reportDefaulted (replacedOffsets raw) (loadsEnd s)) (ss := loadedSettings raw)
  obtain ⟨hnil, hcons⟩ := reportDefaulted_st (s := loadsEnd s)
  have ht : t = loadSettingsEnds s := rfl
  clear_value t
  unfold loadSettingsEnds at ht
  rw [if_pos hst] at ht
  dsimp only at ht
  change t = placeLoads _ (setStart _ (handSettings (loadedSettings raw) (reportDefaulted (replacedOffsets raw) (loadsEnd s)))) at ht
  generalize List.map (fun n => OwnRequest.startupLoad _ 16) _ = loads at ht
  generalize handSettings (loadedSettings raw) (reportDefaulted (replacedOffsets raw) (loadsEnd s)) = v at ht hv hvset hvscan hvpm
  obtain ⟨-, hset, -, -, -, hscan, hpm, -, -⟩ := placeLoads_fields (s := setStart (fun x => { x with state := .loadCounters }) v) (l := loads)
  rw [← ht] at hset hscan hpm
  have hstt : { t.st with loads := [] } = { v.st with state := .loadCounters, loads := [] } := by
    rw [ht]
    exact placeLoads_startup
  have hfield : t.st.state = .loadCounters ∧ t.st.defaulted = v.st.defaulted ∧ t.st.firstDefaulted = v.st.firstDefaulted := by
    have h1 := congrArg Startup.state hstt
    have h2 := congrArg Startup.defaulted hstt
    have h3 := congrArg Startup.firstDefaulted hstt
    exact ⟨h1, h2, h3⟩
  obtain ⟨hstate, hdef, hfirst⟩ := hfield
  refine ⟨hstate, hset.trans hvset, (congrArg Scanner.on hscan).trans hvscan, (congrArg Meters.counting hpm).trans hvpm, fun o l hl => ?_, fun hl => ?_⟩
  · rw [hdef, hfirst, hv, hl, hcons]
    exact ⟨rfl, rfl⟩
  · rw [hdef, hfirst, hv, hl, hnil, hust]
    exact ⟨rfl, rfl⟩

end Sys2Proof.Machine
end

section
/-! PROOFS. LOAD_COUNTERS_END (O13): which counter records are read, and what the reading of each gives its owner. -/

namespace Sys2Proof.Machine

variable {s t u : State} {m k n : Nat} {w : List Word} {ns : List Nat}

/-! ## The records read (R181, R186) -/

theorem mem_recordsToRead_clock : 13 ∈ recordsToRead s ↔ s.st.kind = .powerOn := by
  have hmod : ∀ m, m < 8 → 1 + m ≠ 13 := by omega
  have hstr : ∀ k, k < 4 → 9 + k ≠ 13 := by omega
  unfold recordsToRead
  by_cases h : s.st.kind = .powerOn
  · cases s.st.forCommissioning <;> simp [h]
  · cases s.st.forCommissioning <;> cases s.st.keepTrain <;> cases genFitted s <;> simp +contextual [h, hmod, hstr]

theorem mem_recordsToRead_gen : 0 ∈ recordsToRead s ↔ s.st.forCommissioning = false ∧ s.st.keepTrain = false ∧ genFitted s = true := by
  unfold recordsToRead
  cases s.st.forCommissioning <;> cases s.st.keepTrain <;> cases genFitted s <;> split <;> simp

theorem mem_recordsToRead_module (hm : m < 8) :
    1 + m ∈ recordsToRead s ↔ s.st.forCommissioning = false ∧ modulePresent s m = true ∧ modRec s m = none := by
  have h13 : 1 + m ≠ 13 := by omega
  have hstr : ∀ k, ¬ 9 + k = 1 + m := by omega
  unfold recordsToRead
  cases s.st.forCommissioning <;> cases s.st.keepTrain <;> cases genFitted s <;> split <;> simp [h13, hstr, hm]

theorem mem_recordsToRead_string (hk : k < 4) :
    9 + k ∈ recordsToRead s ↔ s.st.forCommissioning = false ∧ k < stringCount s ∧ strRec s k = none := by
  have h13 : 9 + k ≠ 13 := by omega
  have hmod : ∀ m, m < 8 → 1 + m ≠ 9 + k := by omega
  unfold recordsToRead
  cases s.st.forCommissioning <;> cases s.st.keepTrain <;> cases genFitted s <;> split <;> simp [h13, hk] <;> omega

/-! ## One record (R181) -/

theorem restoreRecord_keepsRest : (restoreRecord n w s).settings = s.settings ∧ (restoreRecord n w s).conds = s.conds ∧
    (restoreRecord n w s).st = s.st := by
  unfold restoreRecord restoreClock
  dsimp only
  split
  · split <;> exact ⟨rfl, rfl, rfl⟩
  · split
    · exact ⟨rfl, rfl, rfl⟩
    · split <;> exact ⟨rfl, rfl, rfl⟩

theorem restoreRecord_clk (h : n ≠ 13) : (restoreRecord n w s).clk = s.clk := by
  unfold restoreRecord
  dsimp only
  rw [if_neg h]
  split
  · rfl
  · split <;> rfl

theorem restoreRecord_gen (h : n ≠ 0) : (restoreRecord n w s).gen = s.gen := by
  unfold restoreRecord restoreClock
  dsimp only
  split
  · split <;> rfl
  · split <;> rfl

theorem restoreRecord_modsLength : (restoreRecord n w s).ros.mods.length = s.ros.mods.length := by
  unfold restoreRecord restoreClock
  dsimp only
  split
  · split <;> rfl
  · split
    · rfl
    · split
      · exact List.length_set
      · rfl

theorem restoreRecord_recsLength : (restoreRecord n w s).str.recs.length = s.str.recs.length := by
  unfold restoreRecord restoreClock
  dsimp only
  split
  · split <;> rfl
  · split
    · rfl
    · split
      · rfl
      · exact List.length_set

/-- A module's record is that of its own counter record, and any other record leaves it. -/
theorem modRec_restoreRecord (hlen : s.ros.mods.length = 8) (hm : m < 8) :
    (n = 1 + m → modRec (restoreRecord n w s) m = some (rebuiltModule (goodRecord n w) w)) ∧
      (n ≠ 1 + m → modRec (restoreRecord n w s) m = modRec s m) := by
  constructor
  · rintro rfl
    unfold restoreRecord
    dsimp only
    rw [if_neg (by omega), if_neg (by omega), if_pos (by omega), modRec]
    simp [hlen, hm]
  · intro h
    unfold restoreRecord restoreClock
    dsimp only
    split
    · split <;> rfl
    · split
      · rfl
      · split
        · rw [modRec, List.getElem?_set_ne (by omega), modRec]
        · rfl

/-- A string's record is that of its own counter record, and any other record leaves it. -/
theorem strRec_restoreRecord (hlen : s.str.recs.length = 4) (hk : k < 4) :
    (n = 9 + k → strRec (restoreRecord n w s) k = some (rebuiltString s k (goodRecord n w) w)) ∧
      (n ≠ 9 + k → strRec (restoreRecord n w s) k = strRec s k) := by
  constructor
  · rintro rfl
    have hsub : 9 + k - 9 = k := by omega
    unfold restoreRecord
    dsimp only
    rw [if_neg (by omega), if_neg (by omega), if_neg (by omega), strRec, hsub]
    simp [hlen, hk]
  · intro h
    unfold restoreRecord restoreClock
    dsimp only
    split
    · split <;> rfl
    · split
      · rfl
      · split
        · rfl
        · rw [strRec, List.getElem?_set_ne (by omega), strRec]

theorem rebuiltString_congr {b : Bool} (hs : t.settings = s.settings) (hc : t.clk = s.clk) :
    rebuiltString t k b w = rebuiltString s k b w := by
  unfold rebuiltString now
  rw [hs, hc]

/-! ## All the records read -/

/-- The records of a list taken from the memory of a state. -/
def restoreAll (s : State) (ns : List Nat) (t : State) : State := ns.foldl (fun t n => restoreRecord n (readRecord s n) t) t

theorem restoreAll_cons : restoreAll s (n :: ns) t = restoreAll s ns (restoreRecord n (readRecord s n) t) := rfl

theorem restoreAll_keepsRest : ∀ {ns : List Nat} {t : State}, (restoreAll s ns t).settings = t.settings ∧ (restoreAll s ns t).conds = t.conds ∧
    (restoreAll s ns t).st = t.st
  | [], _ => ⟨rfl, rfl, rfl⟩
  | n :: ns, t => by
    obtain ⟨hset, hconds, hst⟩ := restoreRecord_keepsRest (n := n) (w := readRecord s n) (s := t)
    obtain ⟨h1, h2, h3⟩ := restoreAll_keepsRest (ns := ns) (t := restoreRecord n (readRecord s n) t)
    rw [restoreAll_cons]
    exact ⟨h1.trans hset, h2.trans hconds, h3.trans hst⟩

theorem restoreAll_clk (h : 13 ∉ ns) : (restoreAll s ns t).clk = t.clk := by
  induction ns generalizing t with
  | nil => rfl
  | cons n ns ih =>
    obtain ⟨hn, hns⟩ := List.ne_and_not_mem_of_not_mem_cons h
    rw [restoreAll_cons, ih hns, restoreRecord_clk (Ne.symm hn)]

theorem restoreAll_gen_ne (h : 0 ∉ ns) : (restoreAll s ns t).gen = t.gen := by
  induction ns generalizing t with
  | nil => rfl
  | cons n ns ih =>
    obtain ⟨hn, hns⟩ := List.ne_and_not_mem_of_not_mem_cons h
    rw [restoreAll_cons, ih hns, restoreRecord_gen (Ne.symm hn)]

/-- The generator's record rebuilt twice is that rebuilt once. -/
theorem restoreGen_twice {b : Bool} (h : t.gen = (restoreGen b w s).gen) : (restoreGen b w t).gen = (restoreGen b w s).gen := by
  have hg : ∀ x, (restoreGen b w x).gen = if b then { x.gen with
      hours := fieldPair w 1, starts := fieldNat w 3, fuelUsed := fieldPair w 4, lastRunEnd := fieldPair w 6 }
      else { x.gen with hours := 0, starts := 0, fuelUsed := 0, lastRunEnd := 0 } := fun _ => rfl
  rw [hg, h, hg]
  cases b <;> rfl

theorem restoreAll_gen (h : 0 ∈ ns) : (restoreAll s ns t).gen = (restoreGen (goodRecord 0 (readRecord s 0)) (readRecord s 0) t).gen := by
  induction ns generalizing t with
  | nil => cases h
  | cons n ns ih =>
    rw [restoreAll_cons]
    by_cases hns : 0 ∈ ns
    · rw [ih hns]
      by_cases hn : n = 0
      · subst hn
        exact restoreGen_twice rfl
      · have hg := restoreRecord_gen (n := n) (w := readRecord s n) (s := t) hn
        exact congrArg (fun g => (restoreGen (goodRecord 0 (readRecord s 0)) (readRecord s 0) { t with gen := g }).gen) hg
    · obtain rfl : 0 = n := (List.mem_cons.1 h).resolve_right hns
      rw [restoreAll_gen_ne hns]
      rfl

theorem restoreAll_modRec_ne (hlen : t.ros.mods.length = 8) (hm : m < 8) (h : 1 + m ∉ ns) : modRec (restoreAll s ns t) m = modRec t m := by
  induction ns generalizing t with
  | nil => rfl
  | cons n ns ih =>
    obtain ⟨hn, hns⟩ := List.ne_and_not_mem_of_not_mem_cons h
    rw [restoreAll_cons, ih (restoreRecord_modsLength.trans hlen) hns]
    exact (modRec_restoreRecord hlen hm).2 (Ne.symm hn)

theorem restoreAll_modRec (hlen : t.ros.mods.length = 8) (hm : m < 8) (h : 1 + m ∈ ns) :
    modRec (restoreAll s ns t) m = some (rebuiltModule (goodRecord (1 + m) (readRecord s (1 + m))) (readRecord s (1 + m))) := by
  induction ns generalizing t with
  | nil => cases h
  | cons n ns ih =>
    rw [restoreAll_cons]
    by_cases hns : 1 + m ∈ ns
    · exact ih (restoreRecord_modsLength.trans hlen) hns
    · obtain rfl : 1 + m = n := (List.mem_cons.1 h).resolve_right hns
      rw [restoreAll_modRec_ne (restoreRecord_modsLength.trans hlen) hm hns]
      exact (modRec_restoreRecord hlen hm).1 rfl

theorem restoreAll_strRec_ne (hlen : t.str.recs.length = 4) (hk : k < 4) (h : 9 + k ∉ ns) : strRec (restoreAll s ns t) k = strRec t k := by
  induction ns generalizing t with
  | nil => rfl
  | cons n ns ih =>
    obtain ⟨hn, hns⟩ := List.ne_and_not_mem_of_not_mem_cons h
    rw [restoreAll_cons, ih (restoreRecord_recsLength.trans hlen) hns]
    exact (strRec_restoreRecord hlen hk).2 (Ne.symm hn)

/-- A string's record read once the clock's has been. -/
theorem restoreAll_strRec (hlen : t.str.recs.length = 4) (hk : k < 4) (h13 : 13 ∉ ns) (h : 9 + k ∈ ns) :
    strRec (restoreAll s ns t) k = some (rebuiltString t k (goodRecord (9 + k) (readRecord s (9 + k))) (readRecord s (9 + k))) := by
  induction ns generalizing t with
  | nil => cases h
  | cons n ns ih =>
    obtain ⟨hn, hns13⟩ := List.ne_and_not_mem_of_not_mem_cons h13
    rw [restoreAll_cons]
    by_cases hns : 9 + k ∈ ns
    · rw [ih (restoreRecord_recsLength.trans hlen) hns13 hns]
      exact congrArg some (rebuiltString_congr restoreRecord_keepsRest.1 (restoreRecord_clk (Ne.symm hn)))
    · obtain rfl : 9 + k = n := (List.mem_cons.1 h).resolve_right hns
      rw [restoreAll_strRec_ne (restoreRecord_recsLength.trans hlen) hk hns]
      exact (strRec_restoreRecord hlen hk).1 rfl

end Sys2Proof.Machine
end

section
/-! PROOFS. LOAD_SETTINGS_END, LOAD_COUNTERS_END (O13) and LOG_SCAN_END (O14): what the machine holds after each. -/

namespace Sys2Proof.Machine

variable {s t u v : State} {m k n : Nat} {w : List Word} {ns : List Nat}

/-! ## LOAD_COUNTERS_END (R181, R186) -/

/-- The state with every record that start-up reads restored. -/
def counted (s : State) : State := restoreAll s (recordsToRead s) (loadsEnd s)

/-- The number of records read that are bad. -/
def badRecords (s : State) : Nat :=
  (recordsToRead s).length - ((recordsToRead s).filter fun n => goodRecord n (readRecord s n)).length

theorem badRecords_pos (h : ∃ n ∈ recordsToRead s, goodRecord n (readRecord s n) = false) : 0 < badRecords s := by
  obtain ⟨n, hn, hbad⟩ := h
  have hex : ∃ n ∈ recordsToRead s, ¬ (goodRecord n (readRecord s n) = true) := ⟨n, hn, by rw [hbad]; exact Bool.false_ne_true⟩
  have hlt := List.length_filter_lt_length_iff_exists.2 hex
  unfold badRecords
  omega

theorem setCond_lost_fields {c : Prop} [Decidable c] : (if c then setCond Pt.countersLost true v else v).clk = v.clk ∧
    (if c then setCond Pt.countersLost true v else v).ros = v.ros ∧ (if c then setCond Pt.countersLost true v else v).gen = v.gen ∧
    (if c then setCond Pt.countersLost true v else v).str = v.str := by
  split
  · exact ⟨setCond_clk, setCond_ros, setCond_gen (by decide), setCond_str⟩
  · exact ⟨rfl, rfl, rfl, rfl⟩

theorem logEv_clk {k : LogKind} {x a b : Word} : (logEv k x a b s).clk = s.clk := aside_clk (whole := true) logEv_aside
theorem logEv_str {k : LogKind} {x a b : Word} : (logEv k x a b s).str = s.str := aside_str (whole := true) logEv_aside

theorem loadCountersEnds_eq (hst : s.st.state = .loadCounters) : ∃ good bad loads, loadCountersEnds s =
    placeLoads loads (setStart (fun x => { x with state := .logScan })
      (logEv .countersRestored 0 good bad (if 0 < badRecords s then setCond Pt.countersLost true (counted s) else counted s))) := by
  unfold loadCountersEnds
  rw [if_pos hst]
  exact ⟨_, _, _, rfl⟩

/-- What LOAD_COUNTERS_END makes beyond the records themselves. -/
theorem loadCountersEnds_fields (hst : s.st.state = .loadCounters) :
    let t := loadCountersEnds s
    t.st.state = .logScan ∧ t.clk = (counted s).clk ∧ t.ros = (counted s).ros ∧ t.gen = (counted s).gen ∧ t.str = (counted s).str ∧
      (0 < badRecords s → (counted s).conds.length = 32 → condOf t Pt.countersLost = true) := by
  intro t
  obtain ⟨good, bad, loads, ht⟩ := loadCountersEnds_eq hst
  change t = _ at ht
  clear_value t
  generalize counted s = v at ht ⊢
  obtain ⟨hvclk, hvros, hvgen, hvstr⟩ := setCond_lost_fields (c := 0 < badRecords s) (v := v)
  have hlost : 0 < badRecords s → (if 0 < badRecords s then setCond Pt.countersLost true v else v).conds =
      v.conds.set Pt.countersLost true := by
    intro hb
    rw [if_pos hb, conds_setCond]
  generalize (if 0 < badRecords s then setCond Pt.countersLost true v else v) = u at ht hvclk hvros hvgen hvstr hlost
  obtain ⟨hclk, -, hstr, hros, hgen, -, -, hconds, -⟩ := placeLoads_fields (l := loads)
    (s := setStart (fun x => { x with state := .logScan }) (logEv .countersRestored 0 good bad u))
  have hstart := placeLoads_startup (l := loads)
    (s := setStart (fun x => { x with state := .logScan }) (logEv .countersRestored 0 good bad u))
  rw [← ht] at hclk hstr hros hgen hconds hstart
  have hstate := congrArg Startup.state hstart
  refine ⟨hstate, ?_, ?_, ?_, ?_, fun hb hlen => condOf_set (hconds.trans (logEv_conds.trans (hlost hb))) (by rw [hlen]; decide)⟩
  · exact hclk.trans (Eq.trans (logEv_clk (s := u)) hvclk)
  · exact hros.trans (Eq.trans (logEv_ros (s := u)) hvros)
  · exact hgen.trans (Eq.trans (logEv_gen (s := u)) hvgen)
  · exact hstr.trans (Eq.trans (logEv_str (s := u)) hvstr)

/-! ### The records restored -/

/-- The clock is the first record read, where it is read at all. -/
theorem recordsToRead_split : ∃ rest, 13 ∉ rest ∧
    ((s.st.kind = .powerOn ∧ recordsToRead s = 13 :: rest) ∨ (s.st.kind ≠ .powerOn ∧ recordsToRead s = rest)) := by
  by_cases hk : s.st.kind = .powerOn
  · refine ⟨(recordsToRead s).tail, ?_, .inl ⟨hk, ?_⟩⟩
    · have hmod : ∀ m, m < 8 → 1 + m ≠ 13 := by omega
      have hstr : ∀ k, k < 4 → 9 + k ≠ 13 := by omega
      unfold recordsToRead
      cases s.st.forCommissioning <;> cases s.st.keepTrain <;> cases genFitted s <;> simp +contextual [hk, hmod, hstr]
    · unfold recordsToRead
      cases s.st.forCommissioning <;> simp [hk]
  · exact ⟨recordsToRead s, fun h => hk (mem_recordsToRead_clock.1 h), .inr ⟨hk, rfl⟩⟩

theorem restoreClock_spec {b : Bool} : (restoreClock b w s).str = s.str ∧ (restoreClock b w s).settings = s.settings ∧
    (b = true → (restoreClock b w s).clk.value = fieldPair w 1 ∧ (restoreClock b w s).clk.state = .estimated) ∧
    (b = false → (restoreClock b w s).clk = s.clk) := by
  cases b
  · exact ⟨rfl, rfl, nofun, fun _ => rfl⟩
  · exact ⟨rfl, rfl, fun _ => ⟨rfl, rfl⟩, nofun⟩

/-- The clock after the records are read (R174). -/
theorem counted_clk (h : starting s = true) :
    (s.st.kind = .powerOn → goodRecord 13 (readRecord s 13) = true →
      (counted s).clk.value = fieldPair (readRecord s 13) 1 ∧ (counted s).clk.state = .estimated) ∧
    (s.st.kind ≠ .powerOn ∨ goodRecord 13 (readRecord s 13) = false → (counted s).clk = s.clk) := by
  obtain ⟨hclk, -⟩ := loadsEnd_fields h
  obtain ⟨rest, h13, ⟨hk, hns⟩ | ⟨hk, hns⟩⟩ := recordsToRead_split (s := s)
  · obtain ⟨-, -, hgood, hbad⟩ := restoreClock_spec (b := goodRecord 13 (readRecord s 13)) (w := readRecord s 13) (s := loadsEnd s)
    have hc : (counted s).clk = (restoreClock (goodRecord 13 (readRecord s 13)) (readRecord s 13) (loadsEnd s)).clk := by
      rw [counted, hns, restoreAll_cons, restoreAll_clk h13]
      rfl
    rw [hc]
    exact ⟨fun _ hg => hgood hg, fun hn => (hbad (hn.resolve_left fun hne => hne hk)).trans hclk⟩
  · have hc : (counted s).clk = s.clk := by rw [counted, hns, restoreAll_clk h13, hclk]
    exact ⟨fun hp => absurd hp hk, fun _ => hc⟩

/-- A string's record once the clock's has been read (R29, R181). -/
theorem counted_strRec (h : starting s = true) (hs : s.str.recs.length = 4) (hk : k < 4) :
    (9 + k ∈ recordsToRead s → strRec (counted s) k =
      some (rebuiltString { s with clk := (counted s).clk } k (goodRecord (9 + k) (readRecord s (9 + k))) (readRecord s (9 + k)))) ∧
    (9 + k ∉ recordsToRead s → strRec (counted s) k = strRec s k) := by
  obtain ⟨-, -, hset, hstr, -⟩ := loadsEnd_fields h
  have hlen : (loadsEnd s).str.recs.length = 4 := by rw [hstr, hs]
  refine ⟨fun hmem => ?_, fun hmem => ?_⟩
  · obtain ⟨rest, h13, ⟨-, hns⟩ | ⟨-, hns⟩⟩ := recordsToRead_split (s := s)
    · rw [hns] at hmem
      rw [counted, hns, restoreAll_cons]
      have hrest : 9 + k ∈ rest := (List.mem_cons.1 hmem).resolve_left (by omega)
      rw [restoreAll_strRec (restoreRecord_recsLength.trans hlen) hk h13 hrest]
      exact congrArg some (rebuiltString_congr (restoreRecord_keepsRest.1.trans hset) (restoreAll_clk h13).symm)
    · rw [hns] at hmem
      rw [counted, hns]
      rw [restoreAll_strRec hlen hk h13 hmem]
      exact congrArg some (rebuiltString_congr hset (restoreAll_clk h13).symm)
  · rw [counted, restoreAll_strRec_ne hlen hk hmem]
    exact strRec_congr hstr

theorem counted_modRec (h : starting s = true) (hs : s.ros.mods.length = 8) (hm : m < 8) :
    (1 + m ∈ recordsToRead s → modRec (counted s) m =
      some (rebuiltModule (goodRecord (1 + m) (readRecord s (1 + m))) (readRecord s (1 + m)))) ∧
    (1 + m ∉ recordsToRead s → modRec (counted s) m = modRec s m) := by
  obtain ⟨-, -, -, -, hros, -⟩ := loadsEnd_fields h
  have hlen : (loadsEnd s).ros.mods.length = 8 := by rw [hros, hs]
  refine ⟨fun hmem => restoreAll_modRec hlen hm hmem, fun hmem => ?_⟩
  rw [counted, restoreAll_modRec_ne hlen hm hmem]
  exact congrFun (modRec_congr (by rw [hros])) m

theorem counted_gen (h : starting s = true) :
    (0 ∈ recordsToRead s → (counted s).gen = (restoreGen (goodRecord 0 (readRecord s 0)) (readRecord s 0) s).gen) ∧
    (0 ∉ recordsToRead s → (counted s).gen = s.gen) := by
  obtain ⟨-, -, -, -, -, hgen, -⟩ := loadsEnd_fields h
  refine ⟨fun hmem => ?_, fun hmem => (restoreAll_gen_ne hmem).trans hgen⟩
  rw [counted, restoreAll_gen hmem]
  unfold restoreGen setGen
  rw [hgen]

theorem counted_conds (h : starting s = true) : (counted s).conds.length = s.conds.length := by
  obtain ⟨-, hconds, -⟩ := restoreAll_keepsRest (s := s) (ns := recordsToRead s) (t := loadsEnd s)
  rw [counted, hconds]
  exact releaseHeld_conds_length (s := endLoads s) h

/-- LOAD_COUNTERS_END (R181, R186). -/
theorem loadCountersEnds_spec (hs : Shape s) (hst : s.st.state = .loadCounters) : 
    let t := loadCountersEnds s
    t.st.state = .logScan ∧ t.clk = (counted s).clk ∧ modRec t = modRec (counted s) ∧ t.gen = (counted s).gen ∧
      strRec t = strRec (counted s) ∧
      ((∃ n ∈ recordsToRead s, goodRecord n (readRecord s n) = false) → condOf t Pt.countersLost = true) := by
  intro t
  obtain ⟨hstate, hclk, hros, hgen, hstr, hlost⟩ := loadCountersEnds_fields hst
  refine ⟨hstate, hclk, modRec_congr (congrArg Roster.mods hros), hgen, funext fun k => strRec_congr hstr, fun hbad => ?_⟩
  exact hlost (badRecords_pos hbad) ((counted_conds (starting_of_state hst nofun nofun)).trans (conds_length hs))

/-- Settles O13: LOAD_SETTINGS_END hands over the copies read, and LOAD_COUNTERS_END restores the records read one by one. -/
theorem startUpLoads : Obligations.StartUpLoads := by
  refine ⟨fun s hst => ⟨loadSettingsEnds s, rfl, loadSettingsEnds_spec hst⟩, fun s hs hst => ?_⟩
  intro w
  have hstart : starting s = true := starting_of_state hst nofun nofun
  obtain ⟨hstate, hclk, hmod, hgen, hstr, hlost⟩ := loadCountersEnds_spec hs hst
  obtain ⟨hgood, hkept⟩ := counted_clk hstart
  refine ⟨loadCountersEnds s, rfl, hstate, ?_, ?_, fun m => ?_, ?_, fun k => ?_, hlost⟩
  · rw [hclk]
    exact hgood
  · rw [hclk]
    exact hkept
  · intro w good
    obtain ⟨hread, hnot⟩ := counted_modRec hstart (by simp_all [Shape, shape]) m.isLt
    rw [mem_recordsToRead_module m.isLt] at hread hnot
    rw [hmod]
    refine ⟨fun hc hp hn => hread ⟨hc, hp, hn⟩, fun h => hnot ?_⟩
    rintro ⟨hc, hp, hn⟩
    rcases h with h | h | h <;> simp_all
  · intro w restored
    obtain ⟨hread, hnot⟩ := counted_gen hstart
    rw [mem_recordsToRead_gen] at hread hnot
    rw [hgen]
    refine ⟨fun hr hg => (hread hr).trans ?_, fun hr hg => (hread hr).trans ?_, hnot⟩
    · rw [show goodRecord 0 (readRecord s 0) = true from hg]
      rfl
    · rw [show goodRecord 0 (readRecord s 0) = false from hg]
      rfl
  · intro w p restored
    obtain ⟨hread, hnot⟩ := counted_strRec hstart (by simp_all [Shape, shape]) k.isLt
    rw [mem_recordsToRead_string k.isLt] at hread hnot
    rw [hstr, hclk]
    refine ⟨fun hr hg => (hread hr).trans ?_, fun hr hg => (hread hr).trans ?_, hnot⟩
    · rw [show goodRecord (9 + k.val) (readRecord s (9 + k.val)) = true from hg, rebuiltString_good]
      rfl
    · rw [show goodRecord (9 + k.val) (readRecord s (9 + k.val)) = false from hg, rebuiltString_bad]
      rfl

end Sys2Proof.Machine
end

section
/-! PROOFS. LOG_SCAN_END (O14): the log's head and count from the ring, and SETTLE or COMMISSIONING. -/

namespace Sys2Proof.Machine

variable {s t u v : State} {ring : List (Option Nat)}

/-- Placing an entry changes the two queues alone. -/
theorem placeLogEntry_eq : ∃ q r, placeLogEntry s = { s with log := { s.log with queue := q }, path := { s.path with queue := r } } := by
  unfold placeLogEntry
  split
  · split
    · exact ⟨_, _, rfl⟩
    · exact ⟨_, _, rfl⟩
  · exact ⟨_, _, rfl⟩

theorem scanLog_log : (scanLog ring s).log.ready = true ∧
    (highestSeq ring = none → (scanLog ring s).log.head = 0 ∧ (scanLog ring s).log.count = 0) ∧
    (∀ h, highestSeq ring = some h → (scanLog ring s).log.head = h + 1 ∧ (scanLog ring s).log.count = countBack ring 512 h) := by
  unfold scanLog
  cases h : highestSeq ring with
  | none => exact ⟨rfl, fun _ => ⟨rfl, rfl⟩, nofun⟩
  | some x =>
    refine ⟨rfl, nofun, fun y hy => ?_⟩
    cases hy
    exact ⟨rfl, rfl⟩

theorem scanLog_st : (scanLog ring s).st = s.st := by
  unfold scanLog
  split <;> rfl

/-- COMMISSIONING: every plant drive unpowered but ATTN, the log's head and count kept. -/
theorem enterCommissioning_spec :
    let t := enterCommissioning s
    t.log.ready = s.log.ready ∧ t.log.head = s.log.head ∧ t.log.count = s.log.count ∧
      t.st.state = .commissioning ∧ t.st.outcome = 2 ∧ t.alm.attn = .asserted ∧ (t.alm.urg, t.alm.def_) = (.unpowered, .unpowered) ∧
      t.str.iso = List.replicate 4 .unpowered ∧ t.ros.inh = List.replicate 8 .unpowered ∧
      (t.src.xfer.mopen, t.src.xfer.gclose) = (.unpowered, .unpowered) ∧
      (t.gen.pre, t.gen.run, t.gen.crank) = (.unpowered, .unpowered, .unpowered) ∧ t.bus.vref = none ∧ t.bus.ilim = none := by
  intro t
  unfold t enterCommissioning logEv logAt
  split <;> exact ⟨rfl, rfl, rfl, rfl, rfl, rfl, rfl, rfl, rfl, rfl, rfl, rfl, rfl⟩

/-- The state that the scan's end leaves before an entry is placed. -/
def scanned (s : State) : State :=
  let v := scanLog (ringSeqs s) (placeLoads [] (loadsEnd s))
  if v.st.forCommissioning then enterCommissioning v else setStart (fun x => { x with state := .settle, settleScans := 0 }) v

theorem logScanEnds_eq (h : s.st.state = .logScan) : logScanEnds s = placeLogEntry (scanned s) := if_pos h

/-- What the scan's end leaves of the log and of start-up. -/
theorem scanned_spec (h : s.st.state = .logScan) :
    let t := scanned s
    (t.log.ready = true ∧ (highestSeq (ringSeqs s) = none → t.log.head = 0 ∧ t.log.count = 0) ∧
      (∀ x, highestSeq (ringSeqs s) = some x → t.log.head = x + 1 ∧ t.log.count = countBack (ringSeqs s) 512 x)) ∧
    (s.st.forCommissioning = false → t.st.state = .settle ∧ t.st.settleScans = 0) ∧
    (s.st.forCommissioning = true →
      t.st.state = .commissioning ∧ t.st.outcome = 2 ∧ t.alm.attn = .asserted ∧ (t.alm.urg, t.alm.def_) = (.unpowered, .unpowered) ∧
      t.str.iso = List.replicate 4 .unpowered ∧ t.ros.inh = List.replicate 8 .unpowered ∧
      (t.src.xfer.mopen, t.src.xfer.gclose) = (.unpowered, .unpowered) ∧
      (t.gen.pre, t.gen.run, t.gen.crank) = (.unpowered, .unpowered, .unpowered) ∧ t.bus.vref = none ∧ t.bus.ilim = none) := by
  intro t
  obtain ⟨-, hst, -⟩ := loadsEnd_fields (starting_of_state h nofun nofun)
  have hlog := scanLog_log (ring := ringSeqs s) (s := placeLoads [] (loadsEnd s))
  have hcom : (scanLog (ringSeqs s) (placeLoads [] (loadsEnd s))).st.forCommissioning = s.st.forCommissioning := by
    rw [scanLog_st]
    have hload := congrArg Startup.forCommissioning (placeLoads_startup (s := loadsEnd s) (l := []))
    have hkept := congrArg Startup.forCommissioning hst
    exact Eq.trans hload hkept
  have ht : t = scanned s := rfl
  clear_value t
  unfold scanned at ht
  dsimp only at ht
  generalize scanLog (ringSeqs s) (placeLoads [] (loadsEnd s)) = v at ht hlog hcom
  rw [hcom] at ht
  cases hc : s.st.forCommissioning with
  | false =>
    rw [hc] at ht
    subst ht
    exact ⟨hlog, fun _ => ⟨rfl, rfl⟩, nofun⟩
  | true =>
    rw [hc] at ht
    obtain ⟨hready, hhead, hcount, hrest⟩ := enterCommissioning_spec (s := v)
    subst ht
    rw [if_pos rfl, hready, hhead, hcount]
    exact ⟨hlog, nofun, fun _ => hrest⟩

/-- Settles O14: the entry placed at the end changes neither the log's head and count nor the state entered. -/
theorem logScanEnd : Obligations.LogScanEnd := by
  intro s hst
  refine ⟨logScanEnds s, rfl, ?_⟩
  obtain ⟨⟨hready, hnone, hsome⟩, hsettle, hcomm⟩ := scanned_spec hst
  obtain ⟨q, r, hplaced⟩ := placeLogEntry_eq (s := scanned s)
  rw [logScanEnds_eq hst, hplaced]
  generalize scanned s = v at *
  generalize ringSeqs s = ring at *
  exact ⟨hready, hnone, hsome, hsettle, hcomm⟩

end Sys2Proof.Machine
end

section
/-! PROOFS. The String Supervisor's rules (01): what each of its operations makes of a string's record and drive, and what it leaves. -/

namespace Sys2Proof.Machine

variable {s t u : State} {j k m : Nat} {r : StringRec} {p : Phase} {f : StringRec → StringRec}

/-! ## What an operation on one string leaves -/

/-- Everything but the log, the Memory Path and the strings' records and drives. -/
def beside (s : State) := ((s.pending, s.clk, s.cmd, s.st, s.settings, s.sil, s.scan, s.inp, s.pm),
  (s.str.boost, s.str.handed, s.str.depthHeld, s.str.depthSpent, s.str.busSpan), (s.bus, s.ros, s.src, s.gen, s.alm, s.conds))

/-- A change of the record and the drive of string k alone, and of the log and the own-cycle queue. -/
structure Alone (k : Nat) (s t : State) : Prop where
  rest : beside t = beside s
  others : ∀ j, j ≠ k → strRec t j = strRec s j
  isos : ∀ j, j ≠ k → t.str.iso[j]? = s.str.iso[j]?

theorem Alone.refl (k : Nat) (s : State) : Alone k s s := ⟨rfl, fun _ _ => rfl, fun _ _ => rfl⟩

theorem Alone.trans (h : Alone k s t) (h' : Alone k t u) : Alone k s u :=
  ⟨h'.rest.trans h.rest, fun j hj => (h'.others j hj).trans (h.others j hj), fun j hj => (h'.isos j hj).trans (h.isos j hj)⟩

theorem Alone.ite {c : Prop} [Decidable c] (h : Alone k s t) (h' : Alone k s u) : Alone k s (if c then t else u) := by
  split
  · exact h
  · exact h'

theorem beside_clk (h : beside t = beside s) : t.clk = s.clk := congrArg (·.1.2.1) h
theorem beside_st (h : beside t = beside s) : t.st = s.st := congrArg (·.1.2.2.2.1) h
theorem beside_settings (h : beside t = beside s) : t.settings = s.settings := congrArg (·.1.2.2.2.2.1) h
theorem beside_scan (h : beside t = beside s) : t.scan = s.scan := congrArg (·.1.2.2.2.2.2.2.1) h
theorem beside_boost (h : beside t = beside s) : t.str.boost = s.str.boost := congrArg (·.2.1.1) h
theorem beside_bus (h : beside t = beside s) : t.bus = s.bus := congrArg (·.2.2.1) h
theorem beside_ros (h : beside t = beside s) : t.ros = s.ros := congrArg (·.2.2.2.1) h
theorem beside_src (h : beside t = beside s) : t.src = s.src := congrArg (·.2.2.2.2.1) h
theorem beside_gen (h : beside t = beside s) : t.gen = s.gen := congrArg (·.2.2.2.2.2.1) h
theorem beside_alm (h : beside t = beside s) : t.alm = s.alm := congrArg (·.2.2.2.2.2.2.1) h
theorem beside_conds (h : beside t = beside s) : t.conds = s.conds := congrArg (·.2.2.2.2.2.2.2) h
theorem beside_now (h : beside t = beside s) : now t = now s := congrArg Clock.value (beside_clk h)

/-! ## Reads of the strings -/

theorem strPhase_of_rec (h : strRec s k = some r) : strPhase s k = r.phase := by rw [strPhase, h]; rfl

theorem strGet_of_rec {α : Type} {d : α} {g : StringRec → α} (h : strRec s k = some r) : strGet s k d g = g r := by rw [strGet, h]; rfl

theorem strPhase_congr (h : strRec t k = strRec s k) : strPhase t k = strPhase s k := by rw [strPhase, h, strPhase]

theorem strGet_congr {α : Type} {d : α} {g : StringRec → α} (h : strRec t k = strRec s k) : strGet t k d g = strGet s k d g := by
  rw [strGet, h, strGet]

theorem strRec_lt (hs : Shape s) (h : strRec s k = some r) : k < 4 := by
  have hlen : s.str.recs.length = 4 := by simp_all [Shape, shape]
  rw [strRec, Option.bind_eq_some_iff] at h
  obtain ⟨x, hx, -⟩ := h
  exact hlen ▸ (List.getElem?_eq_some_iff.1 hx).1

theorem strRec_recs_congr (h : t.str.recs = s.str.recs) : strRec t k = strRec s k := by rw [strRec, h, strRec]

theorem chan_congr {c : Nat} (h : t.scan = s.scan) : chan t c = chan s c := by rw [chan, h, chan]
theorem chanBad_congr {c : Nat} (h : t.scan = s.scan) : chanBad t c = chanBad s c := by rw [chanBad, chan_congr h, chanBad]
theorem currentBad_congr (h : t.scan = s.scan) : currentBad t k = currentBad s k := chanBad_congr h
theorem strCurrent_congr (h : t.scan = s.scan) : strCurrent t k = strCurrent s k := meanOf_congr h

/-! ## A write to a record -/

theorem setStr_alone : Alone k s (setStr k f s) := ⟨rfl, fun _ hj => strRec_setStr_ne (Ne.symm hj), fun _ _ => rfl⟩

theorem setStr_iso : (setStr k f s).str.iso = s.str.iso := rfl

theorem logEv_alone {x : LogKind} {a b c : Word} : Alone k s (logEv x a b c s) := by
  unfold logEv logAt
  split <;> exact ⟨rfl, fun _ _ => rfl, fun _ _ => rfl⟩

theorem strRec_logEv {x : LogKind} {a b c : Word} : strRec (logEv x a b c s) k = strRec s k := strRec_congr logEv_str

theorem checkpoint_str {n : Nat} : (checkpoint n s).str = s.str := by
  unfold checkpoint
  repeat' split
  all_goals rfl

theorem checkpoint_alone {n : Nat} : Alone k s (checkpoint n s) := by
  refine ⟨?_, fun _ _ => strRec_congr checkpoint_str, fun _ _ => by rw [checkpoint_str]⟩
  unfold checkpoint
  repeat' split
  all_goals rfl

/-! ## A change of phase (R8, R16) -/

/-- The record of a string in a new phase. -/
def StringRec.put (r : StringRec) (p : Phase) : StringRec :=
  { r with phase := p, tempMinute := if r.phase.connected then r.tempMinute else 0 }

theorem putPhase_alone : Alone k s (putPhase k p s) :=
  ⟨rfl, fun _ hj => strRec_setStr_ne (Ne.symm hj), fun _ hj => List.getElem?_set_ne (Ne.symm hj)⟩

theorem strRec_putPhase : strRec (putPhase k p s) k = (strRec s k).map (·.put p) := strRec_setStr (f := (·.put p))

theorem changePhase_alone : Alone k s (changePhase k p s) := by
  unfold changePhase
  exact Alone.ite (.refl k s) (putPhase_alone.trans logEv_alone)

/-- A change to another phase. -/
theorem strRec_changePhase (h : strRec s k = some r) (hp : r.phase ≠ p) : strRec (changePhase k p s) k = some (r.put p) := by
  unfold changePhase
  dsimp only
  rw [strPhase_of_rec h, if_neg hp, strRec_logEv, strRec_putPhase, h]
  rfl

/-- A change to the phase that stands is none. -/
theorem changePhase_same (h : strRec s k = some r) (hp : r.phase = p) : changePhase k p s = s := by
  unfold changePhase
  dsimp only
  rw [strPhase_of_rec h, if_pos hp]

theorem changePhase_iso (h : strRec s k = some r) (hp : r.phase ≠ p) : (changePhase k p s).str.iso = s.str.iso.set k p.iso := by
  unfold changePhase
  dsimp only
  rw [strPhase_of_rec h, if_neg hp, logEv_str]
  rfl

theorem strPhase_changePhase (h : strRec s k = some r) : strPhase (changePhase k p s) k = p := by
  by_cases hp : r.phase = p
  · rw [changePhase_same h hp, strPhase_of_rec h, hp]
  · rw [strPhase_of_rec (strRec_changePhase h hp)]
    rfl

/-- A change of phase leaves every field that says neither the phase nor the temperature minute. -/
theorem strRec_changePhase_fields (h : strRec s k = some r) : ∃ n, strRec (changePhase k p s) k = some { r with phase := p, tempMinute := n } := by
  by_cases hp : r.phase = p
  · rw [changePhase_same h hp, h]
    subst hp
    exact ⟨_, rfl⟩
  · rw [strRec_changePhase h hp]
    exact ⟨_, rfl⟩

theorem Phase.ne_of_connected {q : Phase} (h : p.connected = true) (hq : q.connected = false) : p ≠ q := by
  rintro rfl
  rw [h] at hq
  cases hq

/-! ## FULL and FAULT (R7, R18) -/

theorem enterFullPhase_alone : Alone k s (enterFullPhase k s) := changePhase_alone.trans (setStr_alone.trans checkpoint_alone)

theorem strRec_enterFullPhase (h : strRec s k = some r) (hc : r.phase.connected = true) (hf : r.phase ≠ .full) :
    strRec (enterFullPhase k s) k = some ({ r with phase := .full }.enterFull (now s)) := by
  have hput : r.put .full = { r with phase := .full } := by rw [StringRec.put, if_pos hc]
  unfold enterFullPhase
  rw [strRec_congr checkpoint_str, strRec_setStr, strRec_changePhase h hf, Option.map_some, hput]

theorem enterFullPhase_iso (h : strRec s k = some r) (hf : r.phase ≠ .full) :
    (enterFullPhase k s).str.iso = s.str.iso.set k .released := by
  unfold enterFullPhase
  rw [checkpoint_str, setStr_iso, changePhase_iso h hf]
  rfl

theorem enterStringFault_alone {cause : Nat} : Alone k s (enterStringFault k cause s) :=
  changePhase_alone.trans (setStr_alone.trans logEv_alone)

theorem strRec_enterStringFault {cause : Nat} (h : strRec s k = some r) (hf : r.phase ≠ .fault) : strRec (enterStringFault k cause s) k =
    some { { r with phase := .fault }.leaveBus with runaway := if cause = 1 then 2 else 0 } := by
  unfold enterStringFault
  rw [strRec_logEv, strRec_setStr, strRec_changePhase h hf]
  rfl

theorem strPhase_enterStringFault {cause : Nat} (h : strRec s k = some r) : strPhase (enterStringFault k cause s) k = .fault := by
  obtain ⟨n, hn⟩ := strRec_changePhase_fields (p := .fault) h
  unfold enterStringFault
  rw [strPhase, strRec_logEv, strRec_setStr, hn]
  rfl

theorem enterStringFault_iso {cause : Nat} (h : strRec s k = some r) (hf : r.phase ≠ .fault) :
    (enterStringFault k cause s).str.iso = s.str.iso.set k .asserted := by
  unfold enterStringFault
  rw [logEv_str, setStr_iso, changePhase_iso h hf]
  rfl

/-! ## The conditions of the strings (R8, R10, R14) -/

theorem judgeCond_str {q : Nat} {b : Bool} : (judgeCond q b s).str = s.str := by
  unfold judgeCond
  split
  · exact setCond_str
  · rfl

theorem refreshStringConds_str : (refreshStringConds s).str = s.str :=
  judgeCond_str.trans (judgeCond_str.trans (judgeCond_str.trans judgeCond_str))

theorem strRec_refreshStringConds : strRec (refreshStringConds s) k = strRec s k := strRec_congr refreshStringConds_str

theorem refreshStringConds_condOf (hs : s.conds.length = 32) :
    condOf (refreshStringConds s) Pt.stringFault = anyString s (fun r => r.phase == .fault) ∧
    condOf (refreshStringConds s) Pt.runawaySuspect = anyString s (fun r => r.runaway == 1) ∧
    condOf (refreshStringConds s) Pt.chargeIncomplete = anyString s (·.incomplete) ∧
    condOf (refreshStringConds s) Pt.stringIsolated = anyString s fun r => r.phase.open := by
  unfold refreshStringConds
  refine ⟨?_, ?_, ?_, condOf_judgeCond (by rw [judgeCond_conds_length, judgeCond_conds_length, judgeCond_conds_length, hs]; decide)⟩
  · rw [condOf_judgeCond_ne (by decide), condOf_judgeCond_ne (by decide), condOf_judgeCond_ne (by decide),
      condOf_judgeCond (by rw [hs]; decide)]
  · rw [condOf_judgeCond_ne (by decide), condOf_judgeCond_ne (by decide), condOf_judgeCond (by rw [judgeCond_conds_length, hs]; decide)]
  · rw [condOf_judgeCond_ne (by decide), condOf_judgeCond (by rw [judgeCond_conds_length, judgeCond_conds_length, hs]; decide)]

theorem anyString_of_rec {g : StringRec → Bool} (h : strRec s k = some r) (hg : g r = true) : anyString s g = true := by
  rw [strRec, Option.bind_eq_some_iff] at h
  obtain ⟨o, ho, hr⟩ := h
  obtain rfl : o = some r := hr
  exact List.any_eq_true.2 ⟨_, List.mem_of_getElem? ho, hg⟩

theorem refreshStringConds_other {q : Nat} (h1 : Pt.stringFault ≠ q) (h2 : Pt.runawaySuspect ≠ q) (h3 : Pt.chargeIncomplete ≠ q)
    (h4 : Pt.stringIsolated ≠ q) : condOf (refreshStringConds s) q = condOf s q := by
  unfold refreshStringConds
  rw [condOf_judgeCond_ne h4, condOf_judgeCond_ne h3, condOf_judgeCond_ne h2, condOf_judgeCond_ne h1]

end Sys2Proof.Machine
end

section
/-! PROOFS. The rows of a string's charge, minutes and faults (O25 to O28): each makes its own part of an evaluation. -/

namespace Sys2Proof.Machine

variable {s t u : State} {j k : Nat} {r : StringRec} {p : Phase} {b : Bool}

theorem exec_stringRow {due : Bool} {f : State → State} (hr : inRun s = true) (hd : due = true) :
    whenDue (inRun s && due) f s = .next (f s) := whenDue_true (by rw [hr, hd]; rfl)

/-! ## The end of a settle span (R6, R7) -/

theorem settleDue_iff (h : strRec s k = some r) : settleDue s k = true ↔
    r.phase.connected = true ∧ r.phase ≠ .full ∧ currentBad s k = false ∧ phaseCase s k r (settleNext s k r) = .full := by
  unfold settleDue
  rw [h]
  simp [and_assoc]

theorem judgePhase_settles (h : strRec s k = some r) (hd : settleDue s k = true) :
    judgePhase k s = enterFullPhase k (setStr k (fun r' => { r' with settleSpan := settleNext s k r }) s) := by
  obtain ⟨hc, hf, hbad, hcase⟩ := (settleDue_iff h).1 hd
  have hcase' : phaseCase (setStr k (fun r' => { r' with settleSpan := settleNext s k r }) s) k r (settleNext s k r) = .full := hcase
  unfold judgePhase
  rw [h]
  dsimp only
  rw [if_pos (.inl hc), hbad, if_neg Bool.false_ne_true, if_pos ⟨hcase', hf⟩]

/-! ## The boost maximum (R10) -/

theorem boostDue_iff (h : strRec s k = some r) : boostDue s k = true ↔ r.phase.charges = true ∧ boostSpent s r = true := by
  unfold boostDue
  rw [h]
  simp

theorem countBoost_spent (h : strRec s k = some r) (hd : boostDue s k = true) :
    strRec (countBoost k s) k = some { r with incomplete := true, boostTimer := boostNext s r } ∧ (countBoost k s).conds = s.conds := by
  obtain ⟨hc, hs⟩ := (boostDue_iff h).1 hd
  unfold countBoost
  rw [h]
  dsimp only
  rw [if_pos hc, if_pos hs, strRec_logEv, strRec_setStr, strRec_setStr, h]
  exact ⟨rfl, logEv_conds⟩

/-- A spent boost has reached its maximum. -/
theorem boostNext_spent (h : boostSpent s r = true) : r.prof s.settings 8 ≤ boostNext s r := by
  rw [boostSpent, Bool.and_eq_true] at h
  exact of_decide_eq_true h.1

/-! ## A capacity stored (R1) -/

theorem settingTaken_capacity {o : Nat} {old : Word} (hk : k < 4) (ho : o = 0x201 + 3 * k) : settingTaken o old s = capacityStored k s := by
  have hdiv : (o - 0x200) / 3 = k := by omega
  rw [settingTaken, if_neg (by omega), if_pos (by omega), plantStored, if_pos (by omega), if_pos (by omega), hdiv]

theorem exec_capacityStored {o : BitVec 13} {v : Word} (hk : k < 4) (ho : o.toNat = 0x201 + 3 * k) (h : Stores o v s) :
    exec (.guardedWrite o v) s = .next (capacityStored k (stored o v s)) := by
  obtain ⟨-, hlisten, hguard⟩ := h
  rw [guardedWrite_stores hlisten (by omega) (by omega) hguard]
  exact congrArg Host.Outcome.next (settingTaken_capacity hk ho)

theorem strCapacity_stored {o : BitVec 13} {v : Word} (hk : k < 4) (ho : o.toNat = 0x201 + 3 * k) (h : Shape s) :
    strCapacity (stored o v s).settings k = v.toNat := by
  have hl : s.settings.length = 640 := by simp_all [Shape, shape]
  have hlt : 0x201 + 3 * k - 0x180 < 640 := by omega
  simp [strCapacity, stored, natIn, wordIn, setWord, heartbeat_settings, List.getD, hl, ho, hlt]

theorem setStr_of_none {f : StringRec → StringRec} (h : strRec s k = none) : setStr k f s = s := by
  have hupd : ∀ {i : Nat} {l : List (Option StringRec)}, (l[i]?).bind id = none → updAt i (Option.map f) l = l := by
    intro i l
    induction l generalizing i with
    | nil =>
      intro _
      cases i <;> rfl
    | cons a l ih =>
      intro hb
      cases i with
      | zero =>
        obtain rfl : a = none := hb
        rfl
      | succ i => exact congrArg (a :: ·) (ih hb)
  unfold setStr
  rw [hupd h]

/-- Settles O25: each row makes its own operation, and the rest of the strings stay. -/
theorem chargeRows : Obligations.ChargeRows := by
  refine ⟨fun k r s hs hr h hd => ⟨_, exec_stringRow (f := fun t => t |> judgePhase k.val |> refreshStringConds) hr hd, ?settle⟩,
    fun k r s hs hr h hd => ⟨_, exec_stringRow (f := fun t => t |> countBoost k.val |> refreshStringConds) hr hd, ?boost⟩,
    fun k o v s ho h => ?stored⟩
  case settle =>
    obtain ⟨hc, hf, -, -⟩ := (settleDue_iff h).1 hd
    have hset : strRec (setStr k.val (fun r' => { r' with settleSpan := settleNext s k.val r }) s) k.val =
        some { r with settleSpan := settleNext s k.val r } := strRec_of_setStr h
    rw [strRec_refreshStringConds, refreshStringConds_str, judgePhase_settles h hd, strRec_enterFullPhase hset hc hf,
      enterFullPhase_iso hset hf]
    exact ⟨rfl, rfl⟩
  case boost =>
    obtain ⟨-, hspent⟩ := (boostDue_iff h).1 hd
    obtain ⟨hrec, hconds⟩ := countBoost_spent h hd
    obtain ⟨-, -, hcond, -⟩ := refreshStringConds_condOf (s := countBoost k.val s) (by rw [hconds, conds_length hs])
    refine ⟨⟨_, strRec_refreshStringConds.trans hrec, rfl, boostNext_spent hspent⟩, ?_⟩
    rw [hcond]
    exact anyString_of_rec hrec rfl
  case stored =>
    intro u
    refine ⟨capacityStored k.val u, exec_capacityStored k.isLt ho h, rfl, setStr_of_none, fun r hrec => ?_, fun j hj => ?_⟩
    · rw [← strCapacity_stored k.isLt ho h.1]
      exact strRec_of_setStr hrec
    · exact strRec_setStr_ne (Ne.symm hj)

/-! ## Minutes (R13, R16) -/

theorem baselineDue_iff (h : strRec s k = some r) : baselineDue s k = true ↔ r.phase = .full ∧ 60 ≤ r.baselineMinute + 1 := by
  unfold baselineDue
  rw [strPhase_of_rec h, strGet_of_rec h]
  simp

/-- The record with one more evaluation in its baseline minute. -/
def StringRec.minuteMore (r : StringRec) (bad : Bool) (current : Int) : StringRec :=
  { r with
    baselineMinute := r.baselineMinute + 1, baselineSum := if bad then r.baselineSum else r.baselineSum + current,
    baselineSeen := if bad then r.baselineSeen else r.baselineSeen + 1 }

theorem strRec_countBaseline_due (h : strRec s k = some r) (hd : baselineDue s k = true) :
    strRec (countBaseline k s) k = some (r.minuteMore (currentBad s k) (strCurrent s k)).endMinute := by
  obtain ⟨hf, h60⟩ := (baselineDue_iff h).1 hd
  unfold countBaseline
  rw [if_pos ((strPhase_of_rec h).trans hf), strRec_setStr, h]
  exact congrArg some (if_pos h60)

theorem endMinute_none (h : r.baselineSeen = 0) : r.endMinute = { r with baselineMinute := 0, baselineSum := 0, baselineSeen := 0 } :=
  if_pos h

theorem endMinute_some (h : r.baselineSeen ≠ 0) : r.endMinute = { r with
    baselineMinute := 0, baselineSum := 0, baselineSeen := 0, baselineList := pushLast 30 r.baselineList (r.baselineSum.tdiv r.baselineSeen),
    baseline := baselineOf r.baseline (pushLast 30 r.baselineList (r.baselineSum.tdiv r.baselineSeen)) } := if_neg h

theorem temperatureDue_iff (h : strRec s k = some r) : temperatureDue s k = true ↔ r.phase.connected = true ∧ 60 ≤ r.tempMinute + 1 := by
  unfold temperatureDue
  rw [strPhase_of_rec h, strGet_of_rec h]
  simp

/-- The temperature history at the end of a minute. -/
def StringRec.history (r : StringRec) : List Int := if r.tempValid then pushLast 30 r.tempHistory r.temp else r.tempHistory

theorem countTemperature_due (h : strRec s k = some r) (hd : temperatureDue s k = true) :
    strRec (countTemperature k s) k = some { r with tempMinute := 0, tempHistory := r.history } := by
  obtain ⟨hc, h60⟩ := (temperatureDue_iff h).1 hd
  unfold countTemperature
  rw [strRec_setStr, h, Option.map_some, if_pos hc, if_pos h60]
  rfl

/-- Stage 2 is called for (R16). -/
def CallsStage2 (s : State) (k : Nat) (r : StringRec) : Prop :=
  r.phase.connected ∧ r.runaway = 1 ∧ !currentBad s k ∧ 4 * r.baseline < strCurrent s k ∧ 30 ≤ temperatureRise r.tempHistory

theorem judgeStage2_calls (h : strRec s k = some r) (hc : CallsStage2 s k r) : judgeStage2 k s = enterStringFault k 1 s := by
  unfold judgeStage2
  rw [h]
  exact if_pos hc

theorem judgeStage2_waits (h : strRec s k = some r) (hc : ¬ CallsStage2 s k r) : judgeStage2 k s = s := by
  unfold judgeStage2
  rw [h]
  exact if_neg hc

/-- Settles O26: the list and the history at the end of their minutes, and stage 2. -/
theorem stringMinutes : Obligations.StringMinutes := by
  refine ⟨fun k r s hs hr h hd => ?baseline, fun k r s hs hr h hd => ?temperature⟩
  case baseline =>
    intro seen sum l
    refine ⟨countBaseline k.val s, exec_stringRow hr hd, ?_⟩
    have hseen : (r.minuteMore (currentBad s k.val) (strCurrent s k.val)).baselineSeen = seen := by
      unfold StringRec.minuteMore seen
      cases currentBad s k.val <;> rfl
    have hsum : (r.minuteMore (currentBad s k.val) (strCurrent s k.val)).baselineSum = sum := by
      unfold StringRec.minuteMore sum
      cases currentBad s k.val
      · rfl
      · exact (Int.add_zero _).symm
    rw [strRec_countBaseline_due h hd]
    refine ⟨fun h0 => ?_, fun h0 => ?_⟩
    · rw [endMinute_none (hseen.trans h0)]
      rfl
    · rw [endMinute_some (by rw [hseen]; exact h0), hseen, hsum]
      rfl
  case temperature =>
    intro hist stage2
    refine ⟨_, exec_stringRow (f := fun t => t |> countTemperature k.val |> judgeStage2 k.val |> refreshStringConds) hr hd, ?_⟩
    obtain ⟨hc, -⟩ := (temperatureDue_iff h).1 hd
    have hrec := countTemperature_due h hd
    have hrest : beside (countTemperature k.val s) = beside s := setStr_alone.rest (k := k.val)
    have hcall : CallsStage2 (countTemperature k.val s) k.val { r with tempMinute := 0, tempHistory := r.history } ↔ stage2 := by
      unfold CallsStage2 stage2
      rw [currentBad_congr (beside_scan hrest), strCurrent_congr (beside_scan hrest), Bool.not_eq_true']
      exact ⟨fun ⟨_, h⟩ => h, fun h => ⟨hc, h⟩⟩
    rw [strRec_refreshStringConds, refreshStringConds_str, strPhase_congr strRec_refreshStringConds]
    refine ⟨fun hn => ?_, fun hy => ?_⟩
    · rw [judgeStage2_waits hrec (mt hcall.1 hn), hrec]
      rfl
    · have hf : r.phase ≠ .fault := Phase.ne_of_connected hc rfl
      rw [judgeStage2_calls hrec (hcall.2 hy), strPhase_enterStringFault hrec, enterStringFault_iso hrec hf, strRec_enterStringFault hrec hf]
      exact ⟨rfl, rfl, rfl⟩

/-! ## Runaway and over-temperature (R14, R17) -/

theorem runawayDue_iff (h : strRec s k = some r) :
    runawayDue s k = true ↔ r.runaway = 0 ∧ suspect s k r = true ∧ 600 ≤ r.runawaySpan + 1 := by
  unfold runawayDue
  rw [h]
  simp [and_assoc]

theorem connected_of_suspect (h : suspect s k r = true) : r.phase.connected = true := by
  rw [suspect, Bool.and_eq_true, Bool.and_eq_true] at h
  obtain ⟨⟨hf, -⟩, -⟩ := h
  rw [beq_iff_eq.1 hf]
  rfl

theorem strRec_countRunaway_due (h : strRec s k = some r) (hd : runawayDue s k = true) : strRec (countRunaway k s) k =
    some { r with runaway := 1, runawaySpan := 0, returnSpan := 0, stage1Level := stringsLevel s - r.prof s.settings 12 } := by
  obtain ⟨h0, hsus, h600⟩ := (runawayDue_iff h).1 hd
  unfold countRunaway
  rw [strRec_setStr, h, Option.map_some, if_pos (connected_of_suspect hsus), if_pos h0, if_pos hsus, if_pos h600]

theorem returnDue_iff (h : strRec s k = some r) : returnDue s k = true ↔
    r.phase.connected = true ∧ r.runaway = 1 ∧ subsides s k r = true ∧ 600 ≤ r.returnSpan + 1 := by
  unfold returnDue
  rw [h]
  simp [and_assoc]

theorem strRec_countRunaway_returns (h : strRec s k = some r) (hd : returnDue s k = true) :
    strRec (countRunaway k s) k = some { r with runaway := 0, returnSpan := 0, runawaySpan := 0 } := by
  obtain ⟨hc, h1, hsub, h600⟩ := (returnDue_iff h).1 hd
  unfold countRunaway
  rw [strRec_setStr, h, Option.map_some, if_pos hc, if_neg (by omega), if_pos h1, if_pos hsub, if_pos h600]

theorem overtempDue_iff (h : strRec s k = some r) : overtempDue s k = true ↔ tooHot s r = true ∧ 60 ≤ r.overtempSpan + 1 := by
  unfold overtempDue
  rw [h]
  simp

theorem connected_of_tooHot (h : tooHot s r = true) : r.phase.connected = true := by
  rw [tooHot, Bool.and_eq_true, Bool.and_eq_true] at h
  exact h.1.1

theorem countOvertemp_due (h : strRec s k = some r) (hd : overtempDue s k = true) : countOvertemp k s = enterStringFault k 2 s := by
  obtain ⟨hot, h60⟩ := (overtempDue_iff h).1 hd
  unfold countOvertemp
  rw [h]
  dsimp only
  rw [if_pos hot, if_pos h60]

/-- Settles O27: the stages by their spans, and FAULT by the over-temperature span. -/
theorem stringFaultRows : Obligations.StringFaultRows := by
  refine ⟨fun k r s hs hr h hd => ⟨_, exec_stringRow (f := fun t => t |> countRunaway k.val |> refreshStringConds) hr hd, ?runaway⟩, fun k r s hs hr h hd => ⟨_, exec_stringRow (f := fun t => t |> countRunaway k.val |> refreshStringConds) hr hd, ?returns⟩,
    fun k r s hs hr h hd => ⟨_, exec_stringRow (f := fun t => t |> countOvertemp k.val |> refreshStringConds) hr hd, ?hot⟩⟩
  case runaway =>
    have hrec := strRec_countRunaway_due h hd
    obtain ⟨-, hcond, -, -⟩ := refreshStringConds_condOf (s := countRunaway k.val s) (conds_length (s := s) hs)
    refine ⟨strRec_refreshStringConds.trans hrec, ?_⟩
    rw [hcond]
    exact anyString_of_rec hrec rfl
  case returns => exact strRec_refreshStringConds.trans (strRec_countRunaway_returns h hd)
  case hot =>
    obtain ⟨hot, -⟩ := (overtempDue_iff h).1 hd
    have hf : r.phase ≠ .fault := Phase.ne_of_connected (connected_of_tooHot hot) rfl
    have hrec := strRec_enterStringFault (cause := 2) h hf
    have hconds : (enterStringFault k.val 2 s).conds = s.conds := beside_conds (enterStringFault_alone (k := k.val)).rest
    obtain ⟨hfault, -, -, hopen⟩ := refreshStringConds_condOf (s := enterStringFault k.val 2 s) (by rw [hconds, conds_length hs])
    rw [strRec_refreshStringConds, refreshStringConds_str, countOvertemp_due h hd, hrec, enterStringFault_iso h hf, hfault, hopen]
    exact ⟨rfl, rfl, anyString_of_rec hrec rfl, anyString_of_rec hrec rfl⟩

end Sys2Proof.Machine
end

section
/-! PROOFS. The DEPTH post at the start voltage's span (O28), and the rows of a reconnect (O29). -/

namespace Sys2Proof.Machine

variable {s t u : State} {j k : Nat} {r : StringRec} {p : Phase} {b : Bool} {o : ReconnectOutcome}

/-! ## DEPTH posted (R25) -/

/-- The DEPTH check of an evaluation that may post. -/
theorem checkDepth_posts (hheld : s.str.depthHeld = false) (hspent : s.str.depthSpent = false) (hdue : depthDue s = true)
    (hover : depthOver s = false) (htest : testRunning s = false) : checkDepth s = postDepth s := by
  have hclear : clearSpent s = s := by
    unfold clearSpent
    split
    · obtain ⟨_, _, _, _, _, _, _, _, _, _, _, ⟨_, _, _, _, _, spent, _⟩, _, _, _, _, _, _⟩ := s
      cases hspent
      rfl
    · rfl
  unfold checkDepth
  dsimp only
  rw [hclear, hheld, if_neg Bool.false_ne_true, hdue, hover, hspent, htest]
  rfl

theorem postDepth_requested : requested (postDepth s) .depth = true := by
  unfold postDepth
  dsimp only
  by_cases h : requested { s with str := { s.str with depthHeld := true } } .depth = true
  · rw [postRequest, if_pos h, h]
  · have h' := eq_false_of_ne_true h
    have hq : postRequest .depth true 0 { s with str := { s.str with depthHeld := true } } =
        addRequest .depth true 0 { s with str := { s.str with depthHeld := true } } := by
      rw [postRequest, if_neg (by simp [h']), if_neg (by simp), if_neg (by simp)]
    rw [hq, requested, addRequest_requests]
    rfl

theorem postDepth_str : (postDepth s).str = { s.str with depthHeld := true } :=
  aside_str (postRequest_aside (s := { s with str := { s.str with depthHeld := true } }))

/-- The bus span standing full. -/
def spanFull (s : State) : State := { s with str := { s.str with busSpan := 60 } }

/-- Settles O28: the span stands full, and the check that follows finds DEPTH due. -/
theorem startVoltageSpan : Obligations.StartVoltageSpan := by
  intro s hr hd hmains hfuel hover hspent hheld htest
  refine ⟨checkDepth (countBusSpan s), exec_stringRow (f := fun t => t |> countBusSpan |> checkDepth) hr hd, ?_⟩
  rw [busSpanDue, Bool.and_eq_true, decide_eq_true_eq] at hd
  obtain ⟨hsag, h60⟩ := hd
  have hspan : countBusSpan s = spanFull s := by
    unfold countBusSpan spanFull
    rw [if_pos hsag, Nat.min_eq_left h60]
  have hdue : depthDue (spanFull s) = true := by
    have hfuel' : pointActive (spanFull s) Pt.fuelCritical = false := hfuel
    unfold depthDue
    rw [hfuel', if_neg Bool.false_ne_true, Bool.and_eq_true]
    exact ⟨bne_iff_ne.2 hmains, Bool.or_true _⟩
  have hposts : checkDepth (spanFull s) = postDepth (spanFull s) := checkDepth_posts hheld hspent hdue hover htest
  rw [hspan, hposts, postDepth_str]
  exact ⟨rfl, postDepth_requested, rfl, rfl⟩

/-! ## The end of a reconnect (R21, R24) -/

theorem withdrawClaim_str {c : Slot} : (withdrawClaim c s).str = s.str := by
  unfold withdrawClaim
  split <;> rfl

theorem withdrawClaim_conds {c : Slot} : (withdrawClaim c s).conds = s.conds := by
  unfold withdrawClaim
  split <;> rfl

theorem postIfNew_rest {c : Slot} {l : Int} : { postIfNew c l s with bus := s.bus } = s := by
  unfold postIfNew
  split <;> rfl

theorem reconnecting_phase (h : reconnecting s = some k) : strPhase s k = .reconnecting ∧ k < 4 := by
  have hp := List.find?_some h
  have hm := List.mem_of_find?_eq_some h
  exact ⟨beq_iff_eq.1 hp, List.mem_range.1 hm⟩

/-- The phase before the reconnect. -/
def StringRec.prior (r : StringRec) : Phase := if r.priorFault then .fault else .isolated

theorem prior_ne_reconnecting : r.prior ≠ .reconnecting := by
  unfold StringRec.prior
  split <;> decide

theorem prior_iso : r.prior.iso = .asserted := by
  unfold StringRec.prior
  split <;> rfl

theorem priorPhase_of_rec (h : strRec s k = some r) : priorPhase s k = r.prior := by
  unfold priorPhase StringRec.prior
  rw [strGet_of_rec h]

section EndReconnect

theorem strRec_endReconnect (h : strRec s k = some r) (hp : r.phase = .reconnecting) : strRec (endReconnect k o s) k =
    some { r with phase := r.prior, tempMinute := 0, stage := .none, inrushTimer := false, outcome := o } := by
  have hput : r.put r.prior = { r with phase := r.prior, tempMinute := 0 } := by
    rw [StringRec.put, hp]
    rfl
  unfold endReconnect logReconnect
  rw [strRec_logEv, strRec_congr withdrawClaim_str, strRec_setStr, priorPhase_of_rec h,
    strRec_changePhase h (by rw [hp]; exact prior_ne_reconnecting.symm), hput]
  rfl

theorem strRec_endReconnect_ne (h : j ≠ k) : strRec (endReconnect k o s) j = strRec s j := by
  unfold endReconnect logReconnect
  rw [strRec_logEv, strRec_congr withdrawClaim_str, strRec_setStr_ne (Ne.symm h), changePhase_alone.others j h]

theorem endReconnect_iso (h : strRec s k = some r) (hp : r.phase = .reconnecting) :
    (endReconnect k o s).str.iso = s.str.iso.set k .asserted := by
  unfold endReconnect logReconnect
  rw [logEv_str, withdrawClaim_str, setStr_iso, priorPhase_of_rec h,
    changePhase_iso h (by rw [hp]; exact prior_ne_reconnecting.symm), prior_iso]

theorem endReconnect_matching : (endReconnect k o s).bus.claims.matching = none := by
  unfold endReconnect logReconnect
  rw [logEv_bus]
  exact withdrawClaim_get (k := .matching)

theorem endReconnect_conds : (endReconnect k o s).conds = s.conds := by
  unfold endReconnect logReconnect
  rw [logEv_conds, withdrawClaim_conds]
  exact beside_conds (changePhase_alone (k := k)).rest

end EndReconnect

/-! ## A string in its MATCHING stage (R21) -/

/-- The state once the MATCH level has followed the string's voltage. -/
def matchPosted (k : Nat) (s : State) : State := if chanBad s (2 + k) then s else postIfNew .matching (matchLevel s k) s

theorem matchPosted_rest : { matchPosted k s with bus := s.bus } = s := by
  unfold matchPosted
  split
  · rfl
  · exact postIfNew_rest

theorem matchPosted_fields : (matchPosted k s).str = s.str ∧ (matchPosted k s).scan = s.scan ∧ (matchPosted k s).settings = s.settings ∧
    now (matchPosted k s) = now s ∧ (matchPosted k s).conds = s.conds := by
  have h := matchPosted_rest (k := k) (s := s)
  have h1 := congrArg State.str h
  have h2 := congrArg State.scan h
  have h3 := congrArg State.settings h
  have h4 := congrArg now h
  have h5 := congrArg State.conds h
  exact ⟨h1, h2, h3, h4, h5⟩

theorem matchPosted_matching : (matchPosted k s).bus.claims.matching =
    if chanBad s (2 + k) then s.bus.claims.matching else wished (now s) (matchLevel s k) s.bus.claims.matching := by
  unfold matchPosted
  split
  · rfl
  · exact postIfNew_get (k := .matching)

theorem matchHolds_congr (h1 : t.scan = s.scan) (h2 : t.settings = s.settings) : matchHolds t k = matchHolds s k := by
  rw [matchHolds, chanBad_congr h1, chanBad_congr h1, meanOf_congr h1, meanOf_congr h1, h2, matchHolds]

theorem reconnectOverdue_congr (h1 : t.str = s.str) (h2 : now t = now s) : reconnectOverdue t k = reconnectOverdue s k := by
  rw [reconnectOverdue, strGet_congr (strRec_congr h1), since, h2, reconnectOverdue, since]

/-- The three ends of an evaluation of a string in its MATCHING stage. -/
theorem handleMatching_eq (h : strRec s k = some r) (hm : r.stage = .matching) : handleMatching k s =
    if matchHolds s k then closeString k (matchPosted k s)
    else if reconnectOverdue s k then setCond Pt.reconnectFailed true (endReconnect k .timeout (matchPosted k s))
    else matchPosted k s := by
  obtain ⟨hstr, hscan, hset, hnow, -⟩ := matchPosted_fields (k := k) (s := s)
  rw [← matchHolds_congr hscan hset, ← reconnectOverdue_congr hstr hnow]
  unfold handleMatching
  rw [if_pos ((strGet_of_rec h).trans hm)]
  rfl

/-! ## The inrush timer's expiry (R23) -/

section Inrush

/-- The inrush lies within its limit. -/
def InrushOk (s : State) (k : Nat) (r : StringRec) : Prop :=
  currentBad s k = false ∧ (strCurrent s k).natAbs ≤ percentC s.settings k (r.prof s.settings 13)

/-- The state with the stage ended. -/
def inrushEnded (k : Nat) (s : State) : State := setStr k (fun r => { r with stage := .none, inrushTimer := false, settleSpan := 0 }) s

theorem inrushEnded_rec (h : strRec s k = some r) :
    strRec (inrushEnded k s) k = some { r with stage := .none, inrushTimer := false, settleSpan := 0 } := strRec_of_setStr h

theorem inrushExpiry_ok (h : strRec s k = some r) (hs : r.stage = .checking) (ht : r.inrushTimer = true) (hok : InrushOk s k r) :
    inrushExpiry k s = (inrushEnded k s |> setStr k (fun r => { r with strikes := 0, runaway := 0, outcome := .closed }) |> withdrawClaim .matching
      |> changePhase k (phaseCase s k r 0) |> logReconnect .closed 0 |> setCond Pt.reconnectFailed false) := by
  obtain ⟨hbad, hle⟩ := hok
  have hok' : (!currentBad (inrushEnded k s) k) = true ∧
      (strCurrent (inrushEnded k s) k).natAbs ≤ percentC (inrushEnded k s).settings k (r.prof (inrushEnded k s).settings 13) :=
    ⟨congrArg (!·) hbad, hle⟩
  unfold inrushExpiry
  rw [h]
  dsimp only
  rw [if_pos ⟨hs, ht⟩]
  exact if_pos hok'

/-- The state of a reconnect that fails, before the phase it goes to. -/
def inrushStruck (k n : Nat) (s : State) : State :=
  inrushEnded k s |> setStr k (fun r => { r with strikes := n, outcome := .inrush }) |> withdrawClaim .matching

theorem inrushExpiry_fails (h : strRec s k = some r) (hs : r.stage = .checking) (ht : r.inrushTimer = true) (hok : ¬ InrushOk s k r) :
    let n := min 2 (r.strikes + 1)
    inrushExpiry k s = ((if n = 2 ∨ r.priorFault then enterStringFault k 3 (inrushStruck k n s) else changePhase k .isolated (inrushStruck k n s))
      |> logReconnect .inrush (wordOf n) |> setCond Pt.reconnectFailed true) := by
  intro n
  have hok' : ¬ ((!currentBad (inrushEnded k s) k) = true ∧
      (strCurrent (inrushEnded k s) k).natAbs ≤ percentC (inrushEnded k s).settings k (r.prof (inrushEnded k s).settings 13)) :=
    fun ⟨hb, hle⟩ => hok ⟨(Bool.not_eq_true' _).mp hb, hle⟩
  unfold inrushExpiry
  rw [h]
  dsimp only
  rw [if_pos ⟨hs, ht⟩]
  exact if_neg hok'

theorem inrushStruck_rec {n : Nat} (h : strRec s k = some r) : strRec (inrushStruck k n s) k =
    some { r with stage := .none, inrushTimer := false, settleSpan := 0, strikes := n, outcome := .inrush } := by
  unfold inrushStruck
  rw [strRec_congr withdrawClaim_str]
  exact strRec_of_setStr (inrushEnded_rec h)

theorem inrushStruck_conds {n : Nat} : (inrushStruck k n s).conds = s.conds := withdrawClaim_conds

theorem inrushStruck_matching {n : Nat} : (inrushStruck k n s).bus.claims.matching = none := withdrawClaim_get (k := .matching)

end Inrush

/-! ## The rows of a reconnect -/

theorem setCond_matching {q : Nat} {b : Bool} : (setCond q b s).bus.claims.matching = s.bus.claims.matching :=
  aside_claimMatching (s := withCond q b s) setCond_rest

theorem refreshStringConds_matching : (refreshStringConds s).bus.claims.matching = s.bus.claims.matching := by
  have hj : ∀ (q : Nat) (b : Bool) (u : State), (judgeCond q b u).bus.claims.matching = u.bus.claims.matching := by
    intro q b u
    unfold judgeCond
    split
    · exact setCond_matching
    · rfl
  unfold refreshStringConds
  rw [hj, hj, hj, hj]

theorem refreshStringConds_reconnectFailed : condOf (refreshStringConds s) Pt.reconnectFailed = condOf s Pt.reconnectFailed :=
  refreshStringConds_other (by decide) (by decide) (by decide) (by decide)

/-- A reconnect that ends TIMEOUT, seen after the conditions are judged. -/
theorem handleMatching_timeout (hs : Shape s) (h : strRec s k = some r) (hp : r.phase = .reconnecting) (hm : r.stage = .matching)
    (hno : matchHolds s k = false) (ho : reconnectOverdue s k = true) :
    let t := handleMatching k s
    strRec t k = some { r with phase := r.prior, tempMinute := 0, stage := .none, inrushTimer := false, outcome := .timeout } ∧
      t.bus.claims.matching = none ∧ condOf t Pt.reconnectFailed = true ∧ t.str.iso = s.str.iso.set k .asserted := by
  intro t
  obtain ⟨hstr, -, -, -, hconds⟩ := matchPosted_fields (k := k) (s := s)
  have ht : t = setCond Pt.reconnectFailed true (endReconnect k .timeout (matchPosted k s)) := by
    unfold t
    rw [handleMatching_eq h hm, if_neg (by rw [hno]; exact Bool.false_ne_true), if_pos ho]
  have hrec : strRec (matchPosted k s) k = some r := (strRec_congr hstr).trans h
  have hlen : (endReconnect k .timeout (matchPosted k s)).conds.length = 32 := by rw [endReconnect_conds, hconds, conds_length hs]
  rw [ht, strRec_congr setCond_str, setCond_matching, condOf_setCond (by rw [hlen]; decide), setCond_str, strRec_endReconnect hrec hp,
    endReconnect_iso hrec hp, endReconnect_matching, hstr]
  exact ⟨rfl, rfl, rfl, rfl⟩

theorem matching_of_bus (h : t.bus = s.bus) : t.bus.claims.matching = s.bus.claims.matching := by rw [h]

/-- A reconnect that closes. -/
theorem inrushExpiry_closes (h : strRec s k = some r) (hs : r.stage = .checking) (ht : r.inrushTimer = true) (hok : InrushOk s k r) :
    let t := inrushExpiry k s
    (∃ r', strRec t k = some r' ∧ r'.phase = phaseCase s k r 0 ∧ r'.stage = .none ∧ r'.strikes = 0 ∧ r'.outcome = .closed) ∧
      t.bus.claims.matching = none ∧ condOf t Pt.reconnectFailed = false := by
  intro t
  have hrec : strRec (withdrawClaim .matching (setStr k (fun r => { r with strikes := 0, runaway := 0, outcome := .closed }) (inrushEnded k s))) k =
      some { r with stage := .none, inrushTimer := false, settleSpan := 0, strikes := 0, runaway := 0, outcome := .closed } :=
    (strRec_congr withdrawClaim_str).trans (strRec_of_setStr (inrushEnded_rec h))
  obtain ⟨n, hphase⟩ := strRec_changePhase_fields (p := phaseCase s k r 0) hrec
  unfold t
  rw [inrushExpiry_ok h hs ht hok, strRec_congr setCond_str, setCond_matching, condOf_withdrawn, logReconnect, strRec_logEv, logEv_bus,
    matching_of_bus (beside_bus (changePhase_alone (k := k)).rest), hphase]
  exact ⟨⟨_, rfl, rfl, rfl, rfl, rfl⟩, withdrawClaim_get (k := .matching), rfl⟩

/-- A string's FAULT leaves what its reconnect recorded. -/
theorem enterStringFault_fields {cause : Nat} (h : strRec s k = some r) : ∃ r', strRec (enterStringFault k cause s) k = some r' ∧
    r'.phase = .fault ∧ r'.stage = r.stage ∧ r'.strikes = r.strikes ∧ r'.outcome = r.outcome := by
  obtain ⟨m, hm⟩ := strRec_changePhase_fields (p := .fault) h
  unfold enterStringFault
  rw [strRec_logEv, strRec_setStr, hm]
  exact ⟨_, rfl, rfl, rfl, rfl, rfl⟩

/-- The phase that a failed inrush gives. -/
theorem failedInrush_rec {n : Nat} (h : strRec s k = some r) :
    let t := if n = 2 ∨ r.priorFault then enterStringFault k 3 (inrushStruck k n s) else changePhase k .isolated (inrushStruck k n s)
    (∃ r', strRec t k = some r' ∧ r'.phase = (if n = 2 ∨ r.priorFault = true then .fault else .isolated) ∧ r'.stage = .none ∧
      r'.strikes = n ∧ r'.outcome = .inrush) ∧ beside t = beside (inrushStruck k n s) := by
  intro t
  have hrec := inrushStruck_rec (n := n) h
  obtain ⟨i, hi⟩ := strRec_changePhase_fields (p := .isolated) hrec
  unfold t
  split
  · obtain ⟨r', hr', hphase, hstage, hstrikes, hout⟩ := enterStringFault_fields (cause := 3) hrec
    exact ⟨⟨r', hr', hphase, hstage, hstrikes, hout⟩, (enterStringFault_alone (k := k)).rest⟩
  · exact ⟨⟨_, hi, rfl, rfl, rfl, rfl⟩, (changePhase_alone (k := k)).rest⟩

/-- A reconnect that fails on its inrush. -/
theorem inrushExpiry_strikes (hsh : Shape s) (h : strRec s k = some r) (hs : r.stage = .checking) (ht : r.inrushTimer = true)
    (hok : ¬ InrushOk s k r) :
    let t := inrushExpiry k s
    (∃ r', strRec t k = some r' ∧ r'.phase = (if min 2 (r.strikes + 1) = 2 ∨ r.priorFault = true then .fault else .isolated) ∧
      r'.stage = .none ∧ r'.strikes = min 2 (r.strikes + 1) ∧ r'.outcome = .inrush) ∧
      t.bus.claims.matching = none ∧ condOf t Pt.reconnectFailed = true := by
  intro t
  obtain ⟨hrec, hrest⟩ := failedInrush_rec (n := min 2 (r.strikes + 1)) h
  have ht' : t = _ := inrushExpiry_fails h hs ht hok
  clear_value t
  generalize (if min 2 (r.strikes + 1) = 2 ∨ r.priorFault = true then enterStringFault k 3 (inrushStruck k (min 2 (r.strikes + 1)) s)
    else changePhase k .isolated (inrushStruck k (min 2 (r.strikes + 1)) s)) = v at ht' hrec hrest
  have hlen : (logReconnect .inrush (wordOf (min 2 (r.strikes + 1))) v).conds.length = 32 := by
    rw [logReconnect, logEv_conds, beside_conds hrest, inrushStruck_conds, conds_length hsh]
  rw [ht', strRec_congr setCond_str, setCond_matching, condOf_setCond (by rw [hlen]; decide), logReconnect, strRec_logEv, logEv_bus,
    matching_of_bus (beside_bus hrest)]
  exact ⟨hrec, inrushStruck_matching, rfl⟩

/-- Settles O29: the reconnect ends TIMEOUT, CLOSED or with a strike. -/
theorem reconnectRows : Obligations.ReconnectRows := by
  refine ⟨fun k r s hs hr hk h hm ho hno => ⟨refreshStringConds (handleMatching k s), ?exec1, ?timeout⟩,
    fun k r s hs hr hk h hm ht => ?inrush⟩
  case exec1 =>
    have hrow : exec .reconnectTimeout s = whenDue (inRun s && reconnectOverdue s k) (fun t => t |> handleMatching k |> refreshStringConds) s := by
      change execReconnectTimeout s = _
      rw [execReconnectTimeout, hk]
    exact hrow.trans (exec_stringRow hr ho)
  case timeout =>
    obtain ⟨hp, -⟩ := reconnecting_phase hk
    rw [strPhase_of_rec h] at hp
    obtain ⟨hrec, hmatch, hcond, -⟩ := handleMatching_timeout hs h hp hm hno ho
    rw [strPhase_congr strRec_refreshStringConds, strGet_congr strRec_refreshStringConds, strGet_congr strRec_refreshStringConds,
      refreshStringConds_matching, refreshStringConds_reconnectFailed, strPhase_of_rec hrec, strGet_of_rec hrec, strGet_of_rec hrec]
    exact ⟨rfl, rfl, rfl, hmatch, hcond⟩
  case inrush =>
    intro ok
    have hrow : exec .inrushTimerExpiry s = .next (refreshStringConds (inrushExpiry k s)) := by
      change execInrushTimerExpiry s = _
      rw [execInrushTimerExpiry, hk]
      exact whenDue_true (f := fun t => t |> inrushExpiry k |> refreshStringConds) hr
    refine ⟨_, hrow, ?_⟩
    rw [strPhase_congr strRec_refreshStringConds, strGet_congr strRec_refreshStringConds, strGet_congr strRec_refreshStringConds,
      strGet_congr strRec_refreshStringConds, refreshStringConds_matching, refreshStringConds_reconnectFailed]
    by_cases hok : InrushOk s k r
    · obtain ⟨⟨r', hrec, hphase, hstage, hstrikes, hout⟩, hmatch, hcond⟩ := inrushExpiry_closes h hm ht hok
      rw [strPhase_of_rec hrec, strGet_of_rec hrec, strGet_of_rec hrec, strGet_of_rec hrec]
      exact ⟨hmatch, hstage, fun _ => ⟨hphase, hstrikes, hout, hcond⟩, fun hn => absurd hok hn⟩
    · obtain ⟨⟨r', hrec, hphase, hstage, hstrikes, hout⟩, hmatch, hcond⟩ := inrushExpiry_strikes hs h hm ht hok
      rw [strPhase_of_rec hrec, strGet_of_rec hrec, strGet_of_rec hrec, strGet_of_rec hrec]
      exact ⟨hmatch, hstage, fun hy => absurd hy hok, fun _ => ⟨hphase, hstrikes, hout, hcond⟩⟩

end Sys2Proof.Machine
end

section
/-! PROOFS. STRING_ISOLATE and STRING_RECONNECT (O30). -/

namespace Sys2Proof.Machine

variable {s t u : State} {slot : Fin 16} {tag : BitVec 8} {op k : Nat} {r : StringRec}

/-! ## The strings under a post and its answer -/

theorem heartbeat_str : (heartbeat s).str = s.str := by
  unfold heartbeat
  dsimp only
  split
  · rw [silenceTo, setCond_str, logEv_str]
  · rfl

theorem atPost_str : (atPost slot op tag s).str = s.str := heartbeat_str

theorem commanded_str : (commanded slot op tag s).str = (ruled slot op tag s).1.str := logEv_str

theorem commanded_bus : (commanded slot op tag s).bus = (ruled slot op tag s).1.bus := logEv_bus

/-! ## STRING_ISOLATE (R19) -/

theorem stringIsolate_none (h : strRec s k = none) : stringIsolate k s = (s, .refusedRange, 1) := by simp only [stringIsolate, h]

theorem stringIsolate_isolated (h : strRec s k = some r) (hp : r.phase = .isolated) : stringIsolate k s = (s, .refusedState, 1) := by
  simp only [stringIsolate, h, hp]

theorem stringIsolate_fault (h : strRec s k = some r) (hp : r.phase = .fault) : stringIsolate k s = (s, .refusedState, 2) := by
  simp only [stringIsolate, h, hp]

theorem stringIsolate_reconnecting (h : strRec s k = some r) (hp : r.phase = .reconnecting) :
    stringIsolate k s = (refreshStringConds (endReconnect k .abandonedCmd s), .done, 0) := by
  simp only [stringIsolate, h, hp]

theorem stringIsolate_connected (h : strRec s k = some r) (hp : r.phase.connected = true) :
    stringIsolate k s = (refreshStringConds (setStr k StringRec.leaveBus (changePhase k .isolated s)), .done, 0) := by
  have hcases : r.phase = .discharging ∨ r.phase = .charging ∨ r.phase = .topping ∨ r.phase = .full := by
    cases hr : r.phase <;> simp_all [Phase.connected]
  rcases hcases with hr | hr | hr | hr <;> simp only [stringIsolate, h, hr]

/-- A connected string isolated. -/
theorem isolated_outcome (hs : Shape s) (h : strRec s k = some r) (hp : r.phase.connected = true) :
    let t := refreshStringConds (setStr k StringRec.leaveBus (changePhase k .isolated s))
    strRec t k = some { r with phase := .isolated }.leaveBus ∧ t.str.iso = s.str.iso.set k .asserted ∧ condOf t Pt.stringIsolated = true := by
  intro t
  have hne : r.phase ≠ .isolated := Phase.ne_of_connected hp rfl
  have hrec : strRec (setStr k StringRec.leaveBus (changePhase k .isolated s)) k = some { r with phase := .isolated }.leaveBus := by
    rw [strRec_setStr, strRec_changePhase h hne]
    rfl
  have hconds : (setStr k StringRec.leaveBus (changePhase k .isolated s)).conds = s.conds := beside_conds (changePhase_alone (k := k)).rest
  obtain ⟨-, -, -, hcond⟩ := refreshStringConds_condOf (s := setStr k StringRec.leaveBus (changePhase k .isolated s))
    (by rw [hconds, conds_length hs])
  unfold t
  rw [strRec_refreshStringConds, refreshStringConds_str, hcond, setStr_iso, changePhase_iso h hne]
  exact ⟨hrec, rfl, anyString_of_rec hrec rfl⟩

/-! ## STRING_RECONNECT (R20) -/

theorem stringReconnect_none (h : strRec s k = none) : stringReconnect k s = (s, .refusedRange, 1) := by simp only [stringReconnect, h]

theorem stringReconnect_connected (h : strRec s k = some r) (hp : r.phase.connected = true) :
    stringReconnect k s = (s, .refusedState, 1) := by
  simp only [stringReconnect, h, hp, true_or, if_true]

section Open

variable (h : strRec s k = some r) (hp : r.phase.open = true)
include h hp

/-- The command of an open string, past its own phase. -/
theorem stringReconnect_open : stringReconnect k s =
    if (reconnecting s).isSome then (s, .refusedBusy, 1)
    else if s.bus.eq.running then (s, .refusedBusy, 2)
    else if testRunning s then (s, .refusedBusy, 3)
    else if chanBad s (2 + k) ∨ chanBad s 0 then (s, .refusedState, 3)
    else if meanOf s (2 + k) < r.prof s.settings 14 then
      (s |> setStr k (fun r => { r with outcome := .noString }) |> logReconnect .noString 0 |> setCond Pt.reconnectFailed true,
        .refusedState, 2)
    else (beginReconnect k s, .started, 0) := by
  have hn : ¬ (r.phase.connected = true ∨ r.phase = .absent) := by
    cases hr : r.phase <;> rw [hr] at hp <;> simp [Phase.connected] <;> cases hp
  unfold stringReconnect
  rw [h]
  exact if_neg hn

variable (hrec : reconnecting s = none) (heq : s.bus.eq.running = false) (htest : testRunning s = false)
include hrec heq htest

/-- The command of an open string with nothing in its way but the string itself. -/
theorem stringReconnect_free : stringReconnect k s =
    if chanBad s (2 + k) ∨ chanBad s 0 then (s, .refusedState, 3)
    else if meanOf s (2 + k) < r.prof s.settings 14 then
      (s |> setStr k (fun r => { r with outcome := .noString }) |> logReconnect .noString 0 |> setCond Pt.reconnectFailed true,
        .refusedState, 2)
    else (beginReconnect k s, .started, 0) := by
  rw [stringReconnect_open h hp, hrec, heq, htest]
  rfl

end Open

theorem postClaim_matching {l : Int} : (postClaim .matching l s).bus.claims.matching = some ⟨l, now s⟩ := rfl

/-- The record of a string whose reconnect begins. -/
def StringRec.reconnects (fromFault : Bool) (time : Nat) (r : StringRec) : StringRec :=
  { r with stage := .matching, priorFault := fromFault, reconnectStart := time, inrushTimer := false }

/-- A reconnect begun. -/
theorem beginReconnect_outcome (h : strRec s k = some r) (hr : r.phase ≠ .reconnecting) :
    let t := beginReconnect k s
    (∃ r', strRec t k = some r' ∧ r'.phase = .reconnecting ∧ r'.stage = .matching ∧ r'.priorFault = (r.phase == .fault)) ∧
      t.bus.claims.matching = some ⟨meanOf s (2 + k) + matchWindow s.settings / 2, now s⟩ := by
  intro t
  have hmarked : Alone k s (setStr k (StringRec.reconnects (r.phase == .fault) (now s)) (changePhase k .reconnecting s)) :=
    changePhase_alone.trans setStr_alone
  have hrec := strRec_of_setStr (f := StringRec.reconnects (r.phase == .fault) (now s)) (strRec_changePhase h hr)
  have ht : t = refreshStringConds (postClaim .matching (matchLevel s k)
      (setStr k (StringRec.reconnects (r.phase == .fault) (now s)) (changePhase k .reconnecting s))) := by
    unfold t beginReconnect
    rw [strPhase_of_rec h]
    rfl
  generalize setStr k (StringRec.reconnects (r.phase == .fault) (now s)) (changePhase k .reconnecting s) = w at hmarked hrec ht
  rw [ht, strRec_refreshStringConds, refreshStringConds_matching, postClaim_matching, beside_now hmarked.rest]
  exact ⟨⟨_, hrec, rfl, rfl, rfl⟩, rfl⟩

/-! ## The outcomes of the two commands -/

theorem stringIsolate_outcome {u : State} (hs : Shape u) (k : Nat) :
    let t := stringIsolate k u
    (strRec u k = none → t.2 = (.refusedRange, 1)) ∧
      (∀ r, strRec u k = some r → r.phase = .isolated → t.2 = (.refusedState, 1)) ∧
      (∀ r, strRec u k = some r → r.phase = .fault → t.2 = (.refusedState, 2)) ∧
      (∀ r, strRec u k = some r → r.phase = .reconnecting → t.2 = (.done, 0) ∧
        strPhase t.1 k = r.prior ∧ strGet t.1 k .none (·.outcome) = ReconnectOutcome.abandonedCmd) ∧
      (∀ r, strRec u k = some r → r.phase.connected = true → t.2 = (.done, 0) ∧
        strRec t.1 k = some { r with phase := .isolated }.leaveBus ∧ t.1.str.iso = u.str.iso.set k .asserted ∧
        condOf t.1 Pt.stringIsolated = true) := by
  intro t
  refine ⟨fun h => ?_, fun r h hp => ?_, fun r h hp => ?_, fun r h hp => ?_, fun r h hp => ?_⟩
  · exact congrArg Prod.snd (stringIsolate_none h)
  · exact congrArg Prod.snd (stringIsolate_isolated h hp)
  · exact congrArg Prod.snd (stringIsolate_fault h hp)
  · have hrec := strRec_refreshStringConds.trans (strRec_endReconnect (o := .abandonedCmd) h hp)
    unfold t
    rw [stringIsolate_reconnecting h hp, strPhase_of_rec hrec, strGet_of_rec hrec]
    exact ⟨rfl, rfl, rfl⟩
  · unfold t
    rw [stringIsolate_connected h hp]
    obtain ⟨hrec, hiso, hcond⟩ := isolated_outcome hs h hp
    generalize refreshStringConds (setStr k StringRec.leaveBus (changePhase k .isolated u)) = v at hrec hiso hcond
    exact ⟨rfl, hrec, hiso, hcond⟩

theorem reconnecting_none_phase {u : State} (hs : Shape u) (h : strRec u k = some r) (hn : reconnecting u = none) : r.phase ≠ .reconnecting := by
  intro hp
  have hk : strPhase u k = .reconnecting := by rw [strPhase_of_rec h, hp]
  exact List.find?_eq_none.1 hn k (List.mem_range.2 (strRec_lt hs h)) (beq_iff_eq.2 hk)

/-- The command of a string that could reconnect. -/
theorem stringReconnect_last {u : State} (hs : Shape u) (h : strRec u k = some r) (hp : r.phase.open = true) (hn : reconnecting u = none)
    (he : u.bus.eq.running = false) (ht : testRunning u = false) :
    let t := stringReconnect k u
    (chanBad u (2 + k) = true ∨ chanBad u 0 = true → t.2 = (.refusedState, 3)) ∧
      (chanBad u (2 + k) = false → chanBad u 0 = false → meanOf u (2 + k) < r.prof u.settings 14 →
        t.2 = (.refusedState, 2) ∧ condOf t.1 Pt.reconnectFailed = true) ∧
      (chanBad u (2 + k) = false → chanBad u 0 = false → (r.prof u.settings 14 : Int) ≤ meanOf u (2 + k) →
        t.2 = (.started, 0) ∧ strPhase t.1 k = .reconnecting ∧ strGet t.1 k .none (·.stage) = ReconnectStage.matching ∧
        strGet t.1 k false (·.priorFault) = (r.phase == .fault) ∧
        t.1.bus.claims.matching = some ⟨meanOf u (2 + k) + matchWindow u.settings / 2, now u⟩) := by
  intro t
  unfold t
  rw [stringReconnect_free h hp hn he ht]
  refine ⟨fun hbad => ?_, fun h1 h2 hlow => ?_, fun h1 h2 hhigh => ?_⟩
  · rw [if_pos hbad]
  · have hlen : (logReconnect .noString 0 (setStr k (fun r => { r with outcome := .noString }) u)).conds.length = 32 := by
      rw [logReconnect, logEv_conds]
      exact conds_length (s := u) hs
    rw [if_neg (by simp [h1, h2]), if_pos hlow]
    exact ⟨rfl, condOf_setCond (by rw [hlen]; decide)⟩
  · obtain ⟨⟨r', hrec, hphase, hstage, hprior⟩, hmatch⟩ := beginReconnect_outcome h (reconnecting_none_phase hs h hn)
    generalize beginReconnect k u = v at hrec hmatch
    rw [if_neg (by simp [h1, h2]), if_neg (by omega), strPhase_of_rec hrec, strGet_of_rec hrec, strGet_of_rec hrec, hmatch]
    exact ⟨rfl, hphase, hstage, hprior, rfl⟩

/-- Settles O30: the two commands by the phase of the string they name. -/
theorem stringCommands : Obligations.StringCommands := by
  intro slot tag s hs hl
  refine ⟨fun hd => ?isolate, fun hd => ?reconnect⟩
  case isolate =>
    intro u k
    have hsu : Shape u := atPost_shape hs
    have hrule : ruled slot Op.stringIsolate tag s = stringIsolate k u := rfl
    refine ⟨commanded slot Op.stringIsolate tag s, exec_command rfl (by decide) (by decide) hl hd, ?_⟩
    rw [replyOf_commanded hs, strPhase_congr (strRec_congr commanded_str), strGet_congr (strRec_congr commanded_str),
      strRec_congr commanded_str, commanded_str, commanded_condOf, hrule]
    obtain ⟨hnone, hisolated, hfault, hrec, hconn⟩ := stringIsolate_outcome hsu k
    refine ⟨hnone, hisolated, hfault, fun r h hp => ?_, fun r h hp => ?_⟩
    · exact hrec r h hp
    · obtain ⟨hreply, hleft, hiso, hcond⟩ := hconn r h hp
      exact ⟨hreply, hleft, hiso.trans (congrArg (fun x => x.iso.set k .asserted) atPost_str), hcond⟩
  case reconnect =>
    intro u k
    have hsu : Shape u := atPost_shape hs
    have hnow : now u = now s := atPost_now
    have hrule : ruled slot Op.stringReconnect tag s = stringReconnect k u := rfl
    refine ⟨commanded slot Op.stringReconnect tag s, exec_command rfl (by decide) (by decide) hl hd, ?_⟩
    rw [replyOf_commanded hs, strPhase_congr (strRec_congr commanded_str), strGet_congr (strRec_congr commanded_str),
      strGet_congr (strRec_congr commanded_str), commanded_bus, commanded_condOf, hrule]
    refine ⟨fun h => ?_, fun r h hp => ?_, fun r h hp => ⟨fun hb => ?_, fun hb he => ?_, fun hb he ht => ?_, fun hb he ht => ?_⟩⟩
    · exact congrArg Prod.snd (stringReconnect_none h)
    · exact congrArg Prod.snd (stringReconnect_connected h hp)
    · rw [stringReconnect_open h hp, if_pos hb]
    · rw [stringReconnect_open h hp, hb, he]
      rfl
    · rw [stringReconnect_open h hp, hb, he, ht]
      rfl
    · rw [← hnow]
      exact stringReconnect_last hsu h hp hb he ht

end Sys2Proof.Machine
end

section
/-! PROOFS. Which points an operation reaches: a condition reaches its own point and those it holds back, and the claims and the run requests
reach none (R131 to R136). -/

namespace Sys2Proof.Machine

variable {s t u : State} {p q : Nat} {b : Bool}

/-! ## The claims and the run requests -/

theorem ite_alm {c : Prop} [Decidable c] {f : State → State} (hf : (f s).alm = s.alm) : (if c then f s else s).alm = s.alm := by
  split
  · exact hf
  · rfl

theorem logEv_alm {k : LogKind} {x a c : Word} : (logEv k x a c s).alm = s.alm := by
  unfold logEv logAt
  split <;> rfl

theorem withdrawClaim_alm {c : Slot} : (withdrawClaim c s).alm = s.alm := by
  unfold withdrawClaim
  split <;> rfl

theorem cancelEqualize_alm {o : EqualizeOutcome} : (cancelEqualize o s).alm = s.alm := by
  unfold cancelEqualize
  split
  · exact Eq.trans logEv_alm (withdrawClaim_alm (s := s))
  · rfl

theorem abortTest_alm {o : TestOutcome} : (abortTest o s).alm = s.alm := by
  unfold abortTest
  split
  · exact Eq.trans logEv_alm (withdrawClaim_alm (s := s))
  · rfl

theorem genEnter_alm {st : GenState} {x : Word} : (genEnter st x s).alm = s.alm := by
  unfold genEnter
  dsimp only
  split
  · exact withdrawClaim_alm.trans logEv_alm
  · exact logEv_alm

theorem addAttempt_alm {o : AttemptOutcome} {peak : Nat} : (addAttempt o peak s).alm = s.alm := logEv_alm

theorem seriesStart_alm : (seriesStart s).alm = s.alm := by
  unfold seriesStart
  split
  · exact genEnter_alm
  · rfl

theorem abandonSeries_alm {c : Bool} : (abandonSeries c s).alm = s.alm := by
  unfold abandonSeries
  dsimp only
  rw [genEnter_alm]
  split
  · exact addAttempt_alm
  · exact addAttempt_alm
  · rfl

theorem addRequest_alm {k : RequestKind} {load : Bool} {e : Nat} : (addRequest k load e s).alm = s.alm := by
  unfold addRequest
  dsimp only
  split
  · exact genEnter_alm.trans logEv_alm
  · exact seriesStart_alm.trans logEv_alm

theorem refuseRequest_alm {k : RequestKind} {r : Word} : (refuseRequest k r s).alm = s.alm := by
  unfold refuseRequest
  dsimp only
  split
  · exact logEv_alm
  · exact logEv_alm

theorem postRequest_alm {k : RequestKind} {load : Bool} {e : Nat} : (postRequest k load e s).alm = s.alm := by
  unfold postRequest
  split
  · rfl
  · split
    · exact refuseRequest_alm
    · split
      · exact refuseRequest_alm
      · exact addRequest_alm

theorem removeRequest_alm {k : RequestKind} {r : Word} : (removeRequest k r s).alm = s.alm := by
  unfold removeRequest
  split
  · exact (ite_alm (f := abandonSeries false) abandonSeries_alm).trans ((ite_alm (f := dropMainsFail) rfl).trans logEv_alm)
  · rfl

theorem fuelCriticalNotice_alm : (fuelCriticalNotice s).alm = s.alm := by
  unfold fuelCriticalNotice
  rw [removeRequest_alm, removeRequest_alm, removeRequest_alm]

theorem reportActive_alm : (reportActive p s).alm = s.alm := by
  unfold reportActive
  exact (ite_alm (f := abortTest .abortedAlarm) abortTest_alm).trans
    ((ite_alm (f := fuelCriticalNotice) fuelCriticalNotice_alm).trans (ite_alm (f := cancelEqualize .cancelledTemp) cancelEqualize_alm))

/-! ## The points that a change reaches -/

/-- A point of the record that stands outside a list is as it was. -/
def PointsBut (ps : List Nat) (s t : State) : Prop := ∀ q, q ∉ ps → point t q = point s q

theorem PointsBut.refl {ps : List Nat} : PointsBut ps s s := fun _ _ => rfl

theorem PointsBut.trans {ps : List Nat} (h : PointsBut ps s t) (h' : PointsBut ps t u) : PointsBut ps s u :=
  fun q hq => (h' q hq).trans (h q hq)

theorem PointsBut.mono {ps qs : List Nat} (h : PointsBut ps s t) (hsub : ∀ q ∈ ps, q ∈ qs) : PointsBut qs s t :=
  fun q hq => h q fun hm => hq (hsub q hm)

theorem PointsBut.of_alm {ps : List Nat} (h : t.alm = s.alm) : PointsBut ps s t := fun q _ => by rw [point, h, point]

theorem refreshOutputs_points {ps : List Nat} : PointsBut ps s (refreshOutputs s) := by
  intro q _
  unfold refreshOutputs
  split <;> rfl

theorem setPoint_points {f : PointRec → PointRec} : PointsBut [p] s (setPoint p f s) := by
  intro q hq
  have hne : p ≠ q := fun h => hq (by simp [h])
  unfold point setPoint
  dsimp only
  rw [List.getD_eq_getElem?_getD, getElem?_updAt_ne hne, List.getD_eq_getElem?_getD]

theorem movePoint_points {st : PointState} {timer : Option Nat} : PointsBut [p] s (movePoint p st timer s) :=
  setPoint_points.trans refreshOutputs_points

theorem logPoint_points {a c : PointState} {ps : List Nat} : PointsBut ps s (logPoint p a c s) := .of_alm logEv_alm

theorem cancelRaise_points : PointsBut [p] s (cancelRaise p s) := by
  unfold cancelRaise
  split
  · exact movePoint_points.trans logPoint_points
  · exact .refl

theorem foldl_points {ps l : List Nat} {f : State → Nat → State} (hf : ∀ c ∈ l, ∀ w, PointsBut ps w (f w c)) (s : State) :
    PointsBut ps s (l.foldl f s) := by
  induction l generalizing s with
  | nil => exact .refl
  | cons c l ih =>
    exact (hf c List.mem_cons_self s).trans (ih (fun d hd => hf d (List.mem_cons_of_mem c hd)) (f s c))

theorem cancelChildren_points : PointsBut (children p) s (cancelChildren p s) :=
  foldl_points (fun c hc _ => cancelRaise_points.mono fun q hq => by rw [List.mem_singleton.1 hq]; exact hc) s

/-- A point and those it holds back. -/
def family (p : Nat) : List Nat := p :: children p

theorem mem_family_self : ∀ q ∈ [p], q ∈ family p := fun q hq => by rw [List.mem_singleton.1 hq]; exact List.mem_cons_self

theorem fireRaise_points {old : PointState} : PointsBut (family p) s (fireRaise p old s) := by
  unfold fireRaise
  refine PointsBut.trans ?_ (.of_alm reportActive_alm)
  refine PointsBut.trans ?_ (cancelChildren_points.mono fun q hq => List.mem_cons_of_mem p hq)
  refine PointsBut.trans ?_ logPoint_points
  exact (setPoint_points.mono mem_family_self).trans (movePoint_points.mono mem_family_self)

theorem becomeTrue_points : PointsBut (family p) s (becomeTrue p s) := by
  have hmove : ∀ (st : PointState) (timer : Option Nat), PointsBut (family p) s (movePoint p st timer s) :=
    fun _ _ => movePoint_points.mono mem_family_self
  have hraise : PointsBut (family p) s (if heldBack s p then s else
      let d := pointWord s.settings p 2
      if d = 0 then fireRaise p (point s p).state s else movePoint p .raising (some d) s) := by
    split
    · exact .refl
    · dsimp only
      split
      · exact fireRaise_points
      · exact hmove _ _
  unfold becomeTrue
  dsimp only
  split
  · exact .refl
  · split
    · exact hraise
    · exact hraise
    · split
      · exact hmove _ _
      · exact (hmove _ _).trans logPoint_points
    · exact .refl
    · exact .refl
    · exact .refl

/-- A point held back holds none back. -/
theorem children_of_child {c : Nat} (h : c ∈ children p) : children c = [] := by
  unfold children at h
  split at h
  · simp only [List.mem_cons, List.not_mem_nil, or_false] at h
    rcases h with rfl | rfl | rfl <;> decide
  · split at h
    · simp only [List.mem_cons, List.not_mem_nil, or_false] at h
      subst h
      decide
    · split at h
      · simp only [List.mem_cons, List.not_mem_nil, or_false] at h
        subst h
        decide
      · split at h
        · simp only [List.mem_cons, List.not_mem_nil, or_false] at h
          subst h
          decide
        · cases h

theorem judgeChildren_points : PointsBut (children p) s (judgeChildren p s) := by
  refine foldl_points (fun c hc w => ?_) s
  split
  · refine becomeTrue_points.mono fun q hq => ?_
    rw [family, children_of_child hc] at hq
    rw [List.mem_singleton.1 hq]
    exact hc
  · exact .refl

theorem fireClear_points {old : PointState} {acked : Bool} : PointsBut (family p) s (fireClear p old acked s) :=
  (movePoint_points.mono mem_family_self).trans
    (logPoint_points.trans (judgeChildren_points.mono fun _ hq => List.mem_cons_of_mem p hq))

theorem becomeFalse_points : PointsBut (family p) s (becomeFalse p s) := by
  have hclear : ∀ (old : PointState) (acked : Bool), PointsBut (family p) s (if pointWord s.settings p 3 = 0 then fireClear p old acked s
      else s |> setPoint p (fun r => { r with acked := acked }) |> movePoint p .clearing (some (pointWord s.settings p 3))) := by
    intro old acked
    split
    · exact fireClear_points
    · exact (setPoint_points.mono mem_family_self).trans (movePoint_points.mono mem_family_self)
  unfold becomeFalse
  dsimp only
  split
  · exact cancelRaise_points.mono mem_family_self
  · exact hclear _ _
  · exact hclear _ _
  · exact .refl
  · exact .refl
  · exact .refl

theorem setCopy_points : PointsBut (family p) s (setCopy p b s) := by
  unfold setCopy
  split
  · exact .refl
  · dsimp only
    split
    · split
      · exact becomeTrue_points (s := { s with alm := { s.alm with copies := s.alm.copies.set p b } })
      · exact becomeFalse_points (s := { s with alm := { s.alm with copies := s.alm.copies.set p b } })
    · exact fun _ _ => rfl

theorem setCond_points : PointsBut (family p) s (setCond p b s) := setCopy_points (s := { s with conds := s.conds.set p b })

theorem judgeCond_points : PointsBut (family p) s (judgeCond p b s) := by
  unfold judgeCond
  split
  · exact setCond_points
  · exact .refl

/-- The conditions of the strings reach the points of the strings alone. -/
theorem refreshStringConds_points :
    PointsBut [Pt.stringFault, Pt.runawaySuspect, Pt.chargeIncomplete, Pt.stringIsolated] s (refreshStringConds s) := by
  unfold refreshStringConds
  refine (judgeCond_points.mono fun q hq => ?_).trans ((judgeCond_points.mono fun q hq => ?_).trans
    ((judgeCond_points.mono fun q hq => ?_).trans (judgeCond_points.mono fun q hq => ?_)))
  all_goals
    revert q
    decide

theorem pointActive_congr (h : point t q = point s q) : pointActive t q = pointActive s q := by rw [pointActive, h, pointActive]

end Sys2Proof.Machine
end

section
/-! PROOFS. The timers of a string evaluation, one string at a time (01): what each operation makes of a record, and what several make in turn. -/

namespace Sys2Proof.Machine

variable {s t u : State} {j k : Nat} {r : StringRec} {ks : List Nat} {f : Nat → State → State}

/-! ## Operations on several strings in turn -/

/-- An operation on string j leaves the other strings. -/
abbrev PerString (f : Nat → State → State) : Prop := ∀ j t, Alone j t (f j t)

theorem eachString_cons : eachString f (j :: ks) s = eachString f ks (f j s) := rfl

theorem eachString_beside (hf : PerString f) : beside (eachString f ks s) = beside s := by
  induction ks generalizing s with
  | nil => rfl
  | cons j ks ih => exact ih.trans (hf j s).rest

theorem eachString_ne (hf : PerString f) (hk : k ∉ ks) :
    strRec (eachString f ks s) k = strRec s k ∧ (eachString f ks s).str.iso[k]? = s.str.iso[k]? := by
  induction ks generalizing s with
  | nil => exact ⟨rfl, rfl⟩
  | cons j ks ih =>
    obtain ⟨hj, hks⟩ := List.ne_and_not_mem_of_not_mem_cons hk
    obtain ⟨hrec, hiso⟩ := ih (s := f j s) hks
    rw [eachString_cons]
    exact ⟨hrec.trans ((hf j s).others k hj), hiso.trans ((hf j s).isos k hj)⟩

/-- What the operation makes of string k, found as it was and beside the same state. -/
theorem eachString_at (hf : PerString f) (hn : ks.Nodup) (hk : k ∈ ks) : ∃ w, beside w = beside s ∧ strRec w k = strRec s k ∧
    w.str.iso[k]? = s.str.iso[k]? ∧ strRec (eachString f ks s) k = strRec (f k w) k ∧
    (eachString f ks s).str.iso[k]? = (f k w).str.iso[k]? := by
  induction ks generalizing s with
  | nil => cases hk
  | cons j ks ih =>
    obtain ⟨hj, hks⟩ := List.nodup_cons.1 hn
    rw [eachString_cons]
    rcases List.mem_cons.1 hk with rfl | hk
    · obtain ⟨hrec, hiso⟩ := eachString_ne (s := f k s) hf hj
      exact ⟨s, rfl, rfl, rfl, hrec, hiso⟩
    · have hne : k ≠ j := fun h => hj (h ▸ hk)
      obtain ⟨w, hw, hwrec, hwiso, hrec, hiso⟩ := ih (s := f j s) hks hk
      exact ⟨w, hw.trans (hf j s).rest, hwrec.trans ((hf j s).others k hne), hwiso.trans ((hf j s).isos k hne), hrec, hiso⟩

/-- A relation between the record before and after, that holds of the operation on string k. -/
theorem eachString_rec {Q : StringRec → Prop} (hf : PerString f) (hn : ks.Nodup) (hk : k ∈ ks) (h : strRec s k = some r)
    (hQ : ∀ w, beside w = beside s → strRec w k = some r → ∃ r', strRec (f k w) k = some r' ∧ Q r') :
    ∃ r', strRec (eachString f ks s) k = some r' ∧ Q r' := by
  obtain ⟨w, hw, hwrec, -, hrec, -⟩ := eachString_at (s := s) hf hn hk
  rw [hrec]
  exact hQ w hw (hwrec.trans h)

/-! ## Each operation leaves the other strings -/

theorem takeTemp_alone : PerString takeTemp := fun _ _ => setStr_alone

theorem judgePhase_alone : PerString judgePhase := by
  intro j t
  unfold judgePhase
  split
  · exact .refl j t
  · split
    · split
      · exact Alone.ite (setStr_alone.trans changePhase_alone) setStr_alone
      · exact Alone.ite (setStr_alone.trans enterFullPhase_alone) (setStr_alone.trans changePhase_alone)
    · exact .refl j t

theorem countBoost_alone : PerString countBoost := by
  intro j t
  unfold countBoost
  split
  · exact .refl j t
  · exact Alone.ite (Alone.ite (setStr_alone.trans (setStr_alone.trans logEv_alone)) setStr_alone) (.refl j t)

theorem countBaseline_alone : PerString countBaseline := by
  intro j t
  unfold countBaseline
  exact Alone.ite setStr_alone (.refl j t)

theorem countRunaway_alone : PerString countRunaway := fun _ _ => setStr_alone
theorem countTemperature_alone : PerString countTemperature := fun _ _ => setStr_alone

theorem judgeStage2_alone : PerString judgeStage2 := by
  intro j t
  unfold judgeStage2
  split
  · exact .refl j t
  · exact Alone.ite enterStringFault_alone (.refl j t)

theorem countOvertemp_alone : PerString countOvertemp := by
  intro j t
  unfold countOvertemp
  split
  · exact .refl j t
  · exact Alone.ite (Alone.ite enterStringFault_alone setStr_alone) setStr_alone

/-! ## A connected string: its phase and its spans -/

/-- The phase, the settle span, the stage and the two spans that lead to FAULT. -/
def StringRec.core (r : StringRec) := (r.phase, r.settleSpan, r.runaway, r.runawaySpan, r.overtempSpan)

/-- A record with the same phase, spans and stage. -/
def SameCore (r r' : StringRec) : Prop := r'.core = r.core

theorem SameCore.phase {r' : StringRec} (h : SameCore r r') : r'.phase = r.phase := congrArg (·.1) h
theorem SameCore.settleSpan {r' : StringRec} (h : SameCore r r') : r'.settleSpan = r.settleSpan := congrArg (·.2.1) h
theorem SameCore.runaway {r' : StringRec} (h : SameCore r r') : r'.runaway = r.runaway := congrArg (·.2.2.1) h
theorem SameCore.runawaySpan {r' : StringRec} (h : SameCore r r') : r'.runawaySpan = r.runawaySpan := congrArg (·.2.2.2.1) h
theorem SameCore.overtempSpan {r' : StringRec} (h : SameCore r r') : r'.overtempSpan = r.overtempSpan := congrArg (·.2.2.2.2) h

theorem countBoost_core (h : strRec s k = some r) : ∃ r', strRec (countBoost k s) k = some r' ∧ SameCore r r' := by
  unfold countBoost
  rw [h]
  dsimp only
  split
  · split
    · refine ⟨{ r with boostTimer := boostNext s r, incomplete := true }, ?_, rfl⟩
      rw [strRec_logEv, strRec_setStr, strRec_setStr, h]
      rfl
    · exact ⟨{ r with boostTimer := boostNext s r }, strRec_of_setStr h, rfl⟩
  · exact ⟨r, h, rfl⟩

theorem endMinute_core : SameCore r r.endMinute := by
  unfold StringRec.endMinute
  dsimp only
  split <;> exact rfl

theorem countBaseline_core (h : strRec s k = some r) : ∃ r', strRec (countBaseline k s) k = some r' ∧ SameCore r r' := by
  unfold countBaseline
  split
  · refine ⟨_, strRec_of_setStr h, ?_⟩
    dsimp only
    split
    · exact endMinute_core
    · exact rfl
  · exact ⟨r, h, rfl⟩

theorem countTemperature_core (h : strRec s k = some r) : ∃ r', strRec (countTemperature k s) k = some r' ∧ SameCore r r' := by
  refine ⟨_, strRec_of_setStr h, ?_⟩
  split
  · split <;> exact rfl
  · exact rfl

/-- The runaway stages leave the phase and the settle span; stage 0 stands while its span is short of its end. -/
theorem countRunaway_core (h : strRec s k = some r) : ∃ r', strRec (countRunaway k s) k = some r' ∧ r'.phase = r.phase ∧
    r'.settleSpan = r.settleSpan ∧ r'.overtempSpan = r.overtempSpan ∧ (r.runaway = 0 → r.runawaySpan + 1 < 600 → r'.runaway = 0) := by
  refine ⟨_, strRec_of_setStr h, ?_⟩
  split
  · split
    · next h0 =>
      split
      · split
        · exact ⟨rfl, rfl, rfl, fun _ hlt => absurd hlt (by omega)⟩
        · exact ⟨rfl, rfl, rfl, fun h0 _ => h0⟩
      · exact ⟨rfl, rfl, rfl, fun h0 _ => h0⟩
    · next hne =>
      split
      · split
        · split
          · exact ⟨rfl, rfl, rfl, fun h0 _ => absurd h0 hne⟩
          · exact ⟨rfl, rfl, rfl, fun h0 _ => absurd h0 hne⟩
        · exact ⟨rfl, rfl, rfl, fun h0 _ => absurd h0 hne⟩
      · exact ⟨rfl, rfl, rfl, fun h0 _ => h0⟩
  · exact ⟨rfl, rfl, rfl, fun h0 _ => h0⟩

/-- A record left alone but for what does not count, or in FAULT. -/
def KeptOrFault (r r' : StringRec) : Prop := (r'.phase = r.phase ∧ r'.settleSpan = r.settleSpan) ∨ r'.phase = .fault

theorem judgeStage2_core (h : strRec s k = some r) : ∃ r', strRec (judgeStage2 k s) k = some r' ∧
    (r' = r ∨ (r'.phase = .fault ∧ r.runaway ≠ 0)) := by
  unfold judgeStage2
  rw [h]
  dsimp only
  split
  · next hc =>
    obtain ⟨r', hr', hp, -⟩ := enterStringFault_fields (cause := 1) h
    exact ⟨r', hr', .inr ⟨hp, by rw [hc.2.1]; decide⟩⟩
  · exact ⟨r, h, .inl rfl⟩

theorem countOvertemp_core (h : strRec s k = some r) : ∃ r', strRec (countOvertemp k s) k = some r' ∧ KeptOrFault r r' ∧
    (r.overtempSpan + 1 < 60 → r'.phase = r.phase) := by
  unfold countOvertemp
  rw [h]
  dsimp only
  split
  · split
    · obtain ⟨r', hr', hp, -⟩ := enterStringFault_fields (cause := 2) h
      exact ⟨r', hr', .inr hp, fun hlt => absurd hlt (by omega)⟩
    · exact ⟨_, strRec_of_setStr h, .inl ⟨rfl, rfl⟩, fun _ => rfl⟩
  · exact ⟨_, strRec_of_setStr h, .inl ⟨rfl, rfl⟩, fun _ => rfl⟩

/-! ## The phase decision (R6) -/

/-- The phase and the settle span that an evaluation gives a connected string. -/
def judged (s : State) (k : Nat) (r : StringRec) : Phase × Nat :=
  if currentBad s k then (r.phase, 0)
  else
    let span := settleNext s k r
    let p := phaseCase s k r span
    (p, if p = .full ∧ r.phase ≠ .full then 0 else span)

theorem judgePhase_rec (h : strRec s k = some r) (hc : r.phase.connected = true) : ∃ r', strRec (judgePhase k s) k = some r' ∧
    r'.phase = (judged s k r).1 ∧ r'.settleSpan = (judged s k r).2 ∧ r'.runaway = r.runaway ∧ r'.runawaySpan = r.runawaySpan ∧
    r'.overtempSpan = r.overtempSpan := by
  have habs : r.phase ≠ .absent := Phase.ne_of_connected hc rfl
  unfold judgePhase judged
  rw [h]
  dsimp only
  rw [if_pos (.inl hc)]
  by_cases hbad : currentBad s k = true
  · rw [if_pos hbad, if_pos hbad, if_neg habs]
    exact ⟨_, strRec_of_setStr h, rfl, rfl, rfl, rfl, rfl⟩
  · rw [if_neg hbad, if_neg hbad]
    have hset : strRec (setStr k (fun r' => { r' with settleSpan := settleNext s k r }) s) k = some { r with settleSpan := settleNext s k r } :=
      strRec_of_setStr h
    have hcase : phaseCase (setStr k (fun r' => { r' with settleSpan := settleNext s k r }) s) k r (settleNext s k r) =
        phaseCase s k r (settleNext s k r) := rfl
    rw [hcase]
    by_cases hfull : phaseCase s k r (settleNext s k r) = .full ∧ r.phase ≠ .full
    · rw [if_pos hfull, if_pos hfull]
      exact ⟨_, strRec_enterFullPhase hset hc hfull.2, hfull.1.symm, rfl, rfl, rfl, rfl⟩
    · rw [if_neg hfull, if_neg hfull]
      obtain ⟨n, hn⟩ := strRec_changePhase_fields (p := phaseCase s k r (settleNext s k r)) hset
      exact ⟨_, hn, rfl, rfl, rfl, rfl, rfl⟩

theorem phaseCase_connected {n : Nat} : (phaseCase s k r n).connected = true := by
  unfold phaseCase
  split
  · rfl
  · split
    · split <;> rfl
    · split
      · rfl
      · split <;> rfl

theorem judged_connected (hc : r.phase.connected = true) : (judged s k r).1.connected = true := by
  unfold judged
  split
  · exact hc
  · exact phaseCase_connected

/-! ## The timers of a connected string -/

/-- The timers of an evaluation before the reconnecting string is handled. -/
def timers (ks connected : List Nat) (s : State) : State :=
  s |> eachString takeTemp ks |> eachString judgePhase ks |> eachString countBoost ks |> eachString countBaseline ks
    |> eachString countRunaway ks |> eachString countTemperature connected |> eachString judgeStage2 ks |> eachString countOvertemp ks

/-- The strings that an evaluation finds connected. -/
def connectedAt (s : State) : List Nat := (configuredStrings s).filter fun k => (strPhase s k).connected

theorem stringTimers_eq : stringTimers s = handleReconnect (timers (configuredStrings s) (connectedAt s) s) := rfl

theorem configuredStrings_nodup : (configuredStrings s).Nodup := List.nodup_range.filter _

theorem connectedAt_nodup : (connectedAt s).Nodup := configuredStrings_nodup.filter _

theorem mem_configuredStrings (hs : Shape s) (h : strRec s k = some r) : k ∈ configuredStrings s :=
  List.mem_filter.2 ⟨List.mem_range.2 (strRec_lt hs h), by rw [h]; rfl⟩

theorem mem_connectedAt (hs : Shape s) (h : strRec s k = some r) (hc : r.phase.connected = true) : k ∈ connectedAt s :=
  List.mem_filter.2 ⟨mem_configuredStrings hs h, by rw [strPhase_of_rec h, hc]⟩

theorem timers_beside {ks cs : List Nat} : beside (timers ks cs s) = beside s :=
  (eachString_beside countOvertemp_alone).trans ((eachString_beside judgeStage2_alone).trans ((eachString_beside countTemperature_alone).trans
    ((eachString_beside countRunaway_alone).trans ((eachString_beside countBaseline_alone).trans ((eachString_beside countBoost_alone).trans
      ((eachString_beside judgePhase_alone).trans (eachString_beside takeTemp_alone)))))))

/-- The record once its profile and its temperature are taken (R1, R2). -/
def StringRec.profiled (r : StringRec) (s : State) (k : Nat) : StringRec := { r with profile := strProfile s.settings k }

theorem judged_congr (h : beside t = beside s) {r' : StringRec} (hr : r' = { r with
    temp := r'.temp, tempValid := r'.tempValid, tempFromRoom := r'.tempFromRoom, tempChan := r'.tempChan }) : judged t k r' = judged s k r := by
  rw [hr]
  unfold judged settleNext tailHolds phaseCase
  rw [currentBad_congr (beside_scan h), strCurrent_congr (beside_scan h), beside_settings h]
  rfl

/-- What the timers make of a connected string: the phase and the settle span of R6 on its new profile, or FAULT; and FAULT is not reached
while the two spans that lead there do not complete. -/
theorem timers_connected (hs : Shape s) (h : strRec s k = some r) (hc : r.phase.connected = true) :
    ∃ r', strRec (timers (configuredStrings s) (connectedAt s) s) k = some r' ∧
      ((r'.phase = (judged s k (r.profiled s k)).1 ∧ r'.settleSpan = (judged s k (r.profiled s k)).2) ∨ r'.phase = .fault) ∧
      (r.runaway = 0 → r.runawaySpan + 1 < 600 → r.overtempSpan + 1 < 60 → r'.phase ≠ .fault) := by
  have hn := configuredStrings_nodup (s := s)
  have hk := mem_configuredStrings hs h
  have hkc := mem_connectedAt hs h hc
  -- the temperature and the profile
  obtain ⟨r1, h1, hr1⟩ := eachString_rec (Q := fun r' => r' = { r.profiled s k with
      temp := r'.temp, tempValid := r'.tempValid, tempFromRoom := r'.tempFromRoom, tempChan := r'.tempChan }) takeTemp_alone hn hk h
    fun w hw hwr => ⟨_, strRec_of_setStr hwr, by rw [beside_settings hw]; rfl⟩
  have hc1 : r1.phase.connected = true := by rw [hr1]; exact hc
  -- the phase
  obtain ⟨r2, h2, hp2, hs2, ha2, hb2, ho2⟩ := eachString_rec (Q := fun r' => r'.phase = (judged s k (r.profiled s k)).1 ∧
      r'.settleSpan = (judged s k (r.profiled s k)).2 ∧ r'.runaway = r.runaway ∧ r'.runawaySpan = r.runawaySpan ∧
      r'.overtempSpan = r.overtempSpan) judgePhase_alone hn hk h1 fun w hw hwr => by
    obtain ⟨r', hr', hp, hsp, ha, hb, ho⟩ := judgePhase_rec hwr hc1
    rw [judged_congr (hw.trans (eachString_beside takeTemp_alone)) hr1] at hp hsp
    exact ⟨r', hr', hp, hsp, ha.trans (by rw [hr1]; rfl), hb.trans (by rw [hr1]; rfl), ho.trans (by rw [hr1]; rfl)⟩
  -- the boost timer and the baseline minute
  obtain ⟨r3, h3, hr3⟩ := eachString_rec countBoost_alone hn hk h2 fun w _ hwr => countBoost_core hwr
  obtain ⟨r4, h4, hr4⟩ := eachString_rec countBaseline_alone hn hk h3 fun w _ hwr => countBaseline_core hwr
  -- the runaway stages and the temperature minute
  obtain ⟨r5, h5, hp5, hs5, ho5, ha5⟩ := eachString_rec countRunaway_alone hn hk h4 fun w _ hwr => countRunaway_core hwr
  obtain ⟨r6, h6, hr6⟩ := eachString_rec countTemperature_alone connectedAt_nodup hkc h5 fun w _ hwr => countTemperature_core hwr
  -- the two ways to FAULT
  obtain ⟨r7, h7, hr7⟩ := eachString_rec judgeStage2_alone hn hk h6 fun w _ hwr => judgeStage2_core hwr
  obtain ⟨r8, h8, hr8, ho8⟩ := eachString_rec countOvertemp_alone hn hk h7 fun w _ hwr => countOvertemp_core hwr
  have hp6 : r6.phase = (judged s k (r.profiled s k)).1 := by rw [hr6.phase, hp5, hr4.phase, hr3.phase, hp2]
  have hs6 : r6.settleSpan = (judged s k (r.profiled s k)).2 := by rw [hr6.settleSpan, hs5, hr4.settleSpan, hr3.settleSpan, hs2]
  have ho6 : r6.overtempSpan = r.overtempSpan := by rw [hr6.overtempSpan, ho5, hr4.overtempSpan, hr3.overtempSpan, ho2]
  refine ⟨r8, h8, ?_, fun h0 hlt hhot => ?_⟩
  · rcases hr7 with rfl | ⟨hf7, -⟩
    · rcases hr8 with ⟨hp8, hs8⟩ | hf8
      · exact .inl ⟨hp8.trans hp6, hs8.trans hs6⟩
      · exact .inr hf8
    · rcases hr8 with ⟨hp8, -⟩ | hf8
      · exact .inr (hp8.trans hf7)
      · exact .inr hf8
  · have ha6 : r6.runaway = 0 := by
      rw [hr6.runaway]
      exact ha5 (by rw [hr4.runaway, hr3.runaway, ha2, h0]) (by rw [hr4.runawaySpan, hr3.runawaySpan, hb2]; exact hlt)
    rcases hr7 with rfl | ⟨-, hne⟩
    · rw [ho8 (by rw [ho6]; exact hhot), hp6]
      exact Phase.ne_of_connected (judged_connected hc) rfl
    · exact absurd ha6 hne

end Sys2Proof.Machine
end

section
/-! PROOFS. The reconnecting string at an evaluation (R21), and what all strings together ask for (R9, R11, R12, R15). -/

namespace Sys2Proof.Machine

variable {s t u : State} {j k : Nat} {r : StringRec} {ks cs : List Nat} {f : Nat → State → State}

/-! ## The timers of a reconnecting string -/

/-- The phase, the stage, the prior phase and the start of a reconnect. -/
def StringRec.recon (r : StringRec) := (r.phase, r.stage, r.priorFault, r.reconnectStart)

/-- The operation leaves a reconnecting string's reconnect and drive as they are. -/
abbrev KeepsReconnect (f : Nat → State → State) : Prop := ∀ k t r, strRec t k = some r → r.phase = .reconnecting →
  ∃ r', strRec (f k t) k = some r' ∧ r'.recon = r.recon ∧ (f k t).str.iso = t.str.iso

theorem takeTemp_reconnect : KeepsReconnect takeTemp := fun _ _ _ h _ => ⟨_, strRec_of_setStr h, rfl, rfl⟩

theorem judgePhase_reconnect : KeepsReconnect judgePhase := by
  intro k t r h hp
  have hc : ¬ (r.phase.connected = true ∨ r.phase = .absent) := by
    rw [hp]
    decide
  unfold judgePhase
  rw [h]
  dsimp only
  rw [if_neg hc]
  exact ⟨r, h, rfl, rfl⟩

theorem countBoost_reconnect : KeepsReconnect countBoost := by
  intro k t r h hp
  unfold countBoost
  rw [h]
  dsimp only
  rw [hp]
  exact ⟨r, h, rfl, rfl⟩

theorem countBaseline_reconnect : KeepsReconnect countBaseline := by
  intro k t r h hp
  unfold countBaseline
  rw [strPhase_of_rec h, hp]
  exact ⟨r, h, rfl, rfl⟩

theorem countRunaway_reconnect : KeepsReconnect countRunaway := by
  intro k t r h hp
  refine ⟨_, strRec_of_setStr h, ?_, rfl⟩
  rw [hp]
  rfl

theorem countTemperature_reconnect : KeepsReconnect countTemperature := by
  intro k t r h hp
  refine ⟨_, strRec_of_setStr h, ?_, rfl⟩
  rw [hp]
  rfl

theorem judgeStage2_reconnect : KeepsReconnect judgeStage2 := by
  intro k t r h hp
  rw [judgeStage2_waits h fun hc => by
    obtain ⟨hconn, -⟩ := hc
    rw [hp] at hconn
    cases hconn]
  exact ⟨r, h, rfl, rfl⟩

theorem countOvertemp_reconnect : KeepsReconnect countOvertemp := by
  intro k t r h hp
  have hcold : tooHot t r = false := by
    unfold tooHot
    rw [hp]
    rfl
  unfold countOvertemp
  rw [h]
  dsimp only
  rw [hcold, if_neg Bool.false_ne_true]
  exact ⟨_, strRec_of_setStr h, rfl, rfl⟩

theorem eachString_reconnect (hf : PerString f) (hr : KeepsReconnect f) (hn : ks.Nodup) (h : strRec s k = some r) (hp : r.phase = .reconnecting) :
    ∃ r', strRec (eachString f ks s) k = some r' ∧ r'.recon = r.recon ∧ (eachString f ks s).str.iso[k]? = s.str.iso[k]? := by
  by_cases hk : k ∈ ks
  · obtain ⟨w, -, hwrec, hwiso, hrec, hiso⟩ := eachString_at (s := s) hf hn hk
    obtain ⟨r', hr', hrecon, hsame⟩ := hr k w r (hwrec.trans h) hp
    exact ⟨r', hrec.trans hr', hrecon, by rw [hiso, hsame, hwiso]⟩
  · obtain ⟨hrec, hiso⟩ := eachString_ne (s := s) hf hk
    exact ⟨r, hrec.trans h, rfl, hiso⟩

theorem recon_phase {r' : StringRec} (h : r'.recon = r.recon) : r'.phase = r.phase := congrArg (·.1) h

/-- The timers leave a reconnect as it is. -/
theorem timers_reconnect (hks : ks.Nodup) (hcs : cs.Nodup) (h : strRec s k = some r) (hp : r.phase = .reconnecting) :
    ∃ r', strRec (timers ks cs s) k = some r' ∧ r'.recon = r.recon ∧ (timers ks cs s).str.iso[k]? = s.str.iso[k]? := by
  obtain ⟨r1, h1, e1, i1⟩ := eachString_reconnect takeTemp_alone takeTemp_reconnect hks h hp
  obtain ⟨r2, h2, e2, i2⟩ := eachString_reconnect judgePhase_alone judgePhase_reconnect hks h1 ((recon_phase e1).trans hp)
  have e2' := e2.trans e1
  obtain ⟨r3, h3, e3, i3⟩ := eachString_reconnect countBoost_alone countBoost_reconnect hks h2 ((recon_phase e2').trans hp)
  have e3' := e3.trans e2'
  obtain ⟨r4, h4, e4, i4⟩ := eachString_reconnect countBaseline_alone countBaseline_reconnect hks h3 ((recon_phase e3').trans hp)
  have e4' := e4.trans e3'
  obtain ⟨r5, h5, e5, i5⟩ := eachString_reconnect countRunaway_alone countRunaway_reconnect hks h4 ((recon_phase e4').trans hp)
  have e5' := e5.trans e4'
  obtain ⟨r6, h6, e6, i6⟩ := eachString_reconnect countTemperature_alone countTemperature_reconnect hcs h5 ((recon_phase e5').trans hp)
  have e6' := e6.trans e5'
  obtain ⟨r7, h7, e7, i7⟩ := eachString_reconnect judgeStage2_alone judgeStage2_reconnect hks h6 ((recon_phase e6').trans hp)
  have e7' := e7.trans e6'
  obtain ⟨r8, h8, e8, i8⟩ := eachString_reconnect countOvertemp_alone countOvertemp_reconnect hks h7 ((recon_phase e7').trans hp)
  exact ⟨r8, h8, e8.trans e7', i8.trans (i7.trans (i6.trans (i5.trans (i4.trans (i3.trans (i2.trans i1))))))⟩

/-! ## A string that does not reconnect does not begin to -/

/-- The operation makes no string reconnecting. -/
abbrev BeginsNone (f : Nat → State → State) : Prop := ∀ k t, strPhase t k ≠ .reconnecting → strPhase (f k t) k ≠ .reconnecting

theorem strPhase_setStr {g : StringRec → StringRec} (hg : ∀ r, (g r).phase = r.phase) : strPhase (setStr k g s) k = strPhase s k := by
  rw [strPhase, strRec_setStr, strPhase]
  cases strRec s k with
  | none => rfl
  | some r => exact hg r

theorem judgePhase_begins : BeginsNone judgePhase := by
  intro k t hne
  cases h : strRec t k with
  | none =>
    unfold judgePhase
    rw [h]
    exact hne
  | some r =>
    have hphase : ∀ {w : State} {q : Phase} {r' : StringRec}, strRec w k = some r' → q.connected = true →
        strPhase (changePhase k q w) k ≠ .reconnecting := by
      intro w q r' hw hq
      rw [strPhase_changePhase hw]
      exact Phase.ne_of_connected hq rfl
    have hset : ∀ (n : Nat), strRec (setStr k (fun r => { r with settleSpan := n }) t) k = some { r with settleSpan := n } :=
      fun n => strRec_of_setStr h
    unfold judgePhase
    rw [h]
    dsimp only
    split
    · split
      · split
        · exact hphase (hset 0) phaseCase_connected
        · rw [strPhase_setStr (by exact fun _ => rfl)]
          exact hne
      · split
        · next hc =>
          unfold enterFullPhase
          rw [strPhase_congr (strRec_congr checkpoint_str), strPhase_setStr (by exact fun _ => rfl)]
          exact hphase (hset _) rfl
        · exact hphase (hset _) phaseCase_connected
    · exact hne

theorem countBoost_begins : BeginsNone countBoost := by
  intro k t hne
  unfold countBoost
  split
  · exact hne
  · split
    · dsimp only
      split
      · rw [strPhase_congr strRec_logEv, strPhase_setStr (by exact fun _ => rfl), strPhase_setStr (by exact fun _ => rfl)]
        exact hne
      · rw [strPhase_setStr (by exact fun _ => rfl)]
        exact hne
    · exact hne

theorem endMinute_phase : r.endMinute.phase = r.phase := endMinute_core.phase

theorem countBaseline_begins : BeginsNone countBaseline := by
  intro k t hne
  unfold countBaseline
  split
  · rw [strPhase_setStr fun r => by
      dsimp only
      split
      · exact endMinute_phase
      · rfl]
    exact hne
  · exact hne

theorem countRunaway_begins : BeginsNone countRunaway := by
  intro k t hne
  cases h : strRec t k with
  | none =>
    rw [strPhase, countRunaway, strRec_setStr, h]
    exact Phase.noConfusion
  | some r =>
    obtain ⟨r', hr', hp, -⟩ := countRunaway_core h
    rw [strPhase_of_rec hr', hp, ← strPhase_of_rec h]
    exact hne

theorem countTemperature_begins : BeginsNone countTemperature := by
  intro k t hne
  cases h : strRec t k with
  | none =>
    rw [strPhase, countTemperature, strRec_setStr, h]
    exact Phase.noConfusion
  | some r =>
    obtain ⟨r', hr', hp⟩ := countTemperature_core h
    rw [strPhase_of_rec hr', hp.phase, ← strPhase_of_rec h]
    exact hne

theorem judgeStage2_begins : BeginsNone judgeStage2 := by
  intro k t hne
  unfold judgeStage2
  split
  · exact hne
  · next h =>
    split
    · rw [strPhase_enterStringFault h]
      decide
    · exact hne

theorem countOvertemp_begins : BeginsNone countOvertemp := by
  intro k t hne
  unfold countOvertemp
  split
  · exact hne
  · next h =>
    split
    · split
      · rw [strPhase_enterStringFault h]
        decide
      · rw [strPhase_setStr (by exact fun _ => rfl)]
        exact hne
    · rw [strPhase_setStr (by exact fun _ => rfl)]
      exact hne

theorem eachString_begins (hf : PerString f) (hb : BeginsNone f) (hn : ks.Nodup) (h : strPhase s k ≠ .reconnecting) :
    strPhase (eachString f ks s) k ≠ .reconnecting := by
  by_cases hk : k ∈ ks
  · obtain ⟨w, -, hwrec, -, hrec, -⟩ := eachString_at (s := s) hf hn hk
    rw [strPhase_congr hrec]
    exact hb k w (by rw [strPhase_congr hwrec]; exact h)
  · rw [strPhase_congr (eachString_ne (s := s) hf hk).1]
    exact h

theorem timers_begins (hks : ks.Nodup) (hcs : cs.Nodup) (h : strPhase s k ≠ .reconnecting) : strPhase (timers ks cs s) k ≠ .reconnecting := by
  have htemp : BeginsNone takeTemp := fun _ _ hne => by
    rw [takeTemp, strPhase_setStr (by exact fun _ => rfl)]
    exact hne
  unfold timers
  refine eachString_begins countOvertemp_alone countOvertemp_begins hks ?_
  refine eachString_begins judgeStage2_alone judgeStage2_begins hks ?_
  refine eachString_begins countTemperature_alone countTemperature_begins hcs ?_
  refine eachString_begins countRunaway_alone countRunaway_begins hks ?_
  refine eachString_begins countBaseline_alone countBaseline_begins hks ?_
  refine eachString_begins countBoost_alone countBoost_begins hks ?_
  refine eachString_begins judgePhase_alone judgePhase_begins hks ?_
  exact eachString_begins takeTemp_alone htemp hks h

theorem strPhase_reconnecting_rec (h : strPhase s k = .reconnecting) : ∃ r, strRec s k = some r ∧ r.phase = .reconnecting := by
  cases hr : strRec s k with
  | none =>
    rw [strPhase, hr] at h
    cases h
  | some r => exact ⟨r, rfl, (strPhase_of_rec hr).symm.trans h⟩

/-- The reconnecting string is the same after the timers. -/
theorem timers_reconnecting (hks : ks.Nodup) (hcs : cs.Nodup) : reconnecting (timers ks cs s) = reconnecting s := by
  unfold reconnecting
  congr 1
  funext k
  by_cases hp : strPhase s k = .reconnecting
  · obtain ⟨r, hr, hrp⟩ := strPhase_reconnecting_rec hp
    obtain ⟨r', hr', hrecon, -⟩ := timers_reconnect hks hcs hr hrp
    rw [hp, strPhase_of_rec hr', recon_phase hrecon, hrp]
  · rw [beq_false_of_ne hp, beq_false_of_ne (timers_begins hks hcs hp)]

end Sys2Proof.Machine
end

section
/-! PROOFS. What all strings together ask for at an evaluation (R9, R11, R12, R15, R25). -/

namespace Sys2Proof.Machine

variable {s t u w : State} {j k : Nat} {r : StringRec} {whole : Bool}

/-! ## The parts that the strings' records ask for -/

theorem connectedStrings_congr (h : t.str.recs = s.str.recs) : connectedStrings t = connectedStrings s := by
  unfold connectedStrings
  exact congrArg (List.filterMap · _) (funext fun k => by rw [strRec_recs_congr h])

section Congr

variable (hr : t.str.recs = s.str.recs) (hs : t.settings = s.settings)
include hr hs

theorem boostWanted_congr : boostWanted t = boostWanted s := by
  unfold boostWanted
  rw [connectedStrings_congr hr, hs]

theorem lowestLevel_congr {x : Nat} : lowestLevel t x = lowestLevel s x := by
  unfold lowestLevel
  rw [connectedStrings_congr hr, hs]

omit hs in
theorem warmestString_congr : warmestString t = warmestString s := by
  unfold warmestString
  rw [connectedStrings_congr hr]

theorem handedNow_congr : handedNow t = handedNow s := by
  unfold handedNow
  rw [lowestLevel_congr hr hs, lowestLevel_congr hr hs, lowestSoc, lowestSoc, warmestString_congr hr, connectedStrings_congr hr, hs]

theorem thermalAsks_congr (hp : pointActive t Pt.battOvertemp = pointActive s Pt.battOvertemp) : thermalAsks t = thermalAsks s := by
  unfold thermalAsks
  rw [hr, hs, hp, warmestString_congr hr]

end Congr

/-! ## What the later steps leave -/

/-- What the claim of the strings and the values handed on are made of. -/
def asked (s : State) := (s.str.recs, s.str.iso, s.str.boost, s.str.handed,
  (s.bus.claims.strings, s.bus.claims.matching, s.bus.claims.thermal), s.settings, s.clk, s.ros)

theorem asked_recs (h : asked t = asked s) : t.str.recs = s.str.recs := congrArg (·.1) h
theorem asked_iso (h : asked t = asked s) : t.str.iso = s.str.iso := congrArg (·.2.1) h
theorem asked_boost (h : asked t = asked s) : t.str.boost = s.str.boost := congrArg (·.2.2.1) h
theorem asked_handed (h : asked t = asked s) : t.str.handed = s.str.handed := congrArg (·.2.2.2.1) h
theorem asked_strings (h : asked t = asked s) : t.bus.claims.strings = s.bus.claims.strings := congrArg (·.2.2.2.2.1.1) h
theorem asked_matching (h : asked t = asked s) : t.bus.claims.matching = s.bus.claims.matching := congrArg (·.2.2.2.2.1.2.1) h
theorem asked_thermal (h : asked t = asked s) : t.bus.claims.thermal = s.bus.claims.thermal := congrArg (·.2.2.2.2.1.2.2) h
theorem asked_settings (h : asked t = asked s) : t.settings = s.settings := congrArg (·.2.2.2.2.2.1) h
theorem asked_clk (h : asked t = asked s) : t.clk = s.clk := congrArg (·.2.2.2.2.2.2.1) h
theorem asked_ros (h : asked t = asked s) : t.ros = s.ros := congrArg (·.2.2.2.2.2.2.2) h

theorem asked_of_aside (h : aside whole t = aside whole s) : asked t = asked s := by
  unfold asked
  rw [aside_str h, aside_claimStrings h, aside_claimMatching h, aside_claimThermal h, aside_settings h, aside_clk h, aside_ros h]

theorem checkDepth_asked : asked (checkDepth s) = asked s ∧ (checkDepth s).alm = s.alm ∧ (checkDepth s).conds = s.conds := by
  have hpost : ∀ u : State, asked (postDepth u) = asked u ∧ (postDepth u).alm = u.alm ∧ (postDepth u).conds = u.conds := fun u =>
    ⟨asked_of_aside (s := { u with str := { u.str with depthHeld := true } }) postRequest_aside, postRequest_alm,
      aside_conds (s := { u with str := { u.str with depthHeld := true } }) postRequest_aside⟩
  have hwithdraw : ∀ u : State, asked (withdrawDepth u) = asked u ∧ (withdrawDepth u).alm = u.alm ∧ (withdrawDepth u).conds = u.conds :=
    fun u => ⟨asked_of_aside (s := { u with str := { u.str with depthHeld := false, busSpan := 0 } }) removeRequest_aside, removeRequest_alm,
      aside_conds (s := { u with str := { u.str with depthHeld := false, busSpan := 0 } }) removeRequest_aside⟩
  have hclear : asked (clearSpent s) = asked s ∧ (clearSpent s).alm = s.alm ∧ (clearSpent s).conds = s.conds := by
    unfold clearSpent
    split <;> exact ⟨rfl, rfl, rfl⟩
  obtain ⟨ha, hb, hc⟩ := hclear
  unfold checkDepth
  dsimp only
  generalize clearSpent s = u at ha hb hc
  rw [← ha, ← hb, ← hc]
  split
  · split
    · exact hwithdraw u
    · exact ⟨rfl, rfl, rfl⟩
  · split
    · exact hpost u
    · exact ⟨rfl, rfl, rfl⟩

theorem refreshStringConds_asked : asked (refreshStringConds s) = asked s := by
  have hj : ∀ (p : Nat) (b : Bool) (u : State), asked (judgeCond p b u) = asked u := by
    intro p b u
    unfold judgeCond
    split
    · exact asked_of_aside (s := withCond p b u) setCond_rest
    · rfl
  unfold refreshStringConds
  rw [hj, hj, hj, hj]

/-! ## The requests (R9) -/

/-- A record with another charge request. -/
def Requested (r r' : StringRec) : Prop := r' = { r with chargeRequest := r'.chargeRequest }

theorem requests_rec {l : List Nat} (h : strRec s k = some r) :
    ∃ r', strRec (l.foldl (fun t k => setStr k (fun r => { r with chargeRequest := requestOf t k r }) t) s) k = some r' ∧ Requested r r' := by
  induction l generalizing s r with
  | nil => exact ⟨r, h, rfl⟩
  | cons j l ih =>
    rw [List.foldl_cons]
    by_cases hj : j = k
    · subst hj
      obtain ⟨r', hr', hreq⟩ := ih (strRec_of_setStr (f := fun r => { r with chargeRequest := requestOf s j r }) h)
      exact ⟨r', hr', hreq⟩
    · exact ih ((strRec_setStr_ne hj).trans h)

theorem requests_eq {l : List Nat} : ∃ recs, l.foldl (fun t k => setStr k (fun r => { r with chargeRequest := requestOf t k r }) t) s =
    { s with str := { s.str with recs := recs } } := by
  induction l generalizing s with
  | nil => exact ⟨_, rfl⟩
  | cons j l ih =>
    rw [List.foldl_cons]
    obtain ⟨recs, h⟩ := ih (s := setStr j (fun r => { r with chargeRequest := requestOf s j r }) s)
    exact ⟨recs, h⟩

/-- The requests are worked out and their sum is handed over: nothing else changes. -/
theorem handRequests_eq : ∃ recs, handRequests s = { s with
    str := { s.str with recs := recs },
    ros := { s.ros with requestTotal := (recs.map fun r : Option StringRec => (r.map (·.chargeRequest)).getD 0).sum } } := by
  obtain ⟨recs, h⟩ := requests_eq (s := s) (l := List.range 4)
  refine ⟨recs, ?_⟩
  unfold handRequests
  rw [h]

theorem strRec_handRequests (h : strRec s k = some r) : ∃ r', strRec (handRequests s) k = some r' ∧ Requested r r' :=
  requests_rec h

/-! ## The claim of the strings (R11) -/

/-- BOOST mode asked for. -/
def boostAsked (s : State) : Bool := !(connectedStrings s).isEmpty && boostWanted s

/-- The level asked for in a mode. -/
def levelAsked (s : State) : Int := (lowestLevel s (if boostAsked s then 1 else 0)).getD (noBattery s.settings)

theorem claimStrings_eq {force : Bool} : claimStrings force s =
    if force || s.str.boost != boostAsked s || !claimIs .strings (levelAsked s) s then
      postClaim .strings (levelAsked s) { s with str := { s.str with boost := boostAsked s } }
    else s := rfl

theorem claimStrings_spec {force : Bool} : ∃ b, claimStrings force s = { s with str := { s.str with boost := boostAsked s }, bus := b } ∧
    b.claims.strings.map (·.level) = some (levelAsked s) ∧ b.claims.thermal = s.bus.claims.thermal ∧
    b.claims.matching = s.bus.claims.matching := by
  rw [claimStrings_eq]
  by_cases hc : (force || s.str.boost != boostAsked s || !claimIs .strings (levelAsked s) s) = true
  · rw [if_pos hc]
    exact ⟨_, rfl, rfl, rfl, rfl⟩
  · rw [if_neg hc]
    rw [Bool.or_eq_true, Bool.or_eq_true, not_or, not_or] at hc
    obtain ⟨⟨-, hboost⟩, hlevel⟩ := hc
    have hb : s.str.boost = boostAsked s := by simpa using hboost
    have hl : claimIs .strings (levelAsked s) s = true := by simpa using hlevel
    refine ⟨s.bus, ?_, beq_iff_eq.1 hl, rfl, rfl⟩
    rw [← hb]

/-! ## The values handed on (R12) and THERMAL (R15) -/

/-- The slots of the claim table that the strings post to. -/
def Claims.ofStrings (c : Claims) := (c.strings, c.matching, c.thermal)

theorem abortTest_eq {o : TestOutcome} : ∃ b lg, abortTest o s = { s with bus := b, log := lg } ∧
    b.claims.ofStrings = s.bus.claims.ofStrings := by
  unfold abortTest endTest withdrawClaim logEv logAt
  dsimp only
  repeat' split
  all_goals exact ⟨_, _, rfl, rfl⟩

theorem handOn_spec : ∃ b lg, handOn s = { s with str := { s.str with handed := handedNow s }, bus := b, log := lg } ∧
    b.claims.ofStrings = s.bus.claims.ofStrings := by
  unfold handOn
  dsimp only
  split
  · obtain ⟨b, lg, h, hb⟩ := abortTest_eq (s := { s with str := { s.str with handed := handedNow s } }) (o := .abortedDepth)
    exact ⟨b, lg, h, hb⟩
  · exact ⟨_, _, rfl, rfl⟩

theorem lowest_eq_min? {l : List Int} : lowest l = l.min? := by cases l <;> rfl

/-- The lowest of some levels is a least member. -/
theorem lowest_eq {l : List Int} {x : Int} (hx : x ∈ l) (hmin : ∀ y ∈ l, x ≤ y) : lowest l = some x :=
  lowest_eq_min?.trans (List.min?_eq_some_iff.2 ⟨hx, hmin⟩)

theorem claimThermal_eq : claimThermal s = wishClaim .thermal (lowest (thermalAsks s)) s := by
  refine congrArg (fun l => wishClaim .thermal (lowest l) s) (congr (congrArg (fun a b : List Int => a ++ b) ?stage1) ?hot)
  case stage1 => exact congrArg (List.filterMap · _) (funext fun o => by cases o <;> rfl)
  case hot => split <;> rfl

/-- THERMAL after the claim is checked. -/
theorem claimThermal_thermal : (thermalAsks s = [] → (claimThermal s).bus.claims.thermal = none) ∧
    (∀ l ∈ thermalAsks s, (∀ x ∈ thermalAsks s, l ≤ x) → (claimThermal s).bus.claims.thermal = wished (now s) l s.bus.claims.thermal) := by
  rw [claimThermal_eq]
  refine ⟨fun h => ?_, fun l hl hmin => ?_⟩
  · rw [h]
    exact withdrawClaim_get (k := .thermal)
  · rw [lowest_eq hl hmin]
    exact postIfNew_get (k := .thermal)

theorem withdrawClaim_eq {c : Slot} : ∃ b, withdrawClaim c s = { s with bus := b } ∧ ∀ d, d ≠ c → b.claims.get d = s.bus.claims.get d := by
  unfold withdrawClaim
  split
  · exact ⟨_, rfl, fun d hd => Claims.get_put_ne hd⟩
  · exact ⟨_, rfl, fun d _ => rfl⟩

theorem wishClaim_eq {c : Slot} {l : Option Int} : ∃ b, wishClaim c l s = { s with bus := b } ∧
    ∀ d, d ≠ c → b.claims.get d = s.bus.claims.get d := by
  unfold wishClaim postIfNew
  split
  · split
    · exact ⟨_, rfl, fun d _ => rfl⟩
    · exact ⟨_, rfl, fun d hd => Claims.get_put_ne hd⟩
  · exact withdrawClaim_eq

theorem claimThermal_rest : ∃ b, claimThermal s = { s with bus := b } ∧ b.claims.strings = s.bus.claims.strings ∧
    b.claims.matching = s.bus.claims.matching := by
  obtain ⟨b, hb, hother⟩ := wishClaim_eq (c := .thermal) (l := lowest (thermalAsks s)) (s := s)
  rw [claimThermal_eq]
  exact ⟨b, hb, hother .strings (by decide), hother .matching (by decide)⟩

end Sys2Proof.Machine
end

section
/-! PROOFS. STRING_SUPERVISOR_EVALUATION (O24), from the timers of the strings and the totals. -/

namespace Sys2Proof.Machine

variable {s t u v w : State} {j k : Nat} {r : StringRec}

/-! ## The totals (R9, R11, R12, R15, R25) -/

/-- The state that the totals leave of one whose requests are worked out. -/
theorem stringTotals_eq {force : Bool} : ∃ recs b lg n, stringTotals force v = { v with
      str := { v.str with recs := recs, boost := boostAsked (handRequests v), handed := handedNow (handRequests v), busSpan := n },
      ros := { v.ros with requestTotal := (recs.map fun r : Option StringRec => (r.map (·.chargeRequest)).getD 0).sum }, bus := b, log := lg } ∧
    recs = (handRequests v).str.recs ∧ b.claims.strings.map (·.level) = some (levelAsked (handRequests v)) ∧
    b.claims.matching = v.bus.claims.matching ∧ (thermalAsks (handRequests v) = [] → b.claims.thermal = none) ∧
    (∀ l ∈ thermalAsks (handRequests v), (∀ x ∈ thermalAsks (handRequests v), l ≤ x) →
      b.claims.thermal = wished (now v) l v.bus.claims.thermal) := by
  obtain ⟨recs, h1⟩ := handRequests_eq (s := v)
  obtain ⟨b2, h2, hstrings2, hthermal2, hmatch2⟩ := claimStrings_spec (s := handRequests v) (force := force)
  obtain ⟨b3, lg, h3, hslots3⟩ := handOn_spec (s := claimStrings force (handRequests v))
  obtain ⟨b4, h4, hstrings4, hmatch4⟩ := claimThermal_rest (s := handOn (claimStrings force (handRequests v)))
  obtain ⟨hnone4, hleast4⟩ := claimThermal_thermal (s := handOn (claimStrings force (handRequests v)))
  unfold Claims.ofStrings at hslots3
  simp only [Prod.mk.injEq] at hslots3
  obtain ⟨hstrings3, hmatch3, hthermal3⟩ := hslots3
  refine ⟨recs, b4, lg, (countBusSpan (claimThermal (handOn (claimStrings force (handRequests v))))).str.busSpan, ?_⟩
  unfold stringTotals
  dsimp only
  generalize handRequests v = x1 at *
  generalize claimStrings force x1 = x2 at *
  generalize handOn x2 = x3 at *
  rw [h4] at hnone4 hleast4 ⊢
  subst h3 h2 h1
  refine ⟨rfl, rfl, ?_, ?_, hnone4, fun l hl hmin => ?_⟩
  · rw [hstrings4]
    exact (congrArg (Option.map Claim.level) hstrings3).trans hstrings2
  · rw [hmatch4]
    exact hmatch3.trans hmatch2
  · rw [hleast4 l hl hmin]
    exact congrArg (wished (now v) l) (hthermal3.trans hthermal2)

/-! ## The reconnect at an evaluation -/

theorem postIfNew_thermal {l : Int} : (postIfNew .matching l s).bus.claims.thermal = s.bus.claims.thermal := by
  obtain ⟨b, hb, hother⟩ := wishClaim_eq (c := .matching) (l := some l) (s := s)
  have h : postIfNew .matching l s = { s with bus := b } := hb
  rw [h]
  exact hother .thermal (by decide)

theorem matchPosted_thermal : (matchPosted k s).bus.claims.thermal = s.bus.claims.thermal := by
  unfold matchPosted
  split
  · rfl
  · exact postIfNew_thermal

theorem endReconnect_thermal {o : ReconnectOutcome} : (endReconnect k o s).bus.claims.thermal = s.bus.claims.thermal := by
  unfold endReconnect logReconnect
  rw [logEv_bus]
  generalize hw : setStr k _ _ = w
  obtain ⟨b, hb, hother⟩ := withdrawClaim_eq (c := .matching) (s := w)
  rw [hb, ← hw]
  rw [← hw] at hother
  exact (hother .thermal (by decide)).trans (congrArg (·.claims.thermal) (beside_bus changePhase_alone.rest))

theorem handleReconnect_thermal : (handleReconnect s).bus.claims.thermal = s.bus.claims.thermal := by
  unfold handleReconnect
  split
  · next k _ =>
    by_cases hm : strGet s k ReconnectStage.none (·.stage) = .matching
    · have h : handleMatching k s = if matchHolds (matchPosted k s) k then closeString k (matchPosted k s)
          else if reconnectOverdue (matchPosted k s) k then setCond Pt.reconnectFailed true (endReconnect k .timeout (matchPosted k s))
          else matchPosted k s := if_pos hm
      rw [h]
      split
      · exact matchPosted_thermal
      · split
        · exact (aside_claimThermal setCond_rest).trans (endReconnect_thermal.trans matchPosted_thermal)
        · exact matchPosted_thermal
    · have h : handleMatching k s = s := if_neg hm
      rw [h]
  · rfl

theorem closeString_alone : Alone k s (closeString k s) :=
  ⟨rfl, fun _ hj => strRec_setStr_ne (Ne.symm hj), fun _ hj => List.getElem?_set_ne (Ne.symm hj)⟩

/-- A string that does not reconnect stays as it is. -/
theorem strRec_handleReconnect (h : strPhase s k ≠ .reconnecting) : strRec (handleReconnect s) k = strRec s k := by
  unfold handleReconnect
  split
  · next j hj =>
    have hne : k ≠ j := fun hk => h (hk ▸ (reconnecting_phase hj).1)
    have hposted : ∀ i, strRec (matchPosted j s) i = strRec s i := fun i => strRec_congr matchPosted_fields.1
    by_cases hm : strGet s j ReconnectStage.none (·.stage) = .matching
    · have h : handleMatching j s = if matchHolds (matchPosted j s) j then closeString j (matchPosted j s)
          else if reconnectOverdue (matchPosted j s) j then setCond Pt.reconnectFailed true (endReconnect j .timeout (matchPosted j s))
          else matchPosted j s := if_pos hm
      rw [h]
      split
      · exact (closeString_alone.others k hne).trans (hposted k)
      · split
        · rw [strRec_congr setCond_str, strRec_endReconnect_ne hne, hposted]
        · exact hposted k
    · have h : handleMatching j s = s := if_neg hm
      rw [h]
  · rfl

/-! ## After the whole evaluation -/

/-- The state after the evaluation's timers. -/
def timed (s : State) : State := timers (configuredStrings s) (connectedAt s) s

theorem timed_beside : beside (timed s) = beside s := timers_beside

theorem stringEvaluation_asked (hr : inRun s = true) :
    asked (Machine.stringEvaluation s) = asked (stringTotals false (handleReconnect (timed s))) := by
  have h : Machine.stringEvaluation s = refreshStringConds (checkDepth (stringTotals false (handleReconnect (timed s)))) := if_pos hr
  rw [h, refreshStringConds_asked, checkDepth_asked.1]

theorem stringEvaluation_overtemp (hr : inRun s = true) : pointActive (Machine.stringEvaluation s) Pt.battOvertemp =
    pointActive (stringTotals false (handleReconnect (timed s))) Pt.battOvertemp := by
  have h : Machine.stringEvaluation s = refreshStringConds (checkDepth (stringTotals false (handleReconnect (timed s)))) := if_pos hr
  rw [h, pointActive_congr (refreshStringConds_points Pt.battOvertemp (by decide)), pointActive, point, checkDepth_asked.2.1, pointActive, point]

/-- The requests, the claim and the values handed on, once the conditions are judged (R9, R11, R12, R15). -/
theorem stringEvaluation_totals (hr : inRun s = true) :
    let t := Machine.stringEvaluation s
    t.str.boost = boostAsked t ∧ (t.bus.claims.strings).map (·.level) = some (levelAsked t) ∧ t.str.handed = handedNow t ∧
      t.ros.requestTotal = (t.str.recs.map fun r : Option StringRec => (r.map (·.chargeRequest)).getD 0).sum ∧
      (thermalAsks t = [] → t.bus.claims.thermal = none) ∧
      (∀ l ∈ thermalAsks t, (∀ x ∈ thermalAsks t, l ≤ x) → t.bus.claims.thermal = wished (now s) l s.bus.claims.thermal) := by
  intro t
  have ht := stringEvaluation_asked hr
  have hp := stringEvaluation_overtemp hr
  change asked t = _ at ht
  change pointActive t _ = _ at hp
  have hnow : now (handleReconnect (timed s)) = now s :=
    congrArg (fun o => o.2.1.value) (stringTimers_quiet (Quiet.refl s)).out
  have hthermal : (handleReconnect (timed s)).bus.claims.thermal = s.bus.claims.thermal :=
    handleReconnect_thermal.trans (congrArg (·.claims.thermal) (beside_bus timed_beside))
  clear_value t
  generalize handleReconnect (timed s) = v at ht hp hnow hthermal
  obtain ⟨recs, b, lg, n, hv, hrecs, hstrings, -, hnone, hleast⟩ := stringTotals_eq (force := false) (v := v)
  obtain ⟨recs', hreq⟩ := handRequests_eq (s := v)
  rw [hv] at ht hp
  have hkept := asked_settings ht
  have hset : t.settings = (handRequests v).settings := by rw [hkept, hreq]
  have hrec : t.str.recs = (handRequests v).str.recs := (asked_recs ht).trans hrecs
  have hasks : thermalAsks t = thermalAsks (handRequests v) := thermalAsks_congr hrec hset (by rw [hp, hreq]; rfl)
  have hboost : boostAsked t = boostAsked (handRequests v) := by
    unfold boostAsked
    rw [connectedStrings_congr hrec, boostWanted_congr hrec hset]
  have hlevel : levelAsked t = levelAsked (handRequests v) := by
    unfold levelAsked
    rw [hboost, lowestLevel_congr hrec hset, hset]
  rw [hboost, hlevel, handedNow_congr hrec hset, hasks, asked_boost ht, asked_strings ht, asked_handed ht, asked_thermal ht,
    asked_ros ht, asked_recs ht, ← hnow, ← hthermal]
  exact ⟨rfl, hstrings, rfl, rfl, hnone, hleast⟩

theorem stringEvaluation_recs (hr : inRun s = true) :
    (Machine.stringEvaluation s).str.recs = (handRequests (handleReconnect (timed s))).str.recs := by
  obtain ⟨recs, b, lg, n, hv, hrecs, -⟩ := stringTotals_eq (force := false) (v := handleReconnect (timed s))
  have ht := asked_recs (stringEvaluation_asked hr)
  rw [hv] at ht
  exact ht.trans hrecs

/-- A string's record is that of the timers and the reconnect, with its request. -/
theorem stringEvaluation_rec (hr : inRun s = true) (h : strRec (handleReconnect (timed s)) k = some r) :
    ∃ r', strRec (Machine.stringEvaluation s) k = some r' ∧ Requested r r' := by
  obtain ⟨r', hr', hreq⟩ := strRec_handRequests h
  exact ⟨r', (strRec_recs_congr (stringEvaluation_recs hr)).trans hr', hreq⟩

theorem stringEvaluation_kept (hr : inRun s = true) :
    (Machine.stringEvaluation s).str.iso = (handleReconnect (timed s)).str.iso ∧
    (Machine.stringEvaluation s).bus.claims.matching = (handleReconnect (timed s)).bus.claims.matching ∧
    condOf (Machine.stringEvaluation s) Pt.reconnectFailed = condOf (handleReconnect (timed s)) Pt.reconnectFailed := by
  have h : Machine.stringEvaluation s = refreshStringConds (checkDepth (stringTotals false (handleReconnect (timed s)))) := if_pos hr
  have ht := stringEvaluation_asked hr
  generalize handleReconnect (timed s) = v at h ht
  obtain ⟨recs, b, lg, n, hv, -, -, hmatch, -⟩ := stringTotals_eq (force := false) (v := v)
  have hiso := asked_iso ht
  have hm := asked_matching ht
  rw [hv] at hiso hm
  refine ⟨hiso, hm.trans hmatch, ?_⟩
  rw [h, refreshStringConds_reconnectFailed, condOf, checkDepth_asked.2.2, hv, condOf]

/-! ## A connected string (R6) -/

/-- The tail condition on the profile that the evaluation takes. -/
def tailNow (s : State) (k : Nat) (r : StringRec) : Bool :=
  decide (-20 < strCurrent s k ∧ strCurrent s k ≤ percentC s.settings k (profWord s.settings (strProfile s.settings k) 6)) &&
    (r.deficit == 0 || r.unknownCharge)

/-- The settle span that the tail condition gives. -/
def spanNow (s : State) (k : Nat) (r : StringRec) : Nat :=
  if tailNow s k r then min (r.settleSpan + 1) (profWord s.settings (strProfile s.settings k) 7) else 0

theorem judged_bad (hbad : currentBad s k = true) : judged s k r = (r.phase, 0) := if_pos hbad

theorem judged_full (hbad : currentBad s k = false) (hf : r.phase = .full) :
    (judged s k (r.profiled s k)).1 = phaseCase s k (r.profiled s k) r.settleSpan := by
  have hspan : settleNext s k (r.profiled s k) = r.settleSpan := if_pos hf
  unfold judged
  rw [if_neg (by rw [hbad]; exact Bool.false_ne_true), hspan]

theorem judged_settling (hbad : currentBad s k = false) (hf : r.phase ≠ .full) : judged s k (r.profiled s k) =
    (phaseCase s k (r.profiled s k) (spanNow s k r),
      if phaseCase s k (r.profiled s k) (spanNow s k r) = .full then 0 else spanNow s k r) := by
  have hspan : settleNext s k (r.profiled s k) = spanNow s k r := if_neg hf
  have hand : ∀ p : Phase, (p = .full ∧ (r.profiled s k).phase ≠ .full) = (p = .full) := fun p =>
    propext ⟨And.left, fun h => ⟨h, hf⟩⟩
  unfold judged
  dsimp only
  rw [if_neg (by rw [hbad]; exact Bool.false_ne_true), hspan]
  simp only [hand]

theorem spanNow_discharging (hi : strCurrent s k ≤ -20) : spanNow s k r = 0 := by
  have htail : tailNow s k r = false := by
    unfold tailNow
    rw [decide_eq_false (by omega)]
    rfl
  rw [spanNow, htail, if_neg Bool.false_ne_true]

/-- The cases of R6 in their order, for a string whose current channel has not failed. -/
theorem judged_cases (hbad : currentBad s k = false) :
    let j := judged s k (r.profiled s k)
    (strCurrent s k ≤ -20 → j.1 = .discharging ∧ (r.phase ≠ .full → j.2 = 0)) ∧
    (-20 < strCurrent s k → r.phase = .full → j.1 = if strCapacity s.settings k / 100 < r.deficit then .charging else .full) ∧
    (-20 < strCurrent s k → r.phase ≠ .full →
      (spanNow s k r = profWord s.settings (strProfile s.settings k) 7 → j.1 = .full ∧ j.2 = 0) ∧
      (spanNow s k r ≠ profWord s.settings (strProfile s.settings k) 7 → j.2 = spanNow s k r ∧
        (0 < r.deficit ∨ r.unknownCharge = true → j.1 = .charging) ∧ (r.deficit = 0 → r.unknownCharge = false → j.1 = .topping))) := by
  intro j
  refine ⟨fun hi => ?_, fun hi hf => ?_, fun hi hf => ?_⟩
  · have hphase : ∀ n, phaseCase s k (r.profiled s k) n = .discharging := fun n => if_pos hi
    by_cases hf : r.phase = .full
    · exact ⟨(judged_full hbad hf).trans (hphase _), fun hne => absurd hf hne⟩
    · unfold j
      rw [judged_settling hbad hf, hphase, if_neg (by decide), spanNow_discharging hi]
      exact ⟨rfl, fun _ => rfl⟩
  · exact (judged_full hbad hf).trans ((if_neg (by omega)).trans (if_pos hf))
  · have hphase : phaseCase s k (r.profiled s k) (spanNow s k r) =
        if spanNow s k r = profWord s.settings (strProfile s.settings k) 7 then .full
        else if 0 < r.deficit ∨ r.unknownCharge then .charging else .topping :=
      (if_neg (by omega)).trans (if_neg hf)
    unfold j
    rw [judged_settling hbad hf, hphase]
    refine ⟨fun hsp => ?_, fun hsp => ?_⟩
    · rw [if_pos hsp]
      exact ⟨rfl, rfl⟩
    · rw [if_neg hsp]
      by_cases hch : 0 < r.deficit ∨ r.unknownCharge = true
      · rw [if_pos hch]
        refine ⟨rfl, fun _ => rfl, fun h0 hu => ?_⟩
        rw [h0, hu] at hch
        simp at hch
      · rw [if_neg hch]
        exact ⟨rfl, fun h => absurd h hch, fun _ _ => rfl⟩

/-- A connected string after the evaluation: the phase and the settle span of R6, or FAULT. -/
theorem stringEvaluation_connected (hs : Shape s) (hr : inRun s = true) (h : strRec s k = some r) (hc : r.phase.connected = true) :
    ∃ r', strRec (Machine.stringEvaluation s) k = some r' ∧
      ((r'.phase = (judged s k (r.profiled s k)).1 ∧ r'.settleSpan = (judged s k (r.profiled s k)).2) ∨ r'.phase = .fault) ∧
      (r.runaway = 0 → r.runawaySpan + 1 < 600 → r.overtempSpan + 1 < 60 → r'.phase ≠ .fault) := by
  obtain ⟨r1, h1, hphase, hfault⟩ := timers_connected hs h hc
  have hne : r1.phase ≠ .reconnecting := by
    rcases hphase with ⟨hp, -⟩ | hp
    · rw [hp]
      exact Phase.ne_of_connected (judged_connected hc) rfl
    · rw [hp]
      decide
  have h2 : strRec (handleReconnect (timed s)) k = some r1 :=
    (strRec_handleReconnect (s := timed s) (fun h => hne ((strPhase_of_rec h1).symm.trans h))).trans h1
  obtain ⟨r2, h3, hreq⟩ := stringEvaluation_rec hr h2
  have hp2 : r2.phase = r1.phase := by rw [hreq]
  have hs2 : r2.settleSpan = r1.settleSpan := by rw [hreq]
  rw [← hp2] at hfault
  rw [← hp2, ← hs2] at hphase
  exact ⟨r2, h3, hphase, hfault⟩

end Sys2Proof.Machine
end

section
/-! PROOFS. STRING_SUPERVISOR_EVALUATION (O24) of a string in its MATCHING stage (R21), and of the whole. -/

namespace Sys2Proof.Machine

variable {s t u : State} {j k : Nat} {r : StringRec}

/-! ## A string in its MATCHING stage -/

/-- MATCH follows the string's voltage where that is not failed (R21). -/
def matchClaim (s : State) (k : Nat) : Option Claim :=
  if chanBad s (2 + k) then s.bus.claims.matching else wished (now s) (matchLevel s k) s.bus.claims.matching

theorem matchPosted_claim : (matchPosted k s).bus.claims.matching = matchClaim s k := matchPosted_matching

theorem matchClaim_congr (h : beside t = beside s) : matchClaim t k = matchClaim s k := by
  unfold matchClaim matchLevel
  rw [chanBad_congr (beside_scan h), meanOf_congr (beside_scan h), beside_settings h, beside_bus h, beside_now h]

theorem matchHolds_iff : matchHolds s k = true ↔
    chanBad s (2 + k) = false ∧ chanBad s 0 = false ∧ meanOf s 0 - meanOf s (2 + k) ≤ matchWindow s.settings := by
  unfold matchHolds
  rw [Bool.and_eq_true, Bool.and_eq_true, Bool.not_eq_true', Bool.not_eq_true', decide_eq_true_eq, and_assoc]

theorem reconnectOverdue_of_rec (h : strRec s k = some r) : reconnectOverdue s k = decide (180 ≤ since s r.reconnectStart) := by
  rw [reconnectOverdue, strGet_of_rec h]

theorem iso_length (hs : Shape s) : s.str.iso.length = 4 := by simp_all [Shape, shape]

theorem getD_set_iso {l : List Drive} {d : Drive} (hl : l.length = 4) (hk : k < 4) : (l.set k d).getD k .unpowered = d := by
  rw [List.getD_eq_getElem?_getD, List.getElem?_set_self (by omega)]
  rfl

theorem timed_shape (hs : Shape s) : Shape (timed s) := by
  have h := Quiet.refl s
  have h := eachString_quiet h (ks := configuredStrings s) (f := takeTemp) fun _ _ h => takeTemp_quiet h
  have h := eachString_quiet h (ks := configuredStrings s) (f := judgePhase) fun _ _ h => judgePhase_quiet h
  have h := eachString_quiet h (ks := configuredStrings s) (f := countBoost) fun _ _ h => countBoost_quiet h
  have h := eachString_quiet h (ks := configuredStrings s) (f := countBaseline) fun _ _ h => countBaseline_quiet h
  have h := eachString_quiet h (ks := configuredStrings s) (f := countRunaway) fun _ _ h => countRunaway_quiet h
  have h := eachString_quiet h (ks := connectedAt s) (f := countTemperature) fun _ _ h => countTemperature_quiet h
  have h := eachString_quiet h (ks := configuredStrings s) (f := judgeStage2) fun _ _ h => judgeStage2_quiet h
  have h := eachString_quiet h (ks := configuredStrings s) (f := countOvertemp) fun _ _ h => countOvertemp_quiet h
  exact h.shape.trans hs

section Matching

variable (hs : Shape s) (hk : reconnecting s = some k) (h : strRec s k = some r) (hm : r.stage = .matching)
include hs hk h hm

omit hs in
/-- The reconnecting string after the timers: the record is still that of its reconnect. -/
theorem timed_matching : ∃ r', strRec (timed s) k = some r' ∧ r'.phase = .reconnecting ∧ r'.stage = .matching ∧ r'.prior = r.prior ∧
    r'.reconnectStart = r.reconnectStart ∧ (timed s).str.iso.getD k .unpowered = s.str.iso.getD k .unpowered ∧
    handleReconnect (timed s) = handleMatching k (timed s) := by
  have hp : r.phase = .reconnecting := (strPhase_of_rec h).symm.trans (reconnecting_phase hk).1
  obtain ⟨r', hr', hrecon, hiso⟩ := timers_reconnect (ks := configuredStrings s) (cs := connectedAt s) configuredStrings_nodup
    connectedAt_nodup h hp
  have hstage : r'.stage = r.stage := congrArg (·.2.1) hrecon
  have hprior : r'.priorFault = r.priorFault := congrArg (·.2.2.1) hrecon
  have hrk : reconnecting (timed s) = some k := (timers_reconnecting configuredStrings_nodup connectedAt_nodup).trans hk
  refine ⟨r', hr', (recon_phase hrecon).trans hp, hstage.trans hm, ?_, congrArg (·.2.2.2) hrecon, ?_, ?_⟩
  · rw [StringRec.prior, hprior, StringRec.prior]
  · rw [List.getD_eq_getElem?_getD, List.getD_eq_getElem?_getD]
    exact congrArg (·.getD .unpowered) hiso
  · unfold handleReconnect
    rw [hrk]

/-- A match that holds closes the contactor. -/
theorem handleReconnect_closes (hold : matchHolds s k = true) : ∃ r', strRec (handleReconnect (timed s)) k = some r' ∧
    r'.phase = .reconnecting ∧ r'.stage = .checking ∧ r'.inrushTimer = true ∧
    (handleReconnect (timed s)).str.iso.getD k .unpowered = .released ∧
    (handleReconnect (timed s)).bus.claims.matching = matchClaim s k := by
  obtain ⟨r', hr', hp, hst, -, -, -, heq⟩ := timed_matching hk h hm
  have hclose : handleReconnect (timed s) = closeString k (matchPosted k (timed s)) := by
    rw [heq, handleMatching_eq hr' hst, matchHolds_congr (beside_scan timed_beside) (beside_settings timed_beside), if_pos hold]
  have hstr : (matchPosted k (timed s)).str = (timed s).str := matchPosted_fields.1
  have hrec : strRec (closeString k (matchPosted k (timed s))) k = some { r' with stage := .checking, inrushTimer := true } :=
    strRec_of_setStr (f := fun r => { r with stage := .checking, inrushTimer := true }) ((strRec_congr hstr).trans hr')
  have hiso : (closeString k (matchPosted k (timed s))).str.iso = (matchPosted k (timed s)).str.iso.set k .released := rfl
  have hbus : (closeString k (matchPosted k (timed s))).bus = (matchPosted k (timed s)).bus := rfl
  rw [hclose, hrec, hiso, hbus, hstr, matchPosted_claim, matchClaim_congr timed_beside,
    getD_set_iso (iso_length (timed_shape hs)) (reconnecting_phase hk).2]
  exact ⟨_, rfl, hp, rfl, rfl, rfl, rfl⟩

/-- After 180 s without a match the reconnect ends TIMEOUT. -/
theorem handleReconnect_timeout (hold : matchHolds s k = false) (hover : 180 ≤ since s r.reconnectStart) :
    ∃ r', strRec (handleReconnect (timed s)) k = some r' ∧ r'.phase = r.prior ∧ r'.stage = .none ∧ r'.outcome = .timeout ∧
    (handleReconnect (timed s)).str.iso.getD k .unpowered = .asserted ∧
    (handleReconnect (timed s)).bus.claims.matching = none ∧ condOf (handleReconnect (timed s)) Pt.reconnectFailed = true := by
  obtain ⟨r', hr', hp, hst, hprior, hstart, -, heq⟩ := timed_matching hk h hm
  have hnow : now (timed s) = now s := beside_now timed_beside
  have hover' : reconnectOverdue (timed s) k = true := by
    rw [reconnectOverdue_of_rec hr', since, hnow, hstart]
    exact decide_eq_true hover
  have hold' : matchHolds (timed s) k = false :=
    (matchHolds_congr (beside_scan timed_beside) (beside_settings timed_beside)).trans hold
  obtain ⟨hrec, hmatch, hcond, hiso⟩ := handleMatching_timeout (timed_shape hs) hr' hp hst hold' hover'
  rw [heq, hrec, hmatch, hcond, hiso, getD_set_iso (iso_length (timed_shape hs)) (reconnecting_phase hk).2]
  exact ⟨_, rfl, hprior, rfl, rfl, rfl, rfl, rfl⟩

omit hs in
/-- Before that the string goes on MATCHING. -/
theorem handleReconnect_goes_on (hold : matchHolds s k = false) (hover : since s r.reconnectStart < 180) :
    ∃ r', strRec (handleReconnect (timed s)) k = some r' ∧ r'.phase = .reconnecting ∧ r'.stage = .matching ∧
    (handleReconnect (timed s)).str.iso.getD k .unpowered = s.str.iso.getD k .unpowered ∧
    (handleReconnect (timed s)).bus.claims.matching = matchClaim s k := by
  obtain ⟨r', hr', hp, hst, -, hstart, hiso, heq⟩ := timed_matching hk h hm
  have hnow : now (timed s) = now s := beside_now timed_beside
  have hover' : reconnectOverdue (timed s) k = false := by
    rw [reconnectOverdue_of_rec hr', since, hnow, hstart]
    exact decide_eq_false (Nat.not_le.2 hover)
  have hold' : matchHolds (timed s) k = false :=
    (matchHolds_congr (beside_scan timed_beside) (beside_settings timed_beside)).trans hold
  have hgo : handleReconnect (timed s) = matchPosted k (timed s) := by
    rw [heq, handleMatching_eq hr' hst, hold', hover', if_neg Bool.false_ne_true, if_neg Bool.false_ne_true]
  have hstr : (matchPosted k (timed s)).str = (timed s).str := matchPosted_fields.1
  rw [hgo, strRec_congr hstr, hstr, matchPosted_claim, matchClaim_congr timed_beside]
  exact ⟨r', hr', hp, hst, hiso, rfl⟩

end Matching

/-! ## The whole evaluation -/

theorem exec_stringEvaluation : exec .stringSupervisorEvaluation s = .next (Machine.stringEvaluation s) := rfl

/-- Settles O24: the totals, a connected string's phase, and the reconnecting string's stage, each from the timers that the evaluation runs. -/
theorem Settled.stringEvaluation : Obligations.StringEvaluation := by
  refine ⟨fun s => ⟨fun hr => ⟨_, exec_stringEvaluation, ?totals⟩, fun hr => ?idle⟩,
    fun k r s hs hr h hc => ?connected, fun k r s hs hr hk h hm => ?reconnecting⟩
  case totals =>
    obtain ⟨hboost, hlevel, hhanded, htotal, hnone, hleast⟩ := stringEvaluation_totals hr
    generalize Machine.stringEvaluation s = t at *
    rw [levelAsked, ← hboost] at hlevel
    exact ⟨hboost, hlevel, hhanded, htotal, hnone, hleast⟩
  case idle =>
    have hskip : Machine.stringEvaluation s = s := if_neg (by rw [hr]; exact Bool.false_ne_true)
    exact exec_stringEvaluation.trans (congrArg Host.Outcome.next hskip)
  case connected =>
    intro i p settle tail span
    obtain ⟨r', hr', hphase, hfault⟩ := stringEvaluation_connected hs hr h hc
    refine ⟨_, exec_stringEvaluation, ?_⟩
    rw [strPhase_of_rec hr', strGet_of_rec hr', strGet_of_rec hr']
    refine ⟨hfault, fun hne => ?_⟩
    obtain ⟨hp, hsp⟩ := hphase.resolve_right hne
    rw [hp, hsp]
    refine ⟨fun hbad => ?_, fun hbad => judged_cases hbad⟩
    rw [judged_bad hbad]
    exact ⟨rfl, rfl⟩
  case reconnecting =>
    intro matched claim
    obtain ⟨hiso, hmatch, hcond⟩ := stringEvaluation_kept hr
    have hmatched : matched ↔ matchHolds s k = true := matchHolds_iff.symm
    refine ⟨_, exec_stringEvaluation, fun hold => ?closes, fun hold hover => ?timeout, fun hold hover => ?on⟩
    case closes =>
      obtain ⟨r1, hr1, hp, hst, htimer, hdrive, hclaim⟩ := handleReconnect_closes hs hk h hm (hmatched.1 hold)
      obtain ⟨r2, hr2, hreq⟩ := stringEvaluation_rec hr hr1
      rw [strPhase_of_rec hr2, strGet_of_rec hr2, strGet_of_rec hr2, hiso, hmatch, hreq]
      exact ⟨hp, hst, htimer, hdrive, hclaim⟩
    case timeout =>
      obtain ⟨r1, hr1, hp, hst, hout, hdrive, hclaim, hfailed⟩ :=
        handleReconnect_timeout hs hk h hm (eq_false_of_ne_true (mt hmatched.2 hold)) hover
      obtain ⟨r2, hr2, hreq⟩ := stringEvaluation_rec hr hr1
      rw [strPhase_of_rec hr2, strGet_of_rec hr2, strGet_of_rec hr2, hiso, hmatch, hcond, hreq]
      exact ⟨hp, hst, hout, hdrive, hclaim, hfailed⟩
    case on =>
      obtain ⟨r1, hr1, hp, hst, hdrive, hclaim⟩ :=
        handleReconnect_goes_on hk h hm (eq_false_of_ne_true (mt hmatched.2 hold)) hover
      obtain ⟨r2, hr2, hreq⟩ := stringEvaluation_rec hr hr1
      rw [strPhase_of_rec hr2, strGet_of_rec hr2, hiso, hmatch, hreq]
      exact ⟨hp, hst, hdrive, hclaim⟩

end Sys2Proof.Machine
end

section
/-! PROOFS. The claim table (O31): the deciding level, target and governing slot, and what a post, a withdrawal and a stored setting make of
them. -/

namespace Sys2Proof.Machine

variable {s t u : State} {c : Claims} {ks : List Slot} {k : Slot} {v : Claim} {p : Slot × Claim} {l : List (Slot × Claim)}

/-! ## The deciding claim of a list (R33) -/

/-- The better of two claims is one of them. -/
theorem betterClaim_mem {first : Int → Int → Bool} {x y : Slot × Claim} : betterClaim first x y = x ∨ betterClaim first x y = y := by
  unfold betterClaim
  split
  · exact .inr rfl
  · split
    · exact .inl rfl
    · split
      · exact .inr rfl
      · exact .inl rfl

theorem foldl_betterClaim_mem {first : Int → Int → Bool} : l.foldl (betterClaim first) p ∈ p :: l := by
  induction l generalizing p with
  | nil => exact List.mem_cons_self
  | cons x l ih =>
    rw [List.foldl_cons]
    rcases List.mem_cons.1 (ih (p := betterClaim first p x)) with h | h
    · rw [h]
      rcases betterClaim_mem (first := first) (x := p) (y := x) with hb | hb <;> rw [hb] <;> simp
    · exact List.mem_cons_of_mem _ (List.mem_cons_of_mem _ h)

theorem deciding_mem {first : Int → Int → Bool} (h : deciding first l = some p) : p ∈ l := by
  cases l with
  | nil => cases h
  | cons x l =>
    obtain rfl := Option.some.inj h
    exact foldl_betterClaim_mem

theorem foldl_absorbs {first : Int → Int → Bool} (h : ∀ x ∈ l, betterClaim first p x = p) : l.foldl (betterClaim first) p = p := by
  induction l with
  | nil => rfl
  | cons x l ih =>
    rw [List.foldl_cons, h x List.mem_cons_self]
    exact ih fun y hy => h y (List.mem_cons_of_mem _ hy)

/-- A claim that is better than each one before it and each one after it decides. -/
theorem deciding_of_parts {first : Int → Int → Bool} {pre post : List (Slot × Claim)} (hpre : ∀ x ∈ pre, betterClaim first x p = p)
    (hpost : ∀ x ∈ post, betterClaim first p x = p) : deciding first (pre ++ p :: post) = some p := by
  cases pre with
  | nil => exact congrArg some (foldl_absorbs hpost)
  | cons a pre =>
    have hfold : (pre ++ p :: post).foldl (betterClaim first) a = p := by
      rw [List.foldl_append, List.foldl_cons, hpre _ foldl_betterClaim_mem]
      exact foldl_absorbs hpost
    exact congrArg some hfold

/-! ## The claims held in a class -/

theorem mem_held : p ∈ c.held ks ↔ p.1 ∈ ks ∧ c.get p.1 = some p.2 := by
  unfold Claims.held
  rw [List.mem_filterMap]
  constructor
  · rintro ⟨k, hk, h⟩
    obtain ⟨v, hv, rfl⟩ := Option.map_eq_some_iff.1 h
    exact ⟨hk, hv⟩
  · rintro ⟨hk, hv⟩
    exact ⟨p.1, hk, by rw [hv]; rfl⟩

/-- A strict order of levels. -/
abbrev Strict (better : Int → Int → Prop) : Prop := ∀ a b, better a b → ¬ better b a

/-- The slot that decides a class gives the deciding claim of the list. -/
theorem deciding_of_decides {better : Int → Int → Prop} [DecidableRel better] (hstrict : Strict better) (hks : ks.Nodup)
    (h : c.decides better ks k v) : deciding (fun a b => decide (better a b)) (c.held ks) = some (k, v) := by
  obtain ⟨hk, hv, hbest⟩ := h
  obtain ⟨pre, post, hsplit⟩ := List.append_of_mem hk
  have hundecided : ∀ a, ¬ decide (better a a) = true := fun a ha => hstrict a a (of_decide_eq_true ha) (of_decide_eq_true ha)
  have hparts : c.held ks = c.held pre ++ (k, v) :: c.held post := by
    rw [hsplit, Claims.held, Claims.held, Claims.held, List.filterMap_append, List.filterMap_cons, hv]
    rfl
  rw [hsplit] at hks hbest
  have hkpre : k ∉ pre := fun hm => (List.nodup_append.1 hks).2.2 k hm k List.mem_cons_self rfl
  have hkpost : k ∉ post := (List.nodup_cons.1 (List.nodup_append.1 hks).2.1).1
  have hidx : (pre ++ k :: post).idxOf k = pre.length := by
    rw [List.idxOf_append, if_neg hkpre, List.idxOf_cons_self, Nat.zero_add]
  rw [hparts]
  refine deciding_of_parts (fun x hx => ?before) (fun x hx => ?after)
  case before =>
    obtain ⟨hxk, hxv⟩ := mem_held.1 hx
    have hlt : (pre ++ k :: post).idxOf x.1 < pre.length := by
      rw [List.idxOf_append, if_pos hxk]
      exact List.idxOf_lt_length_of_mem hxk
    unfold betterClaim
    rcases hbest x.1 (List.mem_append_left _ hxk) x.2 hxv with heq | hb | ⟨heq, hlater⟩
    · exact absurd (heq ▸ hxk) hkpre
    · rw [if_pos (decide_eq_true hb)]
    · have htime : v.time < x.2.time := by
        rcases hlater with ht | ⟨-, hi⟩
        · exact ht
        · rw [hidx] at hi
          omega
      dsimp only
      rw [heq, if_neg (hundecided _), if_neg (hundecided _), if_pos htime]
  case after =>
    obtain ⟨hxk, hxv⟩ := mem_held.1 hx
    unfold betterClaim
    rcases hbest x.1 (List.mem_append_right _ (List.mem_cons_of_mem _ hxk)) x.2 hxv with heq | hb | ⟨heq, hlater⟩
    · exact absurd (heq ▸ hxk) hkpost
    · rw [if_neg fun hd => hstrict _ _ hb (of_decide_eq_true hd), if_pos (decide_eq_true hb)]
    · have htime : ¬ x.2.time < v.time := by
        rcases hlater with ht | ⟨ht, -⟩ <;> omega
      dsimp only
      rw [heq, if_neg (hundecided _), if_neg (hundecided _), if_neg htime]

/-- The deciding raising claim is the highest. -/
theorem deciding_highest (h : deciding (fun a b => decide (b < a)) l = some p) : ∀ x ∈ l, x.2.level ≤ p.2.level := by
  have hfold : ∀ (l : List (Slot × Claim)) (a x : Slot × Claim), x ∈ a :: l →
      x.2.level ≤ (l.foldl (betterClaim fun a b => decide (b < a)) a).2.level := by
    intro l
    induction l with
    | nil => simp
    | cons b l ih =>
      intro a x hx
      have hboth : a.2.level ≤ (betterClaim (fun a b => decide (b < a)) a b).2.level ∧
          b.2.level ≤ (betterClaim (fun a b => decide (b < a)) a b).2.level := by
        unfold betterClaim
        simp only [decide_eq_true_eq]
        split
        · omega
        · split
          · omega
          · split <;> omega
      have hmid := ih (betterClaim (fun a b => decide (b < a)) a b) _ List.mem_cons_self
      rw [List.foldl_cons]
      rcases List.mem_cons.1 hx with rfl | hx
      · exact Int.le_trans hboth.1 hmid
      · rcases List.mem_cons.1 hx with rfl | hx
        · exact Int.le_trans hboth.2 hmid
        · exact ih _ x (List.mem_cons_of_mem _ hx)
  cases l with
  | nil => cases h
  | cons a l =>
    obtain rfl := Option.some.inj h
    exact hfold l a

/-! ## The deciding level (R33) -/

/-- The deciding raising claim. -/
abbrev Claims.highest (c : Claims) : Option (Slot × Claim) := deciding (fun a b => decide (b < a)) (c.held raisingSlots)

/-- The deciding ceiling. -/
abbrev Claims.ceiling (c : Claims) : Option (Slot × Claim) := deciding (fun a b => decide (a < b)) (c.held ceilingSlots)

/-- The level and the slot of a deciding claim. -/
abbrev asDeciding (p : Slot × Claim) : Int × Option Slot := (p.2.level, some p.1)

theorem decidingLevel_eq {ss : List Word} {high : Int × Option Slot}
    (hhigh : (c.highest.map asDeciding).getD ((noBattery ss : Int), none) = high) : decidingLevel ss c =
      ((c.ceiling.filter fun p => decide (p.2.level < high.1)).map asDeciding).getD high := by
  have hmatch : decidingLevel ss c = ((c.ceiling.filter fun p =>
      decide (p.2.level < ((c.highest.map asDeciding).getD ((noBattery ss : Int), none)).1)).map asDeciding).getD
        ((c.highest.map asDeciding).getD ((noBattery ss : Int), none)) := by
    unfold decidingLevel Claims.highest Claims.ceiling
    cases deciding (fun a b => decide (b < a)) (c.held raisingSlots) <;>
      cases deciding (fun a b => decide (a < b)) (c.held ceilingSlots) with
    | none => rfl
    | some q =>
      dsimp only [Option.map, Option.getD, Option.filter]
      split <;> rename_i hlt <;> simp [hlt]
  rw [hmatch, hhigh]

/-- No ceiling lies below a level. -/
theorem ceiling_above {n : Int} (h : ∀ j ∈ ceilingSlots, ∀ w, c.get j = some w → n ≤ w.level) :
    (c.ceiling.filter fun p => decide (p.2.level < n)) = none := by
  rw [Option.filter_eq_none_iff]
  intro q hq
  obtain ⟨hk, hv⟩ := mem_held.1 (deciding_mem hq)
  have hle := h q.1 hk q.2 hv
  simp only [decide_eq_true_eq]
  omega

theorem decidingLevel_noBattery {ss : List Word} (h : c.held raisingSlots = [])
    (hc : ∀ j ∈ ceilingSlots, ∀ w, c.get j = some w → (noBattery ss : Int) ≤ w.level) :
    decidingLevel ss c = ((noBattery ss : Int), none) := by
  have hnone : c.highest = none := by rw [Claims.highest, h]; rfl
  rw [decidingLevel_eq (high := ((noBattery ss : Int), none)) (by rw [hnone]; rfl), ceiling_above hc]
  rfl

theorem decidingLevel_raising {ss : List Word} (h : c.decides (· > ·) raisingSlots k v)
    (hc : ∀ j ∈ ceilingSlots, ∀ w, c.get j = some w → v.level ≤ w.level) : decidingLevel ss c = (v.level, some k) := by
  have hsome : c.highest = some (k, v) := deciding_of_decides (better := (· > ·)) (fun _ _ h => Int.lt_asymm h) (by decide) h
  rw [decidingLevel_eq (high := (v.level, some k)) (by rw [hsome]; rfl), ceiling_above hc]
  rfl

theorem decidingLevel_ceiling {ss : List Word} (h : c.decides (· < ·) ceilingSlots k v)
    (hbelow : (c.held raisingSlots = [] ∧ v.level < noBattery ss) ∨ (∃ j ∈ raisingSlots, ∃ w, c.get j = some w ∧ v.level < w.level)) :
    decidingLevel ss c = (v.level, some k) := by
  have hsome : c.ceiling = some (k, v) := deciding_of_decides (better := (· < ·)) (fun _ _ h => Int.lt_asymm h) (by decide) h
  have hhigh : v.level < ((c.highest.map asDeciding).getD ((noBattery ss : Int), none)).1 := by
    rcases hbelow with ⟨hnil, hlt⟩ | ⟨j, hj, w, hw, hlt⟩
    · rw [Claims.highest, hnil]
      exact hlt
    · have hmem : (j, w) ∈ c.held raisingSlots := mem_held.2 ⟨hj, hw⟩
      cases hd : c.highest with
      | none =>
        cases hl : c.held raisingSlots with
        | nil => rw [hl] at hmem; cases hmem
        | cons a l => rw [Claims.highest, hl] at hd; cases hd
      | some q => exact Int.lt_of_lt_of_le hlt (deciding_highest hd _ hmem)
  rw [decidingLevel_eq rfl, hsome, Option.filter_some, if_pos (decide_eq_true hhigh)]
  rfl

/-! ## Target and governing slot (R33, R34) -/

theorem targetOf_governing {ss : List Word} :
    ((targetOf ss c).1 = (decidingLevel ss c).1 → (targetOf ss c).2 = (decidingLevel ss c).2.map .slot) ∧
    ((targetOf ss c).1 ≠ (decidingLevel ss c).1 → (targetOf ss c).2 = some .window) :=
  ⟨fun h => if_pos h, fun h => if_neg h⟩

theorem clampWindow_cases {ss : List Word} {x : Int} (h : busMin ss ≤ busMax ss) :
    (x < busMin ss → clampWindow ss x = busMin ss) ∧ ((busMax ss : Int) < x → clampWindow ss x = busMax ss) ∧
    ((busMin ss : Int) ≤ x → x ≤ busMax ss → clampWindow ss x = x) := by
  unfold clampWindow
  refine ⟨fun hlt => if_pos hlt, fun hlt => ?_, fun hlo hhi => ?_⟩
  · rw [if_neg (by omega), if_pos hlt]
  · rw [if_neg (by omega), if_neg (by omega)]

theorem withdrawClaim_held (h : (s.bus.claims.get k).isSome = true) :
    withdrawClaim k s = retarget { s with bus := { s.bus with claims := s.bus.claims.put k none } } := if_pos h

theorem withdrawClaim_empty (h : s.bus.claims.get k = none) : withdrawClaim k s = s := by
  unfold withdrawClaim
  rw [h, if_neg (by decide)]

theorem reclamp_target (h : s.bus.target.isSome = true) : reclamp s = retarget s := if_pos h

theorem reclamp_none (h : s.bus.target.isSome = false) : reclamp s = s := if_neg (by rw [h]; exact Bool.false_ne_true)

/-- A new window leaves the claims, the setpoint and VREF to the clamp. -/
theorem reclamp_eq : ∃ g h, reclamp s = { s with bus := { s.bus with target := g, governing := h } } ∧
    (s.bus.target.isSome → (g, h) = (some (targetOf s.settings s.bus.claims).1, (targetOf s.settings s.bus.claims).2)) := by
  cases hb : s.bus.target.isSome with
  | true => exact ⟨_, _, reclamp_target hb, fun _ => rfl⟩
  | false => exact ⟨_, _, reclamp_none hb, nofun⟩

/-- The clamp of the setpoint touches the setpoint and VREF alone. -/
theorem clampSetpoint_eq : ∃ x y, clampSetpoint s = { s with bus := { s.bus with setpoint := x, vref := y } } ∧
    (∀ p, s.bus.setpoint = some p →
      (clampWindow s.settings p = p → (x, y) = (some p, s.bus.vref)) ∧
      (clampWindow s.settings p ≠ p → (x, y) = (some (clampWindow s.settings p), some (vrefCode (clampWindow s.settings p))))) := by
  unfold clampSetpoint
  cases hp : s.bus.setpoint with
  | none => exact ⟨s.bus.setpoint, s.bus.vref, rfl, nofun⟩
  | some q =>
    dsimp only
    by_cases hin : clampWindow s.settings q = q
    · rw [if_pos hin]
      refine ⟨s.bus.setpoint, s.bus.vref, rfl, ?_⟩
      rintro p ⟨⟩
      exact ⟨fun _ => by rw [hp], fun hout => absurd hin hout⟩
    · rw [if_neg hin]
      refine ⟨_, _, rfl, ?_⟩
      rintro p ⟨⟩
      exact ⟨fun h => absurd h hin, fun _ => rfl⟩

/-! ## The window and the no-battery level stored -/

theorem settingTaken_noBattery {old : Word} : settingTaken 0x20C old s = reclamp s := by
  rw [settingTaken, if_neg (by omega), if_pos (by omega), plantStored, if_neg (by omega), if_pos rfl]

theorem settingTaken_window {o : Nat} {old : Word} (h : o = 0x214 ∨ o = 0x215) : settingTaken o old s = busWindowStored s := by
  rw [settingTaken, if_neg (by omega), if_pos (by omega), plantStored, if_neg (by omega), if_neg (by omega), if_pos (by omega)]

theorem busWindowStored_spec :
    let target := targetOf u.settings u.bus.claims
    let t := busWindowStored u
    { t with bus := u.bus } = u ∧ t.bus.claims = u.bus.claims ∧
      (u.bus.target.isSome → (t.bus.target, t.bus.governing) = (some target.1, target.2)) ∧
      (∀ p, u.bus.setpoint = some p →
        (clampWindow u.settings p = p → (t.bus.setpoint, t.bus.vref) = (some p, u.bus.vref)) ∧
        (clampWindow u.settings p ≠ p →
          (t.bus.setpoint, t.bus.vref) = (some (clampWindow u.settings p), some (vrefCode (clampWindow u.settings p))))) := by
  intro target t
  obtain ⟨g, w, hg, htarget⟩ := reclamp_eq (s := u)
  obtain ⟨x, y, hx, hset⟩ := clampSetpoint_eq (s := reclamp u)
  have ht : t = clampSetpoint (reclamp u) := rfl
  clear_value t
  rw [hg] at hx hset ht
  rw [hx] at ht
  subst ht
  exact ⟨rfl, rfl, htarget, hset⟩

/-- Settles O31: the table by the slot that decides each class, the operations by their definitions. -/
theorem targetRule : Obligations.TargetRule := by
  refine ⟨fun ss c => ⟨decidingLevel_noBattery, fun k v => decidingLevel_raising, fun k v => decidingLevel_ceiling, rfl, targetOf_governing⟩,
    fun ss v => clampWindow_cases, fun k level s => ⟨Claims.get_put _ _ _, fun j hj => Claims.get_put_ne hj, rfl⟩, fun k s => ?withdraw,
    fun s h => reclamp_target h, fun v s hst => ?noBattery, fun o v s ho hst => ?window⟩
  case withdraw =>
    cases hb : (s.bus.claims.get k).isSome with
    | true =>
      rw [withdrawClaim_held hb]
      exact ⟨Claims.get_put _ _ _, fun j hj => Claims.get_put_ne hj, fun hnone => (by rw [hnone] at hb; cases hb), fun _ => rfl⟩
    | false =>
      have hnone : s.bus.claims.get k = none := by simpa using hb
      rw [withdrawClaim_empty hnone]
      exact ⟨hnone, fun _ _ => rfl, fun _ => rfl, nofun⟩
  case noBattery =>
    obtain ⟨-, hlisten, hguard⟩ := hst
    rw [guardedWrite_stores hlisten (by decide) (by decide) hguard]
    exact congrArg Host.Outcome.next settingTaken_noBattery
  case window =>
    obtain ⟨-, hlisten, hguard⟩ := hst
    have hoff : o.toNat = 0x214 ∨ o.toNat = 0x215 := by rcases ho with rfl | rfl <;> decide
    intro u target
    refine ⟨busWindowStored u, ?_, busWindowStored_spec⟩
    rw [guardedWrite_stores hlisten (by omega) (by omega) hguard]
    exact congrArg Host.Outcome.next (settingTaken_window hoff)

end Sys2Proof.Machine
end

section
/-! PROOFS. What reaches the Bus Regulator: claims withdrawn, the ends of an equalize and of a test, and the reports of points (02, R138). -/

namespace Sys2Proof.Machine

variable {s t u : State} {c d : Slot} {p q : Nat} {b : Bool}

/-! ## The Bus Regulator's record beside its claim table -/

/-- The setpoint, VREF and ILIM, the two operations and the mark of a changed clock. -/
def Bus.beyond (b : Bus) := ((b.setpoint, b.vref, b.ilim), (b.eq, b.test, b.recheck))

/-- The setpoint, VREF and ILIM. -/
def Bus.analog (b : Bus) := (b.setpoint, b.vref, b.ilim)

theorem beyond_analog {x y : Bus} (h : y.beyond = x.beyond) : y.analog = x.analog := congrArg (·.1) h
theorem beyond_eq {x y : Bus} (h : y.beyond = x.beyond) : y.eq = x.eq := congrArg (·.2.1) h
theorem beyond_test {x y : Bus} (h : y.beyond = x.beyond) : y.test = x.test := congrArg (·.2.2.1) h

theorem withdrawClaim_bus : ∃ b, withdrawClaim c s = { s with bus := b } ∧ b.claims.get c = none ∧
    (∀ d, d ≠ c → b.claims.get d = s.bus.claims.get d) ∧ b.beyond = s.bus.beyond := by
  cases h : (s.bus.claims.get c).isSome with
  | true => exact ⟨_, withdrawClaim_held h, Claims.get_put _ _ _, fun d hd => Claims.get_put_ne hd, rfl⟩
  | false =>
    have hnone : s.bus.claims.get c = none := by simpa using h
    exact ⟨s.bus, withdrawClaim_empty hnone, hnone, fun _ _ => rfl, rfl⟩

theorem postIfNew_bus {l : Int} : ∃ b, postIfNew c l s = { s with bus := b } ∧
    (∀ d, d ≠ c → b.claims.get d = s.bus.claims.get d) ∧ b.beyond = s.bus.beyond := by
  unfold postIfNew
  split
  · exact ⟨s.bus, rfl, fun _ _ => rfl, rfl⟩
  · exact ⟨_, rfl, fun d hd => Claims.get_put_ne hd, rfl⟩

theorem endEqualize_spec {o : EqualizeOutcome} : ∃ b lg, endEqualize o s = { s with bus := b, log := lg } ∧ b.claims.get .equalize = none ∧
    (∀ d, d ≠ .equalize → b.claims.get d = s.bus.claims.get d) ∧
    b.eq = { s.bus.eq with running := false, outcome := o, endTime := now s } ∧ b.test = s.bus.test ∧ b.analog = s.bus.analog := by
  obtain ⟨b, hb, hnone, hother, hbeyond⟩ := withdrawClaim_bus (c := .equalize) (s := s)
  have heq := beyond_eq hbeyond
  have htest := beyond_test hbeyond
  have hanalog := beyond_analog hbeyond
  unfold endEqualize
  dsimp only
  rw [hb]
  refine ⟨(closeEqualize o { s with bus := b }).bus, (logEv .equalizeEnd (wordOfBool s.bus.eq.scheduled) (wordOf o.code)
    (wordOf s.bus.eq.elapsed) (closeEqualize o { s with bus := b })).log, ?_, hnone, hother, ?_, htest, hanalog⟩
  · unfold logEv logAt equalizeEndEvent
    dsimp only
    split <;> rfl
  · rw [← heq]
    rfl

theorem endTest_spec {o : TestOutcome} : ∃ b lg, endTest o s = { s with bus := b, log := lg } ∧ b.claims.get .test = none ∧
    (∀ d, d ≠ .test → b.claims.get d = s.bus.claims.get d) ∧
    b.test = { s.bus.test with state := .ended o, endTime := now s } ∧ b.eq = s.bus.eq ∧ b.analog = s.bus.analog := by
  obtain ⟨b, hb, hnone, hother, hbeyond⟩ := withdrawClaim_bus (c := .test) (s := s)
  have heq := beyond_eq hbeyond
  have htest := beyond_test hbeyond
  have hanalog := beyond_analog hbeyond
  unfold endTest
  dsimp only
  rw [hb]
  refine ⟨(closeTest o { s with bus := b }).bus, (logEv .testEnd 0 (wordOf o.code)
    (wordOf s.bus.test.elapsed) (closeTest o { s with bus := b })).log, ?_, hnone, hother, ?_, heq, hanalog⟩
  · unfold logEv logAt testEndEvent
    dsimp only
    split <;> rfl
  · rw [← htest]
    rfl

/-! ## What a point's change can reach -/

/-- A relation that what a point's change does step by step keeps: the alarm record, the log, and the reports of the points that P admits. -/
structure ReportClosed (P : Nat → Prop) (R : State → State → Prop) : Prop where
  refl : ∀ s, R s s
  trans : ∀ {s t u}, R s t → R t u → R s u
  alm : ∀ s (x : Alarm), R s { s with alm := x }
  log : ∀ s (x : Log), R s { s with log := x }
  report : ∀ p s, P p → R s (reportActive p s)

section ReportClosed

variable {P : Nat → Prop} {R : State → State → Prop} (h : ReportClosed P R)
include h

theorem ReportClosed.logEv {k : LogKind} {x a c : Word} : R s (Machine.logEv k x a c s) := by
  unfold Machine.logEv logAt
  split
  · exact h.log s _
  · exact h.log s _

theorem ReportClosed.movePoint {st : PointState} {timer : Option Nat} : R s (Machine.movePoint p st timer s) := by
  unfold Machine.movePoint Machine.refreshOutputs
  split
  · exact h.alm s _
  · exact h.alm s _

theorem ReportClosed.cancelRaise : R s (Machine.cancelRaise p s) := by
  unfold Machine.cancelRaise
  split
  · exact h.trans h.movePoint h.logEv
  · exact h.refl s

theorem ReportClosed.foldl {l : List Nat} {f : State → Nat → State} (hf : ∀ c ∈ l, ∀ w, R w (f w c)) (s : State) : R s (l.foldl f s) := by
  induction l generalizing s with
  | nil => exact h.refl s
  | cons c l ih => exact h.trans (hf c List.mem_cons_self s) (ih (fun d hd => hf d (List.mem_cons_of_mem c hd)) (f s c))

theorem ReportClosed.fireRaise {old : PointState} (hp : P p) : R s (Machine.fireRaise p old s) := by
  unfold Machine.fireRaise
  refine h.trans ?_ (h.report p _ hp)
  refine h.trans ?_ (h.foldl (fun _ _ _ => h.cancelRaise) _)
  refine h.trans ?_ h.logEv
  exact h.trans (h.alm s _) h.movePoint

theorem ReportClosed.becomeTrue (hp : P p) : R s (Machine.becomeTrue p s) := by
  have hraise : R s (if heldBack s p then s else
      let d := pointWord s.settings p 2
      if d = 0 then Machine.fireRaise p (point s p).state s else Machine.movePoint p .raising (some d) s) := by
    split
    · exact h.refl s
    · dsimp only
      split
      · exact h.fireRaise hp
      · exact h.movePoint
  unfold Machine.becomeTrue
  dsimp only
  split
  · exact h.refl s
  · split
    · exact hraise
    · exact hraise
    · split
      · exact h.movePoint
      · exact h.trans h.movePoint h.logEv
    · exact h.refl s
    · exact h.refl s
    · exact h.refl s

theorem ReportClosed.fireClear {old : PointState} {acked : Bool} (hc : ∀ c ∈ children p, P c) : R s (Machine.fireClear p old acked s) := by
  refine h.trans h.movePoint (h.trans h.logEv (h.foldl (fun c hm w => ?_) _))
  split
  · exact h.becomeTrue (hc c hm)
  · exact h.refl w

theorem ReportClosed.becomeFalse (hc : ∀ c ∈ children p, P c) : R s (Machine.becomeFalse p s) := by
  have hclear : ∀ (old : PointState) (acked : Bool), R s (if pointWord s.settings p 3 = 0 then Machine.fireClear p old acked s
      else s |> setPoint p (fun r => { r with acked := acked }) |> Machine.movePoint p .clearing (some (pointWord s.settings p 3))) := by
    intro old acked
    split
    · exact h.fireClear hc
    · exact h.trans (h.alm s _) h.movePoint
  unfold Machine.becomeFalse
  dsimp only
  split
  · exact h.cancelRaise
  · exact hclear _ _
  · exact hclear _ _
  · exact h.refl s
  · exact h.refl s
  · exact h.refl s

/-- A change of a copy, where its point and those that it holds back are admitted. -/
theorem ReportClosed.setCopy (hp : P p) (hc : ∀ c ∈ children p, P c) : R s (Machine.setCopy p b s) := by
  unfold Machine.setCopy
  split
  · exact h.refl s
  · dsimp only
    split
    · split
      · exact h.trans (h.alm s _) (h.becomeTrue hp)
      · exact h.trans (h.alm s _) (h.becomeFalse hc)
    · exact h.alm s _

theorem ReportClosed.setCond (hconds : ∀ s (x : List Bool), R s { s with conds := x }) (hp : P p) (hc : ∀ c ∈ children p, P c) :
    R s (Machine.setCond p b s) := h.trans (hconds s _) (h.setCopy hp hc)

end ReportClosed

/-! ## A test that has ended -/

/-- With no test running the test record and the TEST slot stay. -/
def TestRests (s t : State) : Prop :=
  testRunning s = false → t.bus.test = s.bus.test ∧ t.bus.claims.get .test = s.bus.claims.get .test

theorem TestRests.of_bus (h : t.bus = s.bus) : TestRests s t := fun _ => by rw [h]; exact ⟨rfl, rfl⟩

theorem testRunning_of_test (h : t.bus.test = s.bus.test) : testRunning t = testRunning s := by rw [testRunning, h, testRunning]

theorem TestRests.trans (h : TestRests s t) (h' : TestRests t u) : TestRests s u := fun hr => by
  obtain ⟨h1, h2⟩ := h hr
  obtain ⟨h3, h4⟩ := h' ((testRunning_of_test h1).trans hr)
  exact ⟨h3.trans h1, h4.trans h2⟩

theorem cancelEqualize_testRests {o : EqualizeOutcome} : TestRests s (cancelEqualize o s) := by
  unfold cancelEqualize
  split
  · obtain ⟨b, lg, hb, -, hother, -, htest, -⟩ := endEqualize_spec (s := s) (o := o)
    rw [hb]
    exact fun _ => ⟨htest, hother .test (by decide)⟩
  · exact .of_bus rfl

theorem abortTest_testRests {o : TestOutcome} : TestRests s (abortTest o s) := fun hr => by
  have h : abortTest o s = s := if_neg (by rw [hr]; exact Bool.false_ne_true)
  rw [h]
  exact ⟨rfl, rfl⟩

theorem testRests_closed : ReportClosed (· ≠ Pt.fuelCritical) TestRests where
  refl _ := .of_bus rfl
  trans := TestRests.trans
  alm _ _ := .of_bus rfl
  log _ _ := .of_bus rfl
  report p s hp := by
    unfold reportActive
    dsimp only
    rw [if_neg hp]
    have hcancel : TestRests s (if p = Pt.battOvertemp then cancelEqualize .cancelledTemp s else s) := by
      split
      · exact cancelEqualize_testRests
      · exact .of_bus rfl
    refine hcancel.trans ?_
    generalize (if p = Pt.battOvertemp then cancelEqualize .cancelledTemp s else s) = w
    split
    · exact abortTest_testRests
    · exact .of_bus rfl

theorem genEnter_test {st : GenState} {x : Word} : (genEnter st x s).bus.test = s.bus.test ∧
    (genEnter st x s).bus.claims.get .test = s.bus.claims.get .test := by
  unfold genEnter
  dsimp only
  split
  · generalize hw : logEv _ _ _ _ _ = w
    have hbus : w.bus = s.bus := by rw [← hw, logEv_bus]
    obtain ⟨b, hb, -, hother, hbeyond⟩ := withdrawClaim_bus (c := .generator) (s := w)
    rw [hb, ← hbus]
    exact ⟨beyond_test hbeyond, hother .test (by decide)⟩
  · rw [logEv_bus]
    exact ⟨rfl, rfl⟩

theorem seriesStart_test : (seriesStart s).bus.test = s.bus.test ∧ (seriesStart s).bus.claims.get .test = s.bus.claims.get .test := by
  unfold seriesStart
  split
  · exact genEnter_test
  · exact ⟨rfl, rfl⟩

end Sys2Proof.Machine
end

section
/-! PROOFS. BUS_REGULATOR_EVALUATION (O32), and the schedule and the ends of an equalize and of a test by time (O33). -/

namespace Sys2Proof.Machine

variable {s t u : State} {k n : Nat} {r : StringRec} {α : Type}

/-! ## An equalize at an evaluation (R40, R41) -/

theorem followEqualize_spec : ∃ b, followEqualize s = { s with bus := b } ∧ b.analog = s.bus.analog ∧
    b.eq = { s.bus.eq with level := b.eq.level } := by
  unfold followEqualize
  split
  · next l _ =>
    obtain ⟨b, hb, -, hbeyond⟩ := postIfNew_bus (c := .equalize) (l := l) (s := setEq (fun e => { e with level := l }) s)
    refine ⟨b, hb, (beyond_analog hbeyond).trans rfl, ?_⟩
    rw [beyond_eq hbeyond]
    rfl
  · obtain ⟨b, hb, -, -, hbeyond⟩ := withdrawClaim_bus (c := .equalize) (s := s)
    refine ⟨b, hb, beyond_analog hbeyond, ?_⟩
    rw [beyond_eq hbeyond]

/-- The state in which a running equalize is judged: a second more, and the claim at the level handed on. -/
def equalizeCounted (s : State) : State := s |> setEq (fun e => { e with elapsed := e.elapsed + 1 }) |> followEqualize

theorem equalizeCounted_spec : ∃ b, equalizeCounted s = { s with bus := b } ∧ b.analog = s.bus.analog ∧
    b.eq = { s.bus.eq with elapsed := s.bus.eq.elapsed + 1, level := b.eq.level } := by
  obtain ⟨b, hb, hanalog, heq⟩ := followEqualize_spec (s := setEq (fun e => { e with elapsed := e.elapsed + 1 }) s)
  exact ⟨b, hb, hanalog, heq⟩

/-- The stamp of a completed equalize on one string. -/
abbrev stampEqualize (k : Nat) (t : State) : State := t |> setStr k (fun r => { r with lastEqualize := now t }) |> checkpoint (9 + k)

theorem stampEqualize_alone : PerString stampEqualize := fun _ _ => setStr_alone.trans checkpoint_alone

theorem equalizeCompleted_beside : beside (equalizeCompleted s) = beside s := eachString_beside stampEqualize_alone

theorem mem_connectedIndices : k ∈ (connectedStrings s).map (·.1) ↔ k < 4 ∧ ∃ r, strRec s k = some r ∧ r.phase.connected = true := by
  unfold connectedStrings
  rw [List.mem_map]
  constructor
  · rintro ⟨⟨j, r⟩, hj, rfl⟩
    obtain ⟨i, hi, h⟩ := List.mem_filterMap.1 hj
    cases hr : strRec s i with
    | none => rw [hr] at h; cases h
    | some r' =>
      rw [hr] at h
      dsimp only at h
      split at h
      · next hc =>
        cases h
        exact ⟨List.mem_range.1 hi, _, hr, hc⟩
      · cases h
  · rintro ⟨hk, r, hr, hc⟩
    refine ⟨(k, r), List.mem_filterMap.2 ⟨k, List.mem_range.2 hk, ?_⟩, rfl⟩
    rw [hr]
    exact if_pos hc

theorem connectedIndices_nodup : ((connectedStrings s).map (·.1)).Nodup := by
  have hsub : ∀ l : List Nat, List.Sublist ((l.filterMap fun k => (strRec s k).bind fun r =>
      if r.phase.connected then some (k, r) else none).map (·.1)) l := by
    intro l
    induction l with
    | nil => exact List.Sublist.slnil
    | cons k l ih =>
      rw [List.filterMap_cons]
      split
      · exact ih.cons k
      · next q hq =>
        obtain ⟨r, -, hr⟩ := Option.bind_eq_some_iff.1 hq
        split at hr
        · cases hr
          exact ih.cons_cons k
        · cases hr
  have heq : connectedStrings s = (List.range 4).filterMap fun k => (strRec s k).bind fun r =>
      if r.phase.connected then some (k, r) else none := by
    refine congrArg (List.filterMap · _) (funext fun k => ?_)
    cases strRec s k <;> rfl
  rw [heq]
  exact (hsub (List.range 4)).nodup List.nodup_range

theorem equalizeCompleted_connected (hs : Shape s) (h : strRec s k = some r) (hc : r.phase.connected = true) :
    strRec (equalizeCompleted s) k = some { r with lastEqualize := now s } := by
  obtain ⟨w, hw, hwrec, -, hrec, -⟩ := eachString_at (s := s) stampEqualize_alone connectedIndices_nodup
    (mem_connectedIndices.2 ⟨strRec_lt hs h, r, h, hc⟩)
  have hstamp : strRec (stampEqualize k w) k = some { r with lastEqualize := now w } :=
    (strRec_congr checkpoint_str).trans (strRec_of_setStr (hwrec.trans h))
  unfold equalizeCompleted
  rw [hrec, hstamp, beside_now hw]

theorem equalizeCompleted_open (h : strRec s k = some r) (hc : r.phase.connected = false) : strRec (equalizeCompleted s) k = some r := by
  refine (eachString_ne stampEqualize_alone fun hm => ?_).1.trans h
  obtain ⟨-, r', hr', hc'⟩ := mem_connectedIndices.1 hm
  obtain rfl := Option.some.inj (h.symm.trans hr')
  rw [hc] at hc'
  cases hc'

theorem advanceEqualize_eq (hrun : s.bus.eq.running = true) : advanceEqualize s =
    if (equalizeCounted s).bus.eq.duration ≤ (equalizeCounted s).bus.eq.elapsed then endEqualize .complete (equalizeCompleted (equalizeCounted s))
    else equalizeCounted s := if_pos hrun

theorem advanceEqualize_analog : (advanceEqualize s).bus.analog = s.bus.analog := by
  cases hrun : s.bus.eq.running with
  | false => rw [advanceEqualize, if_neg (by rw [hrun]; exact Bool.false_ne_true)]
  | true =>
    obtain ⟨b, hb, hanalog, -⟩ := equalizeCounted_spec (s := s)
    have hcounted : (equalizeCounted s).bus.analog = s.bus.analog := by rw [hb, ← hanalog]
    rw [advanceEqualize_eq hrun]
    split
    · obtain ⟨b', lg, hb', -, -, -, -, hend⟩ := endEqualize_spec (o := .complete) (s := equalizeCompleted (equalizeCounted s))
      rw [hb', ← hcounted, ← beside_bus (equalizeCompleted_beside (s := equalizeCounted s))]
      exact hend
    · exact hcounted

/-! ## A test at an evaluation (R45, R47) -/

/-- The bus mean lies at or below the end voltage of the test. -/
def testLow (s : State) : Bool := match validMean s 0 with | some v => decide (v ≤ s.bus.test.endVoltage) | none => false

theorem testLow_iff : testLow s = true ↔ ∃ v, validMean s 0 = some v ∧ v ≤ s.bus.test.endVoltage := by
  unfold testLow
  cases validMean s 0 with
  | none => exact ⟨nofun, fun ⟨_, h, _⟩ => nomatch h⟩
  | some v =>
    rw [decide_eq_true_eq]
    exact ⟨fun h => ⟨v, rfl, h⟩, fun ⟨w, hw, h⟩ => Option.some.inj hw ▸ h⟩

theorem testFigures_spec : ∃ x, testFigures s = { s with bus := { s.bus with test := x } } ∧ x.state = s.bus.test.state ∧
    x.elapsed = s.bus.test.elapsed + 1 ∧ x.duration = s.bus.test.duration ∧ x.endVoltage = s.bus.test.endVoltage :=
  ⟨_, rfl, rfl, rfl, rfl, rfl⟩

/-- An end of the test with the condition that it sets or withdraws. -/
def testEnded (o : TestOutcome) (failed : Bool) (s : State) : State := s |> endTest o |> setCond Pt.testFailed failed

theorem advanceTest_eq (hrun : testRunning s = true) : advanceTest s =
    if testLow s then testEnded .failedEarly true (testFigures s)
    else if s.bus.test.duration ≤ s.bus.test.elapsed + 1 then testEnded .passed false (testFigures s)
    else testFigures s := if_pos hrun

section TestEnded

variable {o : TestOutcome} {failed : Bool}

theorem testEnded_spec (hs : Shape s) : (testEnded o failed s).bus.claims.test = none ∧
    (testEnded o failed s).bus.test = { s.bus.test with state := .ended o, endTime := now s } ∧
    condOf (testEnded o failed s) Pt.testFailed = failed := by
  obtain ⟨b, lg, hb, hnone, -, htest, -, -⟩ := endTest_spec (o := o) (s := s)
  have hover : testRunning (endTest o s) = false := by
    rw [hb]
    unfold testRunning
    dsimp only
    rw [htest]
    rfl
  have hrests : TestRests (endTest o s) (testEnded o failed s) := testRests_closed.setCond (fun _ _ => .of_bus rfl) (by decide) (by decide)
  obtain ⟨hkept, hslot⟩ := hrests hover
  have hlen : (endTest o s).conds.length = 32 := by
    rw [hb]
    exact conds_length hs
  rw [hb] at hkept hslot
  exact ⟨hslot.trans hnone, hkept.trans htest, condOf_setCond (by rw [hlen]; decide)⟩

theorem testEnded_analog : (testEnded o failed s).bus.analog = s.bus.analog := by
  have h : aside false (testEnded o failed s) = aside false (withCond Pt.testFailed failed (endTest o s)) := setCond_rest
  obtain ⟨b, lg, hb, -, -, -, -, hanalog⟩ := endTest_spec (o := o) (s := s)
  have hkept : (testEnded o failed s).bus.analog = (endTest o s).bus.analog :=
    congrArg (fun x : _ × _ × _ × Option Int × Option Nat × Option Nat × Bool => (x.2.2.2.1, x.2.2.2.2.1, x.2.2.2.2.2.1)) (aside_bus h)
  rw [hkept, hb]
  exact hanalog

end TestEnded

theorem advanceTest_analog : (advanceTest s).bus.analog = s.bus.analog := by
  cases hrun : testRunning s with
  | false => rw [advanceTest, if_neg (by rw [hrun]; exact Bool.false_ne_true)]
  | true =>
    rw [advanceTest_eq hrun]
    split
    · exact testEnded_analog
    · split
      · exact testEnded_analog
      · rfl

theorem testStep_eq : testStep s = if testRunning s && !testRunning (advanceTest s) then seriesStart (advanceTest s) else advanceTest s := rfl

theorem testStep_analog : (testStep s).bus.analog = s.bus.analog := by
  rw [testStep_eq]
  split
  · have hkept : (seriesStart (advanceTest s)).bus.analog = (advanceTest s).bus.analog :=
      congrArg (fun x : _ × _ × _ × Option Int × Option Nat × Option Nat × Bool => (x.2.2.2.1, x.2.2.2.2.1, x.2.2.2.2.2.1))
        (aside_bus seriesStart_aside)
    exact hkept.trans advanceTest_analog
  · exact advanceTest_analog

/-! ## The schedule (R38) -/

theorem checkSchedule_analog : (checkSchedule s).bus.analog = s.bus.analog := by
  unfold checkSchedule
  split
  · dsimp only
    split
    · split <;> rfl
    · rfl
  · rfl

theorem refreshCheck_eq : ∃ e r, refreshCheck s = { s with bus := { s.bus with eq := e, recheck := r } } := by
  unfold refreshCheck
  split
  · exact ⟨_, _, rfl⟩
  · exact ⟨_, _, rfl⟩

/-! ## Ramp and ILIM (R35, R36) -/

theorem rampStep_cases {rate : Nat} {v g : Int} : ((g - v).natAbs ≤ rate → rampStep rate v g = g) ∧
    (rate < (g - v).natAbs → v < g → rampStep rate v g = v + rate) ∧ (rate < (g - v).natAbs → g < v → rampStep rate v g = v - rate) := by
  unfold rampStep
  refine ⟨fun h => ?_, fun h hlt => ?_, fun h hlt => ?_⟩
  · split
    · rw [if_pos (by omega)]
    · rw [if_pos (by omega)]
  · rw [if_pos hlt, if_neg (by omega)]
  · rw [if_neg (by omega), if_neg (by omega)]

theorem busEvaluation_analog {g v : Int} (hr : inRun s = true) (hg : s.bus.target = some g) (hv : s.bus.setpoint = some v) :
    (Machine.busEvaluation s).bus.analog = (some (rampStep (rampRate s.settings) v g), some (vrefCode (rampStep (rampRate s.settings) v g)),
      if shelfRating s = 0 then none else some (min 4095 (ilimLimit s * 4095 / shelfRating s))) := by
  have h : Machine.busEvaluation s = checkSchedule (testStep (advanceEqualize (writeIlim (ramp (refreshCheck s))))) := if_pos hr
  obtain ⟨e, r, hfresh⟩ := refreshCheck_eq (s := s)
  rw [h, checkSchedule_analog, testStep_analog, advanceEqualize_analog, hfresh, ramp, hg, hv]
  rfl

/-- Settles O32: the setpoint and ILIM written at their part of the evaluation stand at its end. -/
theorem Settled.busEvaluation : Obligations.BusEvaluation := by
  refine ⟨fun g v s hr hg hv => ?evaluation, by decide, by decide⟩
  case evaluation =>
    intro rate
    have hanalog := busEvaluation_analog hr hg hv
    obtain ⟨hreach, hup, hdown⟩ := rampStep_cases (rate := rampRate s.settings) (v := v) (g := g)
    unfold Bus.analog at hanalog
    simp only [Prod.mk.injEq] at hanalog
    obtain ⟨hset, hvref, hilim⟩ := hanalog
    have hcode : ∀ n : Int, (n < 40000 → vrefCode n = 0) ∧ (40000 ≤ n → vrefCode n = min 4095 ((n.toNat - 40000) * 4095 / 20000)) :=
      fun n => ⟨fun h => if_pos h, fun h => if_neg (Int.not_lt.2 h)⟩
    refine ⟨_, rampStep rate v g, rfl, hset, fun h => hreach (by omega), fun h => hup (by omega), fun h => hdown (by omega),
      fun h => ?_, fun h => ?_, fun h => ?_, fun h => ?_⟩
    · exact hvref.trans (congrArg some ((hcode _).1 h))
    · exact hvref.trans (congrArg some ((hcode _).2 h))
    · exact hilim.trans (if_pos h)
    · exact hilim.trans (if_neg h)

end Sys2Proof.Machine
end

section
/-! PROOFS. The schedule and the ends by time (O33), and the refusals by the first case that does not hold. -/

namespace Sys2Proof.Machine

variable {s t u : State} {k n : Nat} {r : StringRec} {α : Type}

/-! ## The first case that does not hold -/

/-- What a list of answers gives for the first case of a list that does not hold. -/
def firstAnswer : List Bool → List α → Option α
  | true :: l, _ :: xs => firstAnswer l xs
  | false :: _, x :: _ => some x
  | _, _ => none

theorem firstAnswer_cons {c : Prop} [Decidable c] {b : Bool} {l : List Bool} {x : α} {xs : List α} (h : c ↔ b = false) :
    firstAnswer (b :: l) (x :: xs) = if c then some x else firstAnswer l xs := by
  cases b with
  | true => rw [if_neg (by rw [h]; decide), firstAnswer]
  | false => rw [if_pos (h.2 rfl), firstAnswer]

theorem firstAnswer_allHold {l : List Bool} {xs : List α} (h : AllHold l) : firstAnswer l xs = none := by
  induction l generalizing xs with
  | nil => rfl
  | cons b l ih =>
    obtain rfl := h b List.mem_cons_self
    cases xs with
    | nil => rfl
    | cons x xs => exact ih fun c hc => h c (List.mem_cons_of_mem _ hc)

theorem firstAnswer_firstFails {l : List Bool} {xs : List α} (h : FirstFails l n) : firstAnswer l xs = xs[n]? := by
  obtain ⟨hbefore, hat⟩ := h
  induction n generalizing l xs with
  | zero =>
    cases l with
    | nil => cases hat
    | cons b l =>
      obtain rfl : b = false := Option.some.inj hat
      cases xs <;> rfl
  | succ n ih =>
    cases l with
    | nil => cases hat
    | cons b l =>
      obtain rfl : b = true := Option.some.inj (hbefore 0 (Nat.succ_pos n))
      cases xs with
      | nil => rfl
      | cons x xs => exact ih (fun j hj => hbefore (j + 1) (Nat.succ_lt_succ hj)) hat

/-! ## The cases that equalize and test share -/

theorem testRunning_case : testRunning s = true ↔ decide (s.bus.test.state ≠ .running) = false := by
  unfold testRunning
  rw [beq_iff_eq, decide_eq_false_iff_not, Classical.not_not]

theorem running_case : s.bus.eq.running = true ↔ decide (s.bus.eq.running = false) = false := by
  rw [decide_eq_false_iff_not, Bool.not_eq_false]

theorem reconnecting_case : (reconnecting s).isSome = true ↔ ((List.range 4).all fun k => strPhase s k != .reconnecting) = false := by
  unfold reconnecting
  rw [List.find?_isSome, List.all_eq_false]
  simp

theorem onGoodMains_case : (!onGoodMains s) = true ↔ decide (s.src.xfer.state = .onMains ∧ s.src.mains.state = .present) = false := by
  unfold onGoodMains
  rw [decide_eq_false_iff_not, Bool.not_eq_true', Bool.and_eq_false_iff, beq_eq_false_iff_ne, beq_eq_false_iff_ne, Classical.not_and_iff_not_or_not]

theorem isEmpty_case {l : List α} [DecidableEq α] : l.isEmpty = true ↔ decide (l ≠ []) = false := by
  rw [decide_eq_false_iff_not, Classical.not_not, List.isEmpty_iff]

theorem full_case {l : List HandedString} : (!(l.all fun h => h.phase == .full)) = true ↔ decide (∀ h ∈ l, h.phase = .full) = false := by
  rw [decide_eq_false_iff_not, Bool.not_eq_true', ← Bool.not_eq_true, List.all_eq_true]
  simp only [beq_iff_eq]

/-- The first failed precondition, counted from 1. -/
theorem equalizeFails_eq {scheduled : Bool} :
    equalizeFails scheduled s = (firstAnswer (equalizeCases scheduled s) [1, 2, 3, 4, 5, 6, 7, 8, 9]).getD 0 := by
  have hprofile : (!(s.str.handed.connected.all fun h =>
      profWord s.settings h.profile 3 == 1 && decide (0 < profWord s.settings h.profile 16))) = true ↔
      decide (∀ h ∈ s.str.handed.connected, profWord s.settings h.profile 3 = 1 ∧ 0 < profWord s.settings h.profile 16) = false := by
    rw [decide_eq_false_iff_not, Bool.not_eq_true', ← Bool.not_eq_true, List.all_eq_true]
    simp only [Bool.and_eq_true, beq_iff_eq, decide_eq_true_eq]
  have hhot : pointActive s Pt.battOvertemp = true ↔ decide (pointActive s Pt.battOvertemp = false) = false := by
    rw [decide_eq_false_iff_not, Bool.not_eq_false]
  have hattended : (scheduled && attended s) = true ↔ decide (scheduled = true → attended s = false) = false := by
    rw [decide_eq_false_iff_not, Classical.not_imp, Bool.and_eq_true, Bool.not_eq_false]
  unfold equalizeFails equalizeCases
  dsimp only
  rw [firstAnswer_cons running_case, firstAnswer_cons testRunning_case, firstAnswer_cons reconnecting_case, firstAnswer_cons onGoodMains_case,
    firstAnswer_cons isEmpty_case, firstAnswer_cons full_case, firstAnswer_cons hprofile, firstAnswer_cons hhot, firstAnswer_cons hattended]
  simp only [apply_ite (Option.getD · 0)]
  rfl

theorem equalizeFails_spec {scheduled : Bool} : (AllHold (equalizeCases scheduled s) → equalizeFails scheduled s = 0) ∧
    ∀ n < 9, FirstFails (equalizeCases scheduled s) n → equalizeFails scheduled s = n + 1 := by
  refine ⟨fun h => ?_, fun n hn h => ?_⟩
  · rw [equalizeFails_eq, firstAnswer_allHold h]
    rfl
  · rw [equalizeFails_eq, firstAnswer_firstFails h]
    match n, hn with
    | 0, _ | 1, _ | 2, _ | 3, _ | 4, _ | 5, _ | 6, _ | 7, _ | 8, _ => rfl

/-! ## The schedule check (R38) -/

/-- The next check set to the next whole hour. -/
def hourSet (s : State) : State := setEq (fun e => { e with nextCheck := nextHour (now s) }) s

theorem checkSchedule_due (hclk : s.clk.state ≠ .unset) (hn : s.bus.eq.nextCheck ≤ now s) : checkSchedule s =
    if scheduleDue s then
      (if equalizeFails true s = 0 then
        hourSet s |> setEq (fun e => { e with schedule := .dueStarted, firstFailed := 0 }) |> startEqualize true
      else setEq (fun e => { e with schedule := .dueWaiting, firstFailed := equalizeFails true s }) (hourSet s))
    else setEq (fun e => { e with schedule := .notDue, firstFailed := 0 }) (hourSet s) := by
  have hnow : (s.clk.state != .unset && decide (s.bus.eq.nextCheck ≤ now s)) = true := by
    rw [Bool.and_eq_true, bne_iff_ne, decide_eq_true_eq]
    exact ⟨hclk, hn⟩
  exact if_pos hnow

theorem exec_scheduleCheck (hr : inRun s = true) (hre : s.bus.recheck = false) : exec .equalizeScheduleCheck s = .next (checkSchedule s) := by
  have hfresh : refreshCheck s = s := if_neg (by rw [hre]; exact Bool.false_ne_true)
  have hrow : exec .equalizeScheduleCheck s = whenDue (inRun s) (fun t => t |> refreshCheck |> checkSchedule) s := rfl
  rw [hrow, whenDue_true (f := fun t => t |> refreshCheck |> checkSchedule) hr]
  exact congrArg (fun t => Host.Outcome.next (checkSchedule t)) hfresh

/-! ## The durations reached (R41, R45) -/

theorem equalizeDue_iff : equalizeDue s = true ↔ s.bus.eq.running = true ∧ s.bus.eq.duration ≤ s.bus.eq.elapsed + 1 := by
  rw [equalizeDue, Bool.and_eq_true, decide_eq_true_eq]

theorem testDue_iff : testDue s = true ↔ testRunning s = true ∧ s.bus.test.duration ≤ s.bus.test.elapsed + 1 := by
  rw [testDue, Bool.and_eq_true, decide_eq_true_eq]

/-- An equalize that reaches its duration. -/
theorem advanceEqualize_completes (hs : Shape s) (hd : equalizeDue s = true) :
    let t := advanceEqualize s
    (t.bus.eq.running = false ∧ t.bus.eq.outcome = .complete ∧ t.bus.eq.endTime = now s ∧ t.bus.eq.elapsed = s.bus.eq.elapsed + 1 ∧
      t.bus.claims.equalize = none) ∧
    (∀ k r, strRec s k = some r → r.phase.connected = true → strRec t k = some { r with lastEqualize := now s }) ∧
    (∀ k r, strRec s k = some r → r.phase.connected = false → strRec t k = some r) := by
  intro t
  obtain ⟨hrun, hdur⟩ := equalizeDue_iff.1 hd
  obtain ⟨b, hb, -, heq⟩ := equalizeCounted_spec (s := s)
  have hdone : (equalizeCounted s).bus.eq.duration ≤ (equalizeCounted s).bus.eq.elapsed := by
    rw [hb]
    dsimp only
    rw [heq]
    exact hdur
  have ht : t = endEqualize .complete (equalizeCompleted (equalizeCounted s)) := (advanceEqualize_eq hrun).trans (if_pos hdone)
  obtain ⟨b', lg, hend, hnone, -, hended, -, -⟩ := endEqualize_spec (o := .complete) (s := equalizeCompleted (equalizeCounted s))
  have hside : beside (equalizeCompleted (equalizeCounted s)) = beside (equalizeCounted s) := equalizeCompleted_beside
  have hrecs : ∀ k, strRec t k = strRec (equalizeCompleted (equalizeCounted s)) k := fun k => by rw [ht, hend]; rfl
  have hshape : Shape (equalizeCounted s) := by rw [hb]; exact hs
  have hnow : now (equalizeCounted s) = now s := by rw [hb]; rfl
  have hsame : ∀ k, strRec (equalizeCounted s) k = strRec s k := fun k => by rw [hb]; rfl
  have hbus : t.bus = b' := by rw [ht, hend]
  have hcounted : (equalizeCompleted (equalizeCounted s)).bus.eq = { s.bus.eq with elapsed := s.bus.eq.elapsed + 1, level := b.eq.level } := by
    rw [beside_bus hside, hb]
    exact heq
  refine ⟨?_, fun k r h hc => ?_, fun k r h hc => ?_⟩
  · rw [hbus, hended, hcounted, beside_now hside, hnow]
    exact ⟨rfl, rfl, rfl, rfl, hnone⟩
  · rw [hrecs, equalizeCompleted_connected hshape ((hsame k).trans h) hc, hnow]
  · rw [hrecs, equalizeCompleted_open ((hsame k).trans h) hc]

/-- A test that reaches its duration. -/
theorem advanceTest_ends (hs : Shape s) (hd : testDue s = true) :
    let t := advanceTest s
    t.bus.claims.test = none ∧ t.bus.test.endTime = now s ∧ t.bus.test.elapsed = s.bus.test.elapsed + 1 ∧ testRunning t = false ∧
    (testLow s = true → t.bus.test.state = .ended .failedEarly ∧ condOf t Pt.testFailed = true) ∧
    (testLow s = false → t.bus.test.state = .ended .passed ∧ condOf t Pt.testFailed = false) := by
  intro t
  obtain ⟨hrun, hdur⟩ := testDue_iff.1 hd
  obtain ⟨x, hx, -, helapsed, -, -⟩ := testFigures_spec (s := s)
  have hspec : ∀ o failed, (testEnded o failed (testFigures s)).bus.claims.test = none ∧
      (testEnded o failed (testFigures s)).bus.test = { x with state := .ended o, endTime := now s } ∧
      condOf (testEnded o failed (testFigures s)) Pt.testFailed = failed := by
    intro o failed
    rw [hx]
    exact testEnded_spec (s := { s with bus := { s.bus with test := x } }) hs
  have ht : t = if testLow s then testEnded .failedEarly true (testFigures s) else testEnded .passed false (testFigures s) := by
    unfold t
    rw [advanceTest_eq hrun, if_pos hdur]
  clear_value t
  subst ht
  cases testLow s with
  | true =>
    obtain ⟨hnone, htest, hcond⟩ := hspec .failedEarly true
    rw [if_pos rfl, testRunning, hnone, htest, hcond]
    exact ⟨rfl, rfl, helapsed, rfl, fun _ => ⟨rfl, rfl⟩, nofun⟩
  | false =>
    obtain ⟨hnone, htest, hcond⟩ := hspec .passed false
    rw [if_neg Bool.false_ne_true, testRunning, hnone, htest, hcond]
    exact ⟨rfl, rfl, helapsed, rfl, nofun, fun _ => ⟨rfl, rfl⟩⟩

/-- Settles O33: the schedule by its three outcomes, and the two ends by what the last evaluation leaves. -/
theorem scheduleAndDuration : Obligations.ScheduleAndDuration := by
  refine ⟨fun scheduled s => equalizeFails_spec, fun s hr hre hclk hn => ⟨checkSchedule s, exec_scheduleCheck hr hre, ?schedule⟩,
    fun s hs hr hd => ⟨advanceEqualize s, whenDue_true ?equalizeDue, ?equalize⟩, fun s hs hr hd => ?test⟩
  case schedule =>
    have hcheck := checkSchedule_due hclk hn
    refine ⟨?_, fun hno => ?_, fun hdue hfail => ?_, fun hdue hok => ?_⟩
    · rw [hcheck]
      split
      · split <;> rfl
      · rfl
    · rw [hcheck, if_neg (by rw [hno]; exact Bool.false_ne_true)]
      exact ⟨rfl, rfl⟩
    · rw [hcheck, if_pos hdue, if_neg hfail]
      exact ⟨rfl, rfl, rfl⟩
    · rw [hcheck, if_pos hdue, if_pos hok]
      exact ⟨rfl, rfl, rfl, rfl, rfl⟩
  case equalizeDue => rw [hr, hd]; rfl
  case equalize =>
    obtain ⟨⟨hrun, hout, hend, helapsed, hclaim⟩, hconn, hopen⟩ := advanceEqualize_completes hs hd
    exact ⟨hrun, hout, hend, helapsed, hclaim, hconn, hopen⟩
  case test =>
    intro low
    obtain ⟨hclaim, hend, helapsed, hover, hlow, hpassed⟩ := advanceTest_ends hs hd
    obtain ⟨htest, hslot⟩ := seriesStart_test (s := advanceTest s)
    have hconds : condOf (seriesStart (advanceTest s)) Pt.testFailed = condOf (advanceTest s) Pt.testFailed := by
      rw [condOf, seriesStart_conds, condOf]
    have hstep : testStep s = seriesStart (advanceTest s) := by
      rw [testStep_eq, (testDue_iff.1 hd).1, hover]
      rfl
    have hl : low ↔ testLow s = true := testLow_iff.symm
    refine ⟨seriesStart (advanceTest s), ?_, hslot.trans hclaim, ?_⟩
    · have hrow : exec .testDurationReached s = whenDue (inRun s && testDue s) testStep s := rfl
      rw [hrow, whenDue_true (by rw [hr, hd]; rfl), hstep]
    · rw [htest, hconds]
      exact ⟨hend, helapsed, fun h => hlow (hl.1 h), fun h => hpassed (eq_false_of_ne_true (mt hl.2 h))⟩

end Sys2Proof.Machine
end

section
/-! PROOFS. EQUALIZE_START, EQUALIZE_CANCEL, TEST_START and TEST_ABORT (O34), from the first case that refuses them. -/

namespace Sys2Proof.Machine

variable {s t u : State} {n minutes volts : Nat}

/-! ## The refusals (R37, R44) -/

/-- The answer to the first failed precondition. -/
theorem equalizeRefusal_get (h : n < 8) : equalizeReplies[n]? = some (equalizeRefusal (n + 1)) := by
  match n, h with
  | 0, _ | 1, _ | 2, _ | 3, _ | 4, _ | 5, _ | 6, _ | 7, _ => rfl

/-- The refusal of a test is the answer to the first case that does not hold. -/
theorem testRefusal_eq : testRefusal minutes volts s = firstAnswer (testCases minutes volts s) testReplies := by
  have hminutes : (minutes < 10 ∨ 600 < minutes) ↔ decide (10 ≤ minutes ∧ minutes ≤ 600) = false := by
    rw [decide_eq_false_iff_not]
    omega
  have hvolts : (volts < 42000 ∨ 50000 < volts) ↔ decide (42000 ≤ volts ∧ volts ≤ 50000) = false := by
    rw [decide_eq_false_iff_not]
    omega
  have hlevel : volts < testLevel s.settings ↔ decide (testLevel s.settings ≤ volts) = false := by
    rw [decide_eq_false_iff_not]
    omega
  have hgen : (s.gen.state != .standby && s.gen.state != .disabled) = true ↔
      decide (s.gen.state = .standby ∨ s.gen.state = .disabled) = false := by
    rw [decide_eq_false_iff_not, Bool.and_eq_true, bne_iff_ne, bne_iff_ne, not_or]
  have halarm : anyActive s 3 = true ↔ decide (anyActive s 3 = false) = false := by
    rw [decide_eq_false_iff_not, Bool.not_eq_false]
  unfold testRefusal testCases testReplies
  dsimp only
  rw [firstAnswer_cons hminutes, firstAnswer_cons hvolts, firstAnswer_cons hlevel, firstAnswer_cons running_case,
    firstAnswer_cons testRunning_case, firstAnswer_cons reconnecting_case, firstAnswer_cons onGoodMains_case, firstAnswer_cons hgen,
    firstAnswer_cons isEmpty_case, firstAnswer_cons full_case, firstAnswer_cons halarm]
  rfl

/-! ## The outcomes of the four commands -/

theorem equalizeStart_starts (h : equalizeFails false s = 0) : equalizeStart s = (startEqualize false s, .started, 0) := if_pos h

theorem equalizeStart_refuses (h : equalizeFails false s ≠ 0) : equalizeStart s = (s, equalizeRefusal (equalizeFails false s)) := if_neg h

theorem equalizeStart_outcome :
    (equalizeFails false s = 0 → (equalizeStart s).2 = (.started, 0) ∧ (equalizeStart s).1.bus.eq.running = true ∧
      (equalizeStart s).1.bus.eq.scheduled = false ∧ (equalizeStart s).1.bus.eq.startTime = now s ∧ (equalizeStart s).1.bus.eq.elapsed = 0 ∧
      (equalizeStart s).1.bus.claims.equalize = some ⟨s.str.handed.equalizeLevel.getD 0, now s⟩) ∧
    (equalizeFails false s ≠ 0 → (equalizeStart s).2 = equalizeRefusal (equalizeFails false s) ∧ (equalizeStart s).1.bus = s.bus) := by
  refine ⟨fun h => ?_, fun h => ?_⟩
  · rw [equalizeStart_starts h]
    exact ⟨rfl, rfl, rfl, rfl, rfl, rfl⟩
  · rw [equalizeStart_refuses h]
    exact ⟨rfl, rfl⟩

theorem equalizeCancel_outcome :
    (s.bus.eq.running = true → (equalizeCancelCommand s).2 = (.done, 0) ∧ (equalizeCancelCommand s).1.bus.eq.running = false ∧
      (equalizeCancelCommand s).1.bus.eq.outcome = .cancelledCmd ∧ (equalizeCancelCommand s).1.bus.eq.endTime = now s ∧
      (equalizeCancelCommand s).1.bus.eq.elapsed = s.bus.eq.elapsed ∧ (equalizeCancelCommand s).1.bus.claims.equalize = none) ∧
    (s.bus.eq.running = false → (equalizeCancelCommand s).2 = (.refusedState, 1) ∧ (equalizeCancelCommand s).1.bus = s.bus) := by
  refine ⟨fun h => ?_, fun h => ?_⟩
  · have hcmd : equalizeCancelCommand s = (cancelEqualize .cancelledCmd s, .done, 0) := if_pos h
    have hcancel : cancelEqualize .cancelledCmd s = endEqualize .cancelledCmd s := if_pos h
    obtain ⟨b, lg, hb, hnone, -, heq, -, -⟩ := endEqualize_spec (o := .cancelledCmd) (s := s)
    rw [hcmd, hcancel, hb]
    dsimp only
    rw [heq]
    exact ⟨rfl, rfl, rfl, rfl, rfl, hnone⟩
  · have hcmd : equalizeCancelCommand s = (s, .refusedState, 1) := if_neg (by rw [h]; exact Bool.false_ne_true)
    rw [hcmd]
    exact ⟨rfl, rfl⟩

theorem testStart_outcome :
    (testRefusal minutes volts s = none → (testStartCommand minutes volts s).2 = (.started, 0) ∧
      (testStartCommand minutes volts s).1.bus.test.state = .running ∧ (testStartCommand minutes volts s).1.bus.test.duration = minutes * 60 ∧
      (testStartCommand minutes volts s).1.bus.test.endVoltage = volts ∧ (testStartCommand minutes volts s).1.bus.test.startTime = now s ∧
      (testStartCommand minutes volts s).1.bus.test.minBus = 65535 ∧
      (testStartCommand minutes volts s).1.bus.claims.test = some ⟨testLevel s.settings, now s⟩) ∧
    (∀ r, testRefusal minutes volts s = some r → (testStartCommand minutes volts s).2 = r ∧ (testStartCommand minutes volts s).1.bus = s.bus) := by
  refine ⟨fun h => ?_, fun r h => ?_⟩
  · have hcmd : testStartCommand minutes volts s = (startTest minutes volts s, .started, 0) := by rw [testStartCommand, h]
    rw [hcmd]
    exact ⟨rfl, rfl, rfl, rfl, rfl, rfl, rfl⟩
  · have hcmd : testStartCommand minutes volts s = (s, r) := by rw [testStartCommand, h]
    rw [hcmd]
    exact ⟨rfl, rfl⟩

theorem testAbort_outcome :
    (s.bus.test.state = .running → (testAbortCommand s).2 = (.done, 0) ∧ (testAbortCommand s).1.bus.test.state = .ended .abortedCmd ∧
      (testAbortCommand s).1.bus.test.endTime = now s ∧ (testAbortCommand s).1.bus.claims.test = none) ∧
    (s.bus.test.state ≠ .running → (testAbortCommand s).2 = (.refusedState, 1) ∧ (testAbortCommand s).1.bus = s.bus) := by
  refine ⟨fun h => ?_, fun h => ?_⟩
  · have hrun : testRunning s = true := beq_iff_eq.2 h
    have hcmd : testAbortCommand s = (abortTest .abortedCmd s, .done, 0) := if_pos hrun
    have habort : abortTest .abortedCmd s = endTest .abortedCmd s := if_pos hrun
    obtain ⟨b, lg, hb, hnone, -, htest, -, -⟩ := endTest_spec (o := .abortedCmd) (s := s)
    rw [hcmd, habort, hb]
    dsimp only
    rw [htest]
    exact ⟨rfl, rfl, rfl, hnone⟩
  · have hrun : ¬ testRunning s = true := mt beq_iff_eq.1 h
    have hcmd : testAbortCommand s = (s, .refusedState, 1) := if_neg hrun
    rw [hcmd]
    exact ⟨rfl, rfl⟩

/-- Settles O34: each command by the outcome of its rule in the state of the post. -/
theorem equalizeAndTestCommands : Obligations.EqualizeAndTestCommands := by
  refine ⟨fun slot tag s hs hl => ⟨fun hd => ?equalizeStart, fun hd => ?equalizeCancel⟩,
    fun slot tag s hs hl => ⟨fun hd => ?testStart, fun hd => ?testAbort⟩⟩
  case equalizeStart =>
    intro u
    have hnow : now u = now s := atPost_now
    have hrule : ruled slot Op.equalizeStart tag s = equalizeStart u := rfl
    obtain ⟨hstarts, hrefuses⟩ := equalizeStart_outcome (s := u)
    obtain ⟨hall, hfirst⟩ := equalizeFails_spec (s := u) (scheduled := false)
    refine ⟨commanded slot Op.equalizeStart tag s, exec_command rfl (by decide) (by decide) hl hd, ?_⟩
    rw [replyOf_commanded hs, commanded_bus, hrule, ← hnow]
    refine ⟨hstarts, hrefuses, fun h => ?_, fun n hn h => ?_⟩
    · obtain ⟨hreply, hrun, -⟩ := hstarts (hall h)
      exact ⟨hreply, hrun⟩
    · have hfails := hfirst n (by omega) h
      obtain ⟨hreply, hbus⟩ := hrefuses (by omega)
      rw [hreply, hfails]
      exact ⟨equalizeRefusal_get hn, hbus⟩
  case equalizeCancel =>
    intro u
    have hnow : now u = now s := atPost_now
    have hrule : ruled slot Op.equalizeCancel tag s = equalizeCancelCommand u := rfl
    refine ⟨commanded slot Op.equalizeCancel tag s, exec_command rfl (by decide) (by decide) hl hd, ?_⟩
    rw [replyOf_commanded hs, commanded_bus, hrule, ← hnow]
    exact equalizeCancel_outcome
  case testStart =>
    intro u
    have hnow : now u = now s := atPost_now
    have hset : u.settings = s.settings := heartbeat_settings
    have hrule : ruled slot Op.testStart tag s = testStartCommand (arg u slot 1) (arg u slot 2) u := rfl
    obtain ⟨hstarts, hrefuses⟩ := testStart_outcome (minutes := arg u slot 1) (volts := arg u slot 2) (s := u)
    refine ⟨commanded slot Op.testStart tag s, exec_command rfl (by decide) (by decide) hl hd, ?_⟩
    rw [replyOf_commanded hs, commanded_bus, hrule, ← hnow, ← hset]
    refine ⟨hstarts, hrefuses, fun h => ?_, fun n hn h => ?_⟩
    · obtain ⟨hreply, hrun, -⟩ := hstarts (testRefusal_eq.trans (firstAnswer_allHold h))
      exact ⟨hreply, hrun⟩
    · have hlen : n < testReplies.length := hn
      have hget := List.getElem?_eq_getElem hlen
      obtain ⟨hreply, hbus⟩ := hrefuses _ (testRefusal_eq.trans ((firstAnswer_firstFails h).trans hget))
      rw [hreply]
      exact ⟨hget, hbus⟩
  case testAbort =>
    intro u
    have hnow : now u = now s := atPost_now
    have hrule : ruled slot Op.testAbort tag s = testAbortCommand u := rfl
    refine ⟨commanded slot Op.testAbort tag s, exec_command rfl (by decide) (by decide) hl hd, ?_⟩
    rw [replyOf_commanded hs, commanded_bus, hrule, ← hnow]
    exact testAbort_outcome

end Sys2Proof.Machine
end

section
/-! PROOFS. What the posts and removals of MAINS_FAIL leave (R83, R98, R99), and the Source Controller's check of it. -/

namespace Sys2Proof.Machine

variable {s t u : State} {k : RequestKind}

/-! ## The mains and the transfer beside a request -/

theorem withdrawClaim_src {c : Slot} : (withdrawClaim c s).src = s.src := by
  unfold withdrawClaim
  split <;> rfl

theorem genEnter_src {st : GenState} {x : Word} : (genEnter st x s).src = s.src := by
  unfold genEnter
  dsimp only
  split
  · rw [withdrawClaim_src, logEv_src]
  · exact logEv_src

theorem genEnter_capacity {st : GenState} {x : Word} : (genEnter st x s).gen.capacity = s.gen.capacity := by
  rw [genEnter_gen]
  rfl

theorem seriesStart_src : (seriesStart s).src = s.src := by
  unfold seriesStart
  split
  · exact genEnter_src
  · rfl

theorem addRequest_src {load : Bool} {e : Nat} : (addRequest k load e s).src = s.src := by
  unfold addRequest
  dsimp only
  split
  · rw [genEnter_src, logEv_src]
  · rw [seriesStart_src, logEv_src]

theorem addRequest_capacity {load : Bool} {e : Nat} : (addRequest k load e s).gen.capacity = s.gen.capacity := by
  unfold addRequest
  dsimp only
  split
  · rw [genEnter_capacity, logEv_gen]
  · rw [seriesStart_marks.2.2.1, logEv_gen]

theorem addAttempt_src {o : AttemptOutcome} {peak : Nat} : (addAttempt o peak s).src = s.src := logEv_src

theorem addAttempt_capacity {o : AttemptOutcome} {peak : Nat} : (addAttempt o peak s).gen.capacity = s.gen.capacity := by rw [addAttempt_gen]

theorem abandonSeries_src {b : Bool} : (abandonSeries b s).src = s.src := by
  unfold abandonSeries
  rw [genEnter_src]
  dsimp only
  split
  · exact addAttempt_src
  · exact addAttempt_src
  · rfl

theorem abandonSeries_capacity {b : Bool} : (abandonSeries b s).gen.capacity = s.gen.capacity := by
  unfold abandonSeries
  rw [genEnter_capacity]
  dsimp only
  split
  · exact addAttempt_capacity
  · exact addAttempt_capacity
  · rfl

/-- A request that is withdrawn, not removed for FUEL, is not reported to the Source Controller. -/
theorem removeRequest_withdrawn : (removeRequest k Reason.withdrawn s).src = s.src ∧
    (removeRequest k Reason.withdrawn s).gen.capacity = s.gen.capacity := by
  unfold removeRequest
  split
  · have hfuel : (k == .mainsFail && Reason.withdrawn == Reason.fuel) = false := Bool.and_false _
    dsimp only
    rw [hfuel, if_neg Bool.false_ne_true]
    split
    · rw [abandonSeries_src, abandonSeries_capacity, logEv_src, logEv_gen]
      exact ⟨rfl, rfl⟩
    · rw [logEv_src, logEv_gen]
      exact ⟨rfl, rfl⟩
  · exact ⟨rfl, rfl⟩

/-- A post of MAINS_FAIL while FUEL_CRITICAL is not active. -/
theorem postMainsFail_spec (hf : pointActive s Pt.fuelCritical = false) :
    let t := postRequest .mainsFail true 0 s
    t.src = s.src ∧ t.gen.capacity = s.gen.capacity ∧ requested t .mainsFail = true ∧
      (requested s .mainsFail = false → t.gen.requests = { s.gen.requests with mainsFail := some ⟨now s, true, 0⟩ }) ∧
      t.gen.requests.depth = s.gen.requests.depth ∧ t.gen.requests.exercise = s.gen.requests.exercise ∧
      t.gen.requests.manual = s.gen.requests.manual := by
  intro t
  cases hk : requested s .mainsFail with
  | true =>
    have ht : t = s := if_pos hk
    rw [ht]
    exact ⟨rfl, rfl, hk, nofun, rfl, rfl, rfl⟩
  | false =>
    have ht : t = addRequest .mainsFail true 0 s := by
      unfold t
      rw [postRequest, if_neg (by rw [hk]; exact Bool.false_ne_true), if_neg (by rw [hf]; exact Bool.false_ne_true),
        if_neg (by rw [Bool.and_eq_true]; rintro ⟨-, h⟩; cases h)]
    rw [ht, addRequest_src, addRequest_capacity, requested, addRequest_requests]
    exact ⟨rfl, rfl, rfl, fun _ => rfl, rfl, rfl, rfl⟩

/-! ## The check of MAINS_FAIL (R83) -/

/-- MAINS_FAIL held as posted or not. -/
def failMarked (b : Bool) (s : State) : State := setMains (fun m => { m with failHeld := b }) s

theorem mainsFailDue_parts (h : mainsFailDue s = true) : pointActive s Pt.fuelCritical = false ∧ mainsFailOver s = false := by
  unfold mainsFailDue at h
  simp only [Bool.and_eq_true, Bool.or_eq_true, beq_iff_eq, decide_eq_true_eq, Bool.not_eq_true'] at h
  obtain ⟨⟨⟨hdelay, hstate⟩, -⟩, hfuel⟩ := h
  refine ⟨hfuel, ?_⟩
  have hne : (s.src.mains.state == .present) = false := by
    rcases hstate with hs | hs <;> rw [hs] <;> rfl
  unfold mainsFailOver
  rw [hne, Bool.and_false, Bool.false_or, beq_eq_false_iff_ne]
  omega

theorem withdrawMainsFail_over (hh : s.src.mains.failHeld = true) (ho : mainsFailOver s = true) :
    withdrawMainsFail s = removeRequest .mainsFail Reason.withdrawn (failMarked false s) := if_pos (by rw [hh, ho]; rfl)

theorem withdrawMainsFail_stays (h : s.src.mains.failHeld = true → mainsFailOver s = false) : withdrawMainsFail s = s := by
  refine if_neg ?_
  rw [Bool.and_eq_true]
  rintro ⟨hh, ho⟩
  rw [h hh] at ho
  cases ho

section Check

theorem checkMainsFail_posts (hh : s.src.mains.failHeld = false) (hd : mainsFailDue s = true) :
    checkMainsFail s = postRequest .mainsFail true 0 (failMarked true s) := by
  obtain ⟨hfuel, hover⟩ := mainsFailDue_parts hd
  have hstays : withdrawMainsFail (postRequest .mainsFail true 0 (failMarked true s)) = postRequest .mainsFail true 0 (failMarked true s) := by
    refine withdrawMainsFail_stays fun _ => ?_
    rw [mainsFailOver, (postMainsFail_spec (s := failMarked true s) hfuel).1, aside_settings postRequest_aside]
    exact hover
  have hcheck : checkMainsFail s = withdrawMainsFail (postRequest .mainsFail true 0 (failMarked true s)) := by
    unfold checkMainsFail
    rw [if_pos (by rw [hd, hh]; rfl)]
    rfl
  rw [hcheck, hstays]

theorem checkMainsFail_unposted (h : s.src.mains.failHeld = false → mainsFailDue s = false) : checkMainsFail s = withdrawMainsFail s := by
  unfold checkMainsFail
  rw [if_neg]
  rw [Bool.and_eq_true, Bool.not_eq_true']
  rintro ⟨hd, hh⟩
  rw [h hh] at hd
  cases hd

theorem checkMainsFail_withdraws (hh : s.src.mains.failHeld = true) (ho : mainsFailOver s = true) :
    checkMainsFail s = removeRequest .mainsFail Reason.withdrawn (failMarked false s) :=
  (checkMainsFail_unposted fun h => by rw [hh] at h; cases h).trans (withdrawMainsFail_over hh ho)

theorem checkMainsFail_rests (hd : s.src.mains.failHeld = false → mainsFailDue s = false)
    (ho : s.src.mains.failHeld = true → mainsFailOver s = false) : checkMainsFail s = s :=
  (checkMainsFail_unposted hd).trans (withdrawMainsFail_stays ho)

/-- The three outcomes of the check. -/
theorem checkMainsFail_cases :
    (s.src.mains.failHeld = false ∧ mainsFailDue s = true ∧ checkMainsFail s = postRequest .mainsFail true 0 (failMarked true s)) ∨
    (s.src.mains.failHeld = true ∧ mainsFailOver s = true ∧
      checkMainsFail s = removeRequest .mainsFail Reason.withdrawn (failMarked false s)) ∨
    checkMainsFail s = s := by
  cases hh : s.src.mains.failHeld with
  | false =>
    cases hd : mainsFailDue s with
    | true => exact .inl ⟨rfl, rfl, checkMainsFail_posts hh hd⟩
    | false => exact .inr (.inr (checkMainsFail_rests (fun _ => hd) fun h => by rw [hh] at h; cases h))
  | true =>
    cases ho : mainsFailOver s with
    | true => exact .inr (.inl ⟨rfl, rfl, checkMainsFail_withdraws hh ho⟩)
    | false => exact .inr (.inr (checkMainsFail_rests (fun h => by rw [hh] at h; cases h) fun _ => ho))

theorem checkMainsFail_aside : aside false (checkMainsFail s) = aside false s := by
  rcases checkMainsFail_cases (s := s) with ⟨-, -, h⟩ | ⟨-, -, h⟩ | h
  · rw [h, postRequest_aside]
    rfl
  · rw [h, removeRequest_aside]
    rfl
  · rw [h]

theorem checkMainsFail_capacity : (checkMainsFail s).gen.capacity = s.gen.capacity := by
  rcases checkMainsFail_cases (s := s) with ⟨-, hd, h⟩ | ⟨-, -, h⟩ | h
  · rw [h, (postMainsFail_spec (s := failMarked true s) (mainsFailDue_parts hd).1).2.1]
    rfl
  · rw [h, removeRequest_withdrawn.2]
    rfl
  · rw [h]

/-- The mains beside the mark of a held MAINS_FAIL. -/
theorem checkMainsFail_mains : ∃ b, (checkMainsFail s).src = { s.src with mains := { s.src.mains with failHeld := b } } := by
  rcases checkMainsFail_cases (s := s) with ⟨-, hd, h⟩ | ⟨-, -, h⟩ | h
  · exact ⟨true, by rw [h, (postMainsFail_spec (s := failMarked true s) (mainsFailDue_parts hd).1).1]; rfl⟩
  · exact ⟨false, by rw [h, removeRequest_withdrawn.1]; rfl⟩
  · exact ⟨s.src.mains.failHeld, by rw [h]⟩

/-- The check posts, withdraws, or leaves the state as it is. -/
theorem checkMainsFail_spec :
    let u := checkMainsFail s
    u.src.xfer = s.src.xfer ∧
    (s.src.mains.failHeld = false → mainsFailDue s = true →
      u.src.mains = { s.src.mains with failHeld := true } ∧ requested u .mainsFail = true ∧
      (requested s .mainsFail = false → u.gen.requests = { s.gen.requests with mainsFail := some ⟨now s, true, 0⟩ })) ∧
    (s.src.mains.failHeld = true → mainsFailOver s = true →
      u.src.mains = { s.src.mains with failHeld := false } ∧ u.gen.requests = { s.gen.requests with mainsFail := none }) ∧
    ((s.src.mains.failHeld = false → mainsFailDue s = false) → (s.src.mains.failHeld = true → mainsFailOver s = false) → u = s) := by
  intro u
  refine ⟨aside_xfer checkMainsFail_aside, fun hh hd => ?_, fun hh ho => ?_, checkMainsFail_rests⟩
  · obtain ⟨hsrc, -, hreq, hnew, -⟩ := postMainsFail_spec (s := failMarked true s) (mainsFailDue_parts hd).1
    have hu : u = _ := checkMainsFail_posts hh hd
    rw [hu, hsrc]
    exact ⟨rfl, hreq, hnew⟩
  · have hu : u = _ := checkMainsFail_withdraws hh ho
    rw [hu, removeRequest_withdrawn.1, removeRequest_requests]
    exact ⟨rfl, rfl⟩

end Check

end Sys2Proof.Machine
end

section
/-! PROOFS. A change of the transfer state (R84, R85, R89, R90): the record that it leaves, and what its notices reach. -/

namespace Sys2Proof.Machine

variable {s t u : State} {st : XferState}

/-! ## What the notices of a transfer leave (R90) -/

/-- The source, the run requests and the generator's capacity stay. -/
def Noticed (s t : State) : Prop := t.src = s.src ∧ t.gen.requests = s.gen.requests ∧ t.gen.capacity = s.gen.capacity

theorem Noticed.refl (s : State) : Noticed s s := ⟨rfl, rfl, rfl⟩

theorem Noticed.trans (h : Noticed s t) (h' : Noticed t u) : Noticed s u :=
  ⟨h'.1.trans h.1, h'.2.1.trans h.2.1, h'.2.2.trans h.2.2⟩

theorem Noticed.of_eq (hsrc : t.src = s.src) (hgen : t.gen = s.gen) : Noticed s t := ⟨hsrc, by rw [hgen], by rw [hgen]⟩

theorem Noticed.of_aside (h : aside true t = aside true s) : Noticed s t := .of_eq (aside_src h) (aside_gen h)

theorem Noticed.ite {c : Prop} [Decidable c] (h : Noticed s t) (h' : Noticed s u) : Noticed s (if c then t else u) := by
  split
  · exact h
  · exact h'

theorem withdrawClaim_noticed {c : Slot} : Noticed s (withdrawClaim c s) := .of_eq withdrawClaim_src withdrawClaim_gen

theorem genEnter_noticed {x : GenState} {n : Word} : Noticed s (genEnter x n s) := ⟨genEnter_src, genEnter_requests, genEnter_capacity⟩

theorem wishClaim_noticed {c : Slot} {l : Option Int} : Noticed s (wishClaim c l s) := by
  obtain ⟨b, hb, -⟩ := wishClaim_eq (c := c) (l := l) (s := s)
  rw [hb]
  exact .of_eq rfl rfl

theorem genClaimCheck_noticed : Noticed s (genClaimCheck s) := by
  unfold genClaimCheck
  exact Noticed.ite wishClaim_noticed (.refl s)

theorem noticeOnGen_noticed : Noticed s (noticeOnGen s) := by
  unfold noticeOnGen
  refine Noticed.ite (Noticed.trans ?_ genClaimCheck_noticed) (.refl s)
  exact (genEnter_noticed (s := s) (x := .loaded) (n := 0)).trans ⟨rfl, rfl, rfl⟩

theorem noticeLeftForOpening_noticed : Noticed s (noticeLeftForOpening s) :=
  (Noticed.ite genEnter_noticed (.refl s)).trans withdrawClaim_noticed

theorem noticeLeftForFault_noticed : Noticed s (noticeLeftForFault s) :=
  (Noticed.ite genEnter_noticed (.refl s)).trans withdrawClaim_noticed

theorem handCapacity_src : (handCapacity s).src = s.src := (handCapacity_shelf (Shelf.refl s)).src_eq

theorem handCapacity_noticed : Noticed s (handCapacity s) := .of_eq handCapacity_src handCapacity_gen

/-- The state whose capacity is handed on after a transfer. -/
def noticesBefore (old new : XferState) (s : State) : State :=
  s |> (fun t => if old = .onMains then t |> cancelEqualize .cancelledMains |> abortTest .abortedMains else t)
    |> (fun t => if old = .onGen then (if new = .fault then noticeLeftForFault t else noticeLeftForOpening t) else t)
    |> (fun t => if new = .onGen then noticeOnGen t else t)

theorem transferNotices_eq {old new : XferState} : transferNotices old new s = handCapacity (noticesBefore old new s) := rfl

theorem noticesBefore_noticed {old new : XferState} : Noticed s (noticesBefore old new s) := by
  have hends : Noticed s (if old = .onMains then abortTest .abortedMains (cancelEqualize .cancelledMains s) else s) :=
    Noticed.ite (.of_aside (abortTest_aside.trans cancelEqualize_aside)) (.refl s)
  have hleft : ∀ a : State, Noticed a
      (if old = .onGen then (if new = .fault then noticeLeftForFault a else noticeLeftForOpening a) else a) :=
    fun a => Noticed.ite (Noticed.ite noticeLeftForFault_noticed noticeLeftForOpening_noticed) (.refl a)
  exact hends.trans ((hleft _).trans (Noticed.ite noticeOnGen_noticed (.refl _)))

theorem transferNotices_noticed {old new : XferState} : Noticed s (transferNotices old new s) :=
  noticesBefore_noticed.trans handCapacity_noticed

/-- A change between states beside the mains and the generator notifies the roster alone. -/
theorem transferNotices_between {old new : XferState} (h1 : old ≠ .onMains) (h2 : old ≠ .onGen) (h3 : new ≠ .onGen) :
    transferNotices old new s = handCapacity s := by
  unfold transferNotices
  dsimp only
  rw [if_neg h1, if_neg h2, if_neg h3]

/-! ## A change of state -/

/-- The state in which the notices of a change are given. -/
def xferEntered (st : XferState) (s : State) : State :=
  s |> setXfer (fun x => x.enter st (now s) s.clk.uptime) |> logEv .transfer 0 (wordOf s.src.xfer.state.code) (wordOf st.code)

theorem enterXfer_eq : enterXfer st s = transferNotices s.src.xfer.state st (xferEntered st s) := rfl

theorem xferEntered_src : (xferEntered st s).src = { s.src with xfer := s.src.xfer.enter st (now s) s.clk.uptime } := logEv_src

theorem xferEntered_gen : (xferEntered st s).gen = s.gen := logEv_gen

theorem enterXfer_src : (enterXfer st s).src = { s.src with xfer := s.src.xfer.enter st (now s) s.clk.uptime } := by
  rw [enterXfer_eq, transferNotices_noticed.1, xferEntered_src]

theorem enterXfer_requests : (enterXfer st s).gen.requests = s.gen.requests := by
  rw [enterXfer_eq, transferNotices_noticed.2.1, xferEntered_gen]

/-- What a change of the transfer state finds as it was. -/
theorem enterXfer_rest : (enterXfer st s).st = s.st ∧ (enterXfer st s).clk = s.clk ∧ (enterXfer st s).inp = s.inp := by
  have h := enterXfer_quiet (Quiet.refl s) (st := st)
  exact ⟨h.st_eq, h.clk_eq, h.inp_eq⟩

theorem feedbacks_congr (h : t.inp = s.inp) : feedbacks t = feedbacks s := by rw [feedbacks, dinLevel, dinLevel, h, feedbacks, dinLevel, dinLevel]

theorem feedbacksAgree_iff : feedbacksAgree s = true ↔ s.src.xfer.state.expected = some (feedbacks s) := beq_iff_eq

/-- No mains and no generator carries the load in this state. -/
def XferState.off : XferState → Bool
  | .opening | .open | .closingGen | .closingMains => true
  | .cleared | .onMains | .onGen | .fault => false

theorem sourceCapacity_off (h : s.src.xfer.state.off = true) : sourceCapacity s = .limited 0 := by
  unfold sourceCapacity
  cases hx : s.src.xfer.state <;> rw [hx] at h <;> first | rfl | cases h

/-- A state without a source hands on a capacity of 0. -/
theorem enterXfer_cap (hr : inRun s = true) (h : st.off = true) : (enterXfer st s).ros.cap = .limited 0 := by
  have hst : (noticesBefore s.src.xfer.state st (xferEntered st s)).st = s.st := by
    have hq := enterXfer_rest (st := st) (s := s)
    rw [enterXfer_eq, transferNotices_eq, (handCapacity_quiet (Quiet.refl _)).st_eq] at hq
    exact hq.1
  have hsrc : (noticesBefore s.src.xfer.state st (xferEntered st s)).src.xfer.state = st := by
    rw [noticesBefore_noticed.1, xferEntered_src]
    rfl
  rw [enterXfer_eq, transferNotices_eq, handCapacity_cap (trainRuns_of_inRun ((inRun_congr hst).trans hr)),
    sourceCapacity_off (by rw [hsrc]; exact h)]

/-! ## Feedbacks judged (R85) -/

theorem watchFeedbacks_eq : ∃ w, watchFeedbacks s = { s with src := { s.src with xfer := { s.src.xfer with mismatchWatch := w } } } := by
  unfold watchFeedbacks
  split
  · exact ⟨_, rfl⟩
  · exact ⟨_, rfl⟩
  · exact ⟨_, rfl⟩
  all_goals exact ⟨s.src.xfer.mismatchWatch, rfl⟩

/-- A state that waits on feedbacks that are there. -/
def confirmedAt (s : State) : State :=
  match s.src.xfer.state.confirms with
  | some st => if s.src.xfer.confirmTimer && feedbacksAgree s then enterXfer st s else s
  | none => s

theorem judgeFeedbacks_run (hr : inRun s = true) : judgeFeedbacks s = watchFeedbacks (confirmedAt s) := if_pos hr

/-- The transfer record after a change of state with the feedbacks judged at its first moment. -/
def Xfer.land (x : Xfer) (st : XferState) (fb : Bool × Bool) (time uptime : Nat) : Xfer :=
  match st.confirms with
  | some st' => if st.expected = some fb then (x.enter st time uptime).enter st' time uptime else x.enter st time uptime
  | none => x.enter st time uptime

/-- The state after the entry and its confirmation, before the watch. -/
def landed (st : XferState) (s : State) : State := confirmedAt (enterXfer st s)

theorem moveXfer_run (hr : inRun s = true) : moveXfer st s = watchFeedbacks (landed st s) :=
  judgeFeedbacks_run ((inRun_congr enterXfer_rest.1).trans hr)

theorem landed_eq : landed st s = match st.confirms with
    | some st' => if st.expected = some (feedbacks s) then enterXfer st' (enterXfer st s) else enterXfer st s
    | none => enterXfer st s := by
  have hfb : feedbacks (enterXfer st s) = feedbacks s := feedbacks_congr enterXfer_rest.2.2
  have hagree : (enterXfer st s).src.xfer.confirmTimer = st.confirms.isSome ∧
      (feedbacksAgree (enterXfer st s) = true ↔ st.expected = some (feedbacks s)) := by
    rw [feedbacksAgree_iff, hfb, enterXfer_src]
    exact ⟨rfl, Iff.rfl⟩
  have hstate : (enterXfer st s).src.xfer.state = st := by rw [enterXfer_src]; rfl
  unfold landed confirmedAt
  rw [hstate]
  cases hc : st.confirms with
  | none => rfl
  | some st' =>
    dsimp only
    rw [hagree.1, hc, Option.isSome_some, Bool.true_and]
    by_cases he : st.expected = some (feedbacks s)
    · rw [if_pos he, if_pos (hagree.2.2 he)]
    · rw [if_neg he, if_neg fun h => he (hagree.2.1 h)]

theorem landed_src : (landed st s).src = { s.src with xfer := s.src.xfer.land st (feedbacks s) (now s) s.clk.uptime } := by
  have hclk : (enterXfer st s).clk = s.clk := enterXfer_rest.2.1
  have hnow : now (enterXfer st s) = now s := congrArg Clock.value hclk
  rw [landed_eq]
  unfold Xfer.land
  split
  · split
    · rw [enterXfer_src, enterXfer_src, hnow, hclk]
    · exact enterXfer_src
  · exact enterXfer_src

theorem landed_requests : (landed st s).gen.requests = s.gen.requests := by
  rw [landed_eq]
  split
  · split
    · rw [enterXfer_requests, enterXfer_requests]
    · exact enterXfer_requests
  · exact enterXfer_requests

/-- The record of a transfer that moves in RUN. -/
theorem moveXfer_src (hr : inRun s = true) : ∃ w, (moveXfer st s).src = { s.src with
    xfer := { s.src.xfer.land st (feedbacks s) (now s) s.clk.uptime with mismatchWatch := w } } := by
  obtain ⟨w, hw⟩ := watchFeedbacks_eq (s := landed st s)
  refine ⟨w, ?_⟩
  rw [moveXfer_run hr, hw, landed_src]

theorem moveXfer_requests (hr : inRun s = true) : (moveXfer st s).gen.requests = s.gen.requests := by
  obtain ⟨w, hw⟩ := watchFeedbacks_eq (s := landed st s)
  rw [moveXfer_run hr, hw]
  exact landed_requests

/-! ## OPENING (R86, R88) -/

/-- The transfer record that heads for a side. -/
def heading (toGen fromGen : Bool) (s : State) : State := setXfer (fun x => { x with headingGen := toGen, leftGen := fromGen }) s

theorem startOpening_eq {toGen fromGen : Bool} : startOpening toGen fromGen s = moveXfer .opening (heading toGen fromGen s) := rfl

/-- A transfer that opens: the drives stand open, and feedbacks that show it confirm it. -/
theorem startOpening_spec {toGen fromGen : Bool} (hr : inRun s = true) :
    let t := startOpening toGen fromGen s
    t.src.xfer.state = (if feedbacks s = (false, false) then .open else .opening) ∧ t.src.xfer.headingGen = toGen ∧
      t.src.xfer.leftGen = fromGen ∧ t.src.xfer.mopen = .asserted ∧ t.src.xfer.gclose = .released ∧ t.src.mains = s.src.mains := by
  intro t
  obtain ⟨w, hw⟩ := moveXfer_src (st := .opening) (s := heading toGen fromGen s) hr
  have ht : t = moveXfer .opening (heading toGen fromGen s) := rfl
  have hfb : feedbacks (heading toGen fromGen s) = feedbacks s := rfl
  rw [ht, hw, hfb]
  have hexp : (XferState.opening.expected = some (feedbacks s)) = (feedbacks s = (false, false)) :=
    propext ⟨fun h => (Option.some.inj h).symm, fun h => congrArg some h.symm⟩
  dsimp only [Xfer.land, XferState.confirms]
  simp only [hexp]
  split
  · exact ⟨rfl, rfl, rfl, rfl, rfl, rfl⟩
  · exact ⟨rfl, rfl, rfl, rfl, rfl, rfl⟩

theorem startOpening_requests {toGen fromGen : Bool} (hr : inRun s = true) : (startOpening toGen fromGen s).gen.requests = s.gen.requests :=
  moveXfer_requests (s := heading toGen fromGen s) hr

/-- An OPENING confirmed at once notifies the roster alone. -/
theorem landed_opening : (landed .opening s).gen = (enterXfer .opening s).gen ∧ (landed .opening s).bus = (enterXfer .opening s).bus := by
  have hstate : (enterXfer .opening s).src.xfer.state = .opening := by rw [enterXfer_src]; rfl
  have hconfirmed : enterXfer .open (enterXfer .opening s) = handCapacity (xferEntered .open (enterXfer .opening s)) := by
    rw [enterXfer_eq (st := .open), hstate, transferNotices_between (by decide) (by decide) (by decide)]
  rw [landed_eq]
  dsimp only [XferState.confirms]
  split
  · rw [hconfirmed, handCapacity_gen, handCapacity_bus, xferEntered_gen]
    exact ⟨rfl, logEv_bus⟩
  · exact ⟨rfl, rfl⟩

theorem startOpening_cap {toGen fromGen : Bool} (hr : inRun s = true) : (startOpening toGen fromGen s).ros.cap = .limited 0 := by
  have hh : inRun (heading toGen fromGen s) = true := hr
  obtain ⟨w, hw⟩ := watchFeedbacks_eq (s := landed .opening (heading toGen fromGen s))
  have hcap : (landed .opening (heading toGen fromGen s)).ros.cap = .limited 0 := by
    rw [landed_eq]
    dsimp only [XferState.confirms]
    split
    · exact enterXfer_cap ((inRun_congr enterXfer_rest.1).trans hh) rfl
    · exact enterXfer_cap hh rfl
  rw [startOpening_eq, moveXfer_run hh, hw]
  exact hcap

theorem withdrawn_generator : (withdrawClaim .generator s).bus.claims.generator = none := withdrawClaim_get (k := .generator)

/-- The generator that the transfer leaves for OPENING. -/
theorem startOpening_leaves {toGen fromGen : Bool} (hr : inRun s = true) (hx : s.src.xfer.state = .onGen) :
    (s.gen.state = .loaded → (startOpening toGen fromGen s).gen.state = .cooldown) ∧
      (startOpening toGen fromGen s).bus.claims.generator = none := by
  have hh : inRun (heading toGen fromGen s) = true := hr
  have hx' : (heading toGen fromGen s).src.xfer.state = .onGen := hx
  obtain ⟨w, hw⟩ := watchFeedbacks_eq (s := landed .opening (heading toGen fromGen s))
  obtain ⟨hgen, hbus⟩ := landed_opening (s := heading toGen fromGen s)
  have henter : enterXfer .opening (heading toGen fromGen s) =
      handCapacity (noticeLeftForOpening (xferEntered .opening (heading toGen fromGen s))) := by
    rw [enterXfer_eq, hx', transferNotices_eq]
    rfl
  have hentered : (xferEntered .opening (heading toGen fromGen s)).gen = s.gen := xferEntered_gen
  rw [startOpening_eq, moveXfer_run hh, hw]
  dsimp only
  rw [hgen, hbus, henter, handCapacity_gen, handCapacity_bus]
  refine ⟨fun hl => ?_, withdrawn_generator⟩
  unfold noticeLeftForOpening
  rw [withdrawClaim_gen, hentered, hl, if_pos (by decide), genEnter_gen]
  rfl

/-! ## FAULT (R84, R89) -/

section Fault

variable {c : XferCause}

/-- The state in which the notices of a FAULT are given. -/
def faultEntered (c : XferCause) (s : State) : State :=
  s |> setXfer (fun x => x.enterFault c (feedbacks s) (now s) s.clk.uptime)
    |> logEv .transfer (wordOf c.code) (wordOf s.src.xfer.state.code) (wordOf XferState.fault.code)

theorem enterFault_eq : enterFault c s = setCond Pt.transferFault true (transferNotices s.src.xfer.state .fault (faultEntered c s)) := rfl

theorem enterFault_src : (enterFault c s).src = { s.src with xfer := s.src.xfer.enterFault c (feedbacks s) (now s) s.clk.uptime } := by
  rw [enterFault_eq, setCond_src (by decide), transferNotices_noticed.1]
  exact logEv_src

theorem enterFault_cond (hs : Shape s) : condOf (enterFault c s) Pt.transferFault = true := by
  have hq : Shape (transferNotices s.src.xfer.state .fault (faultEntered c s)) := by
    have hshape : shape (enterFault c s) = shape s := (enterFault_quiet (Quiet.refl s)).shape
    rw [enterFault_eq, (setCond_quiet (Quiet.refl _)).shape] at hshape
    exact hshape.trans hs
  rw [enterFault_eq]
  exact condOf_setCond (by rw [conds_length hq]; decide)

/-- A FAULT: the cause and the feedbacks stand in the record, XFR_GCLOSE is released and TRANSFER_FAULT is set. -/
theorem enterFault_spec (hs : Shape s) :
    let t := enterFault c s
    t.src.xfer.state = .fault ∧ t.src.xfer.cause = c ∧ t.src.xfer.gclose = .released ∧
      (t.src.xfer.faultMains, t.src.xfer.faultGen) = feedbacks s ∧ condOf t Pt.transferFault = true := by
  intro t
  have hcond : condOf t Pt.transferFault = true := enterFault_cond hs
  have hsrc : t.src = _ := enterFault_src
  rw [hsrc, hcond]
  exact ⟨rfl, rfl, rfl, rfl, rfl⟩

/-- The generator that the transfer leaves for FAULT. -/
theorem enterFault_gen (hx : s.src.xfer.state = .onGen) (hl : s.gen.state = .loaded) : (enterFault c s).gen.state = .ready := by
  have hnotice : transferNotices s.src.xfer.state .fault (faultEntered c s) = handCapacity (noticeLeftForFault (faultEntered c s)) := by
    rw [hx]
    rfl
  have hentered : (faultEntered c s).gen = s.gen := logEv_gen
  rw [enterFault_eq, setCond_gen (by decide), hnotice, handCapacity_gen]
  unfold noticeLeftForFault
  rw [withdrawClaim_gen, hentered, hl, if_pos (by decide), genEnter_gen]
  rfl

end Fault

/-! ## The timers' judgement (R85) -/

/-- A steady state entered. -/
theorem moveXfer_steady (hc : st.confirms = none) :
    ∃ w, (moveXfer st s).src = { s.src with xfer := { s.src.xfer.enter st (now s) s.clk.uptime with mismatchWatch := w } } := by
  cases hr : inRun s with
  | true =>
    obtain ⟨w, hw⟩ := moveXfer_src (st := st) hr
    refine ⟨w, hw.trans ?_⟩
    unfold Xfer.land
    rw [hc]
  | false =>
    have hr' : inRun (enterXfer st s) = false := (inRun_congr enterXfer_rest.1).trans hr
    have hmove : moveXfer st s = enterXfer st s := if_neg (by rw [hr']; exact Bool.false_ne_true)
    rw [hmove, enterXfer_src]
    exact ⟨_, rfl⟩

theorem confirms_steady {x : XferState} (h : x.confirms = some st) : st.confirms = none := by
  cases x <;> cases h <;> rfl

/-- A state judged when its confirm time is over: confirmed, or FAULT with its cause. -/
theorem judgeConfirm_spec (hs : Shape s) (hc : s.src.xfer.state.confirms = some st) :
    let t := judgeConfirm s
    (feedbacksAgree s = true → t.src.xfer.state = st ∧ t.src.xfer.entered = now s) ∧
      (feedbacksAgree s = false → t.src.xfer.state = .fault ∧ t.src.xfer.cause = s.src.xfer.state.unconfirmed ∧
        t.src.xfer.gclose = .released ∧ (t.src.xfer.faultMains, t.src.xfer.faultGen) = feedbacks s ∧ condOf t Pt.transferFault = true) := by
  intro t
  have ht : t = if feedbacksAgree s then moveXfer st s else enterFault s.src.xfer.state.unconfirmed s := by
    unfold t judgeConfirm
    rw [hc]
  refine ⟨fun ha => ?_, fun ha => ?_⟩
  · obtain ⟨w, hw⟩ := moveXfer_steady (s := s) (confirms_steady hc)
    rw [ht, if_pos ha, hw]
    exact ⟨rfl, rfl⟩
  · rw [ht, if_neg (by rw [ha]; exact Bool.false_ne_true)]
    exact enterFault_spec hs

end Sys2Proof.Machine
end

section
/-! PROOFS. The rows of the Source Controller's evaluation (O40), its mains (O41), its timers (O42) and TRANSFER_RETRY (O43). -/

namespace Sys2Proof.Machine

variable {s t u : State} {st : XferState}

/-! ## Closing a side (R87) -/

/-- A transfer that closes the mains side. -/
theorem closingMains_spec (hr : inRun s = true) :
    let t := moveXfer .closingMains s
    t.src.xfer.state = (if feedbacks s = (true, false) then .onMains else .closingMains) ∧ t.src.xfer.headingGen = s.src.xfer.headingGen ∧
      t.src.xfer.mopen = .released ∧ t.src.xfer.gclose = .released := by
  intro t
  obtain ⟨w, hw⟩ := moveXfer_src (st := .closingMains) hr
  have ht : t = moveXfer .closingMains s := rfl
  have hexp : (XferState.closingMains.expected = some (feedbacks s)) = (feedbacks s = (true, false)) :=
    propext ⟨fun h => (Option.some.inj h).symm, fun h => congrArg some h.symm⟩
  rw [ht, hw]
  dsimp only [Xfer.land, XferState.confirms]
  simp only [hexp]
  split <;> exact ⟨rfl, rfl, rfl, rfl⟩

/-- A transfer that closes the generator's side. -/
theorem closingGen_spec (hr : inRun s = true) :
    let t := moveXfer .closingGen s
    t.src.xfer.state = (if feedbacks s = (false, true) then .onGen else .closingGen) ∧ t.src.xfer.mopen = .asserted ∧
      t.src.xfer.gclose = .asserted := by
  intro t
  obtain ⟨w, hw⟩ := moveXfer_src (st := .closingGen) hr
  have ht : t = moveXfer .closingGen s := rfl
  have hexp : (XferState.closingGen.expected = some (feedbacks s)) = (feedbacks s = (false, true)) :=
    propext ⟨fun h => (Option.some.inj h).symm, fun h => congrArg some h.symm⟩
  rw [ht, hw]
  dsimp only [Xfer.land, XferState.confirms]
  simp only [hexp]
  split <;> exact ⟨rfl, rfl, rfl⟩

/-- The transfer no longer heads for the generator. -/
def headingMains (s : State) : State := setXfer (fun x => { x with headingGen := false }) s

section DecideOpen

variable (hr : inRun s = true) (hx : s.src.xfer.state = .open) (hd : s.src.xfer.deadRun = true)
include hr hx hd

theorem decideOpen_decides : decideOpen s =
    if !s.src.xfer.headingGen then moveXfer .closingMains s
    else if !callForGen s then moveXfer .closingMains (headingMains s)
    else if onlineCapacity s ≤ s.gen.capacity then moveXfer .closingGen s
    else s := if_pos (by rw [hr, hx, hd]; rfl)

/-- Heading for the mains, or without a call, the mains side is closed. -/
theorem decideOpen_mains (h : s.src.xfer.headingGen = false ∨ callForGen s = false) :
    let t := decideOpen s
    t.src.xfer.state = (if feedbacks s = (true, false) then .onMains else .closingMains) ∧ t.src.xfer.headingGen = false ∧
      t.src.xfer.mopen = .released ∧ t.src.xfer.gclose = .released := by
  intro t
  cases hg : s.src.xfer.headingGen with
  | false =>
    have ht : t = moveXfer .closingMains s := (decideOpen_decides hr hx hd).trans (if_pos (by rw [hg]; rfl))
    obtain ⟨hstate, hhead, hm, hc⟩ := closingMains_spec (s := s) hr
    rw [ht]
    exact ⟨hstate, hhead.trans hg, hm, hc⟩
  | true =>
    have hcall : callForGen s = false := h.resolve_left (by rw [hg]; decide)
    have ht : t = moveXfer .closingMains (headingMains s) :=
      (decideOpen_decides hr hx hd).trans ((if_neg (by rw [hg]; decide)).trans (if_pos (by rw [hcall]; rfl)))
    obtain ⟨hstate, hhead, hm, hc⟩ := closingMains_spec (s := headingMains s) hr
    rw [ht]
    exact ⟨hstate, hhead, hm, hc⟩

theorem decideOpen_gen (hg : s.src.xfer.headingGen = true) (hcall : callForGen s = true) : decideOpen s =
    if onlineCapacity s ≤ s.gen.capacity then moveXfer .closingGen s else s :=
  (decideOpen_decides hr hx hd).trans ((if_neg (by rw [hg]; decide)).trans (if_neg (by rw [hcall]; decide)))

end DecideOpen

theorem decideOpen_waits (h : s.src.xfer.deadRun = false) : decideOpen s = s :=
  if_neg (by rw [h, Bool.and_false]; exact Bool.false_ne_true)

/-! ## ON_GEN (R88) -/

/-- The retransfer span of an evaluation ON_GEN. -/
def spanAfter (s : State) : Nat :=
  if s.src.mains.state = .present then min 65535 (s.src.mains.retransferSpan + 1) else s.src.mains.retransferSpan

theorem countRetransfer_onGen (hx : s.src.xfer.state = .onGen) : countRetransfer s =
    { s with src := { s.src with mains := { s.src.mains with retransferSpan := spanAfter s } } } := by
  unfold countRetransfer spanAfter
  by_cases hp : s.src.mains.state = .present
  · rw [if_pos ⟨hx, hp⟩, if_pos hp]
    rfl
  · rw [if_neg fun h => hp h.2, if_neg hp]

theorem retransferDue_onGen (hx : s.src.xfer.state = .onGen) : retransferDue (countRetransfer s) = true ↔
    retransferDelay s.settings ≤ spanAfter s ∧ loadForced s = false := by
  rw [countRetransfer_onGen hx, retransferDue, Bool.and_eq_true, decide_eq_true_eq, Bool.not_eq_true']
  exact Iff.rfl

theorem checkOnGen_leaves (h : retransferDue (countRetransfer s) = true ∨ release (countRetransfer s) = true) :
    checkOnGen s = startOpening false true (countRetransfer s) := if_pos (Bool.or_eq_true _ _ ▸ h)

theorem checkOnGen_stays (h : ¬ (retransferDue (countRetransfer s) = true ∨ release (countRetransfer s) = true)) :
    checkOnGen s = countRetransfer s := if_neg fun hc => h ((Bool.or_eq_true _ _).mp hc)

/-- The transfer leaves the generator at an evaluation. -/
theorem leavesGen_spec (hr : inRun s = true) (hx : s.src.xfer.state = .onGen) :
    let t := startOpening false true (countRetransfer s)
    t.src.xfer.state = (if feedbacks s = (false, false) then .open else .opening) ∧ t.src.xfer.headingGen = false ∧
      t.src.xfer.leftGen = true ∧ t.src.xfer.gclose = .released ∧ t.src.xfer.mopen = .asserted ∧
      t.src.mains = { s.src.mains with retransferSpan := spanAfter s } ∧ (s.gen.state = .loaded → t.gen.state = .cooldown) ∧
      t.bus.claims.generator = none := by
  intro t
  have hspan := countRetransfer_onGen hx
  have ht : t = startOpening false true (countRetransfer s) := rfl
  clear_value t
  generalize countRetransfer s = v at hspan ht
  have hrv : inRun v = true := by rw [hspan]; exact hr
  have hxv : v.src.xfer.state = .onGen := by rw [hspan]; exact hx
  have hfb : feedbacks v = feedbacks s := by rw [hspan]; rfl
  have hgen : v.gen = s.gen := by rw [hspan]
  have hmains : v.src.mains = { s.src.mains with retransferSpan := spanAfter s } := by rw [hspan]
  obtain ⟨hstate, hhead, hleft, hm, hc, hkept⟩ := startOpening_spec (toGen := false) (fromGen := true) hrv
  obtain ⟨hcool, hclaim⟩ := startOpening_leaves (toGen := false) (fromGen := true) hrv hxv
  rw [hfb] at hstate
  rw [hgen] at hcool
  rw [ht]
  exact ⟨hstate, hhead, hleft, hc, hm, hkept.trans hmains, hcool, hclaim⟩

/-! ## The evaluation (R86 to R88) -/

section Evaluation

variable (hr : inRun s = true)
include hr

/-- The decision of an evaluation by the state of the transfer, after the check of MAINS_FAIL. -/
theorem sourceEvaluation_onMains (hx : s.src.xfer.state = .onMains) : sourceEvaluation s =
    if callForGen (checkMainsFail s) then startOpening true false (checkMainsFail s) else checkMainsFail s := by
  unfold sourceEvaluation
  rw [if_pos hr]
  dsimp only
  rw [checkMainsFail_xfer, hx]

theorem sourceEvaluation_open (hx : s.src.xfer.state = .open) : sourceEvaluation s = decideOpen (checkMainsFail s) := by
  unfold sourceEvaluation
  rw [if_pos hr]
  dsimp only
  rw [checkMainsFail_xfer, hx]

theorem sourceEvaluation_onGen (hx : s.src.xfer.state = .onGen) : sourceEvaluation s = checkOnGen (checkMainsFail s) := by
  unfold sourceEvaluation
  rw [if_pos hr]
  dsimp only
  rw [checkMainsFail_xfer, hx]

theorem sourceEvaluation_fault (hx : s.src.xfer.state = .fault) : sourceEvaluation s = checkMainsFail s := by
  unfold sourceEvaluation
  rw [if_pos hr]
  dsimp only
  rw [checkMainsFail_xfer, hx]

theorem sourceEvaluation_confirms {st : XferState} (hc : s.src.xfer.state.confirms = some st) : sourceEvaluation s =
    if s.src.xfer.confirmTimer then checkMainsFail s else judgeConfirm (checkMainsFail s) := by
  unfold sourceEvaluation
  rw [if_pos hr]
  dsimp only
  rw [checkMainsFail_xfer]
  cases hx : s.src.xfer.state
  case opening => rfl
  case closingGen => rfl
  case closingMains => rfl
  all_goals
    rw [hx] at hc
    cases hc

theorem checkMainsFail_inRun : inRun (checkMainsFail s) = true := (aside_inRun checkMainsFail_aside).trans hr

omit hr

theorem checkMainsFail_feedbacks : feedbacks (checkMainsFail s) = feedbacks s := feedbacks_congr (aside_inp checkMainsFail_aside)

theorem checkMainsFail_online : onlineCapacity (checkMainsFail s) = onlineCapacity s :=
  onlineCapacity_congr (modState_congr (modRec_congr (by rw [aside_ros checkMainsFail_aside]))) (aside_settings checkMainsFail_aside)

end Evaluation

/-- The evaluation ON_MAINS. -/
theorem sourceRow_onMains (hr : inRun s = true) (hx : s.src.xfer.state = .onMains) :
    let u := checkMainsFail s
    (callForGen u = true → ∃ t, exec .sourceControllerEvaluation s = .next t ∧
      t.src.xfer.state = (if feedbacks s = (false, false) then .open else .opening) ∧ t.src.xfer.headingGen = true ∧
      t.src.xfer.leftGen = false ∧ t.src.xfer.mopen = .asserted ∧ t.src.xfer.gclose = .released ∧ t.ros.cap = .limited 0 ∧
      t.gen.requests = u.gen.requests ∧ t.src.mains = u.src.mains) ∧
    (callForGen u = false → exec .sourceControllerEvaluation s = .next u) := by
  intro u
  have heval := sourceEvaluation_onMains hr hx
  have hru : inRun u = true := checkMainsFail_inRun hr
  have hfb : feedbacks u = feedbacks s := checkMainsFail_feedbacks
  refine ⟨fun hcall => ⟨startOpening true false u, ?_, ?_⟩, fun hcall => ?_⟩
  · exact congrArg Host.Outcome.next (heval.trans (if_pos hcall))
  · obtain ⟨hstate, hhead, hleft, hm, hc, hkept⟩ := startOpening_spec (toGen := true) (fromGen := false) hru
    rw [hfb] at hstate
    exact ⟨hstate, hhead, hleft, hm, hc, startOpening_cap hru, startOpening_requests hru, hkept⟩
  · exact congrArg Host.Outcome.next (heval.trans (if_neg (by rw [hcall]; exact Bool.false_ne_true)))

/-- The evaluation in OPEN. -/
theorem sourceRow_open (hr : inRun s = true) (hx : s.src.xfer.state = .open) :
    let u := checkMainsFail s
    (s.src.xfer.deadRun = false → exec .sourceControllerEvaluation s = .next u) ∧
    (s.src.xfer.deadRun = true → s.src.xfer.headingGen = false ∨ callForGen u = false →
      ∃ t, exec .sourceControllerEvaluation s = .next t ∧
        t.src.xfer.state = (if feedbacks s = (true, false) then .onMains else .closingMains) ∧ t.src.xfer.headingGen = false ∧
        t.src.xfer.mopen = .released ∧ t.src.xfer.gclose = .released) ∧
    (s.src.xfer.deadRun = true → s.src.xfer.headingGen = true → callForGen u = true →
      (onlineCapacity s ≤ s.gen.capacity → ∃ t, exec .sourceControllerEvaluation s = .next t ∧
        t.src.xfer.state = (if feedbacks s = (false, true) then .onGen else .closingGen) ∧ t.src.xfer.mopen = .asserted ∧
        t.src.xfer.gclose = .asserted) ∧
      (s.gen.capacity < onlineCapacity s → exec .sourceControllerEvaluation s = .next u)) := by
  intro u
  have hrow : exec .sourceControllerEvaluation s = .next (decideOpen u) := congrArg Host.Outcome.next (sourceEvaluation_open hr hx)
  have hru : inRun u = true := checkMainsFail_inRun hr
  have hxu : u.src.xfer = s.src.xfer := checkMainsFail_xfer
  have hfb : feedbacks u = feedbacks s := checkMainsFail_feedbacks
  have honline : onlineCapacity u = onlineCapacity s := checkMainsFail_online
  have hcap : u.gen.capacity = s.gen.capacity := checkMainsFail_capacity
  clear_value u
  rw [← hxu] at hx
  rw [hrow, ← hxu, ← hfb, ← honline, ← hcap]
  refine ⟨fun hd => congrArg Host.Outcome.next (decideOpen_waits hd), fun hd h => ⟨decideOpen u, rfl, decideOpen_mains hru hx hd h⟩,
    fun hd hg hcall => ⟨fun hle => ⟨decideOpen u, rfl, ?_⟩, fun hlt => ?_⟩⟩
  · rw [decideOpen_gen hru hx hd hg hcall, if_pos hle]
    exact closingGen_spec hru
  · rw [decideOpen_gen hru hx hd hg hcall, if_neg (Nat.not_le.2 hlt)]

/-- The evaluation ON_GEN. -/
theorem sourceRow_onGen (hr : inRun s = true) (hx : s.src.xfer.state = .onGen) :
    let u := checkMainsFail s
    let span := if s.src.mains.state = .present then min 65535 (s.src.mains.retransferSpan + 1) else s.src.mains.retransferSpan
    let leaves := (retransferDelay s.settings ≤ span ∧ loadForced u = false) ∨ release u = true
    (leaves → ∃ t, exec .sourceControllerEvaluation s = .next t ∧
      t.src.xfer.state = (if feedbacks s = (false, false) then .open else .opening) ∧ t.src.xfer.headingGen = false ∧
      t.src.xfer.leftGen = true ∧ t.src.xfer.gclose = .released ∧ t.src.xfer.mopen = .asserted ∧
      t.src.mains = { u.src.mains with retransferSpan := span } ∧ (u.gen.state = .loaded → t.gen.state = .cooldown) ∧
      t.bus.claims.generator = none) ∧
    (¬ leaves → exec .sourceControllerEvaluation s = .next { u with
      src := { u.src with mains := { u.src.mains with retransferSpan := span } } }) := by
  intro u span leaves
  have hrow : exec .sourceControllerEvaluation s = .next (checkOnGen u) := congrArg Host.Outcome.next (sourceEvaluation_onGen hr hx)
  have hru : inRun u = true := checkMainsFail_inRun hr
  have hxu : u.src.xfer.state = .onGen := (congrArg Xfer.state checkMainsFail_xfer).trans hx
  have hfb : feedbacks u = feedbacks s := checkMainsFail_feedbacks
  have hset : u.settings = s.settings := aside_settings checkMainsFail_aside
  have hspan : spanAfter u = span := by
    obtain ⟨b, hb⟩ := checkMainsFail_mains (s := s)
    unfold spanAfter
    rw [show u.src = _ from hb]
  have hcount : countRetransfer u = { u with src := { u.src with mains := { u.src.mains with retransferSpan := span } } } := by
    rw [countRetransfer_onGen hxu, hspan]
  have hdue : retransferDue (countRetransfer u) = true ↔ retransferDelay s.settings ≤ span ∧ loadForced u = false := by
    rw [retransferDue_onGen hxu, hspan, hset]
  have hrelease : release (countRetransfer u) = release u := by rw [hcount]; rfl
  have hleaves : leaves ↔ retransferDue (countRetransfer u) = true ∨ release (countRetransfer u) = true := by
    rw [hdue, hrelease]
  rw [hrow, hleaves]
  refine ⟨fun h => ⟨checkOnGen u, rfl, ?_⟩, fun h => ?_⟩
  · have hspec := leavesGen_spec hru hxu
    rw [hfb, hspan] at hspec
    rw [checkOnGen_leaves h]
    exact hspec
  · rw [checkOnGen_stays h, hcount]

/-- The evaluation that judges a kept state whose confirm timer ran out in start-up. -/
theorem sourceRow_confirms (hs : Shape s) (hr : inRun s = true) (hc : s.src.xfer.state.confirms = some st) (ht : s.src.xfer.confirmTimer = false) :
    ∃ t, exec .sourceControllerEvaluation s = .next t ∧
      (feedbacksAgree s = true → t.src.xfer.state = st ∧ t.src.xfer.entered = now s) ∧
      (feedbacksAgree s = false → t.src.xfer.state = .fault ∧ t.src.xfer.cause = s.src.xfer.state.unconfirmed ∧
        t.src.xfer.gclose = .released ∧ condOf t Pt.transferFault = true) := by
  have hrow : exec .sourceControllerEvaluation s = .next (judgeConfirm (checkMainsFail s)) :=
    congrArg Host.Outcome.next ((sourceEvaluation_confirms hr hc).trans (if_neg (by rw [ht]; exact Bool.false_ne_true)))
  have hxu : (checkMainsFail s).src.xfer = s.src.xfer := checkMainsFail_xfer
  have hfb : feedbacks (checkMainsFail s) = feedbacks s := checkMainsFail_feedbacks
  have hnow : now (checkMainsFail s) = now s := aside_now checkMainsFail_aside
  have hsu : Shape (checkMainsFail s) := (checkMainsFail_quiet (Quiet.refl s)).shape.trans hs
  have hagree : feedbacksAgree s = feedbacksAgree (checkMainsFail s) := by rw [feedbacksAgree, feedbacksAgree, hxu, hfb]
  obtain ⟨hyes, hno⟩ := judgeConfirm_spec hsu (st := st) (by rw [hxu]; exact hc)
  rw [hagree, ← hnow, ← hxu]
  refine ⟨_, hrow, hyes, fun ha => ?_⟩
  obtain ⟨hstate, hcause, hclose, -, hcond⟩ := hno ha
  exact ⟨hstate, hcause, hclose, hcond⟩

theorem exec_retransferReached (hr : inRun s = true) (hx : s.src.xfer.state = .onGen) (hd : retransferDue (countRetransfer s) = true) :
    exec .retransferSpanReached s = .next (startOpening false true (countRetransfer s)) := by
  have hrow : exec .retransferSpanReached s =
      whenDue (inRun s && s.src.xfer.state == .onGen && retransferDue (countRetransfer s)) checkOnGen s := rfl
  rw [hrow, whenDue_true (by rw [hr, hx, hd]; rfl), checkOnGen_leaves (.inl hd)]

/-- Settles O40: the check of MAINS_FAIL, then the decision by the state of the transfer. -/
theorem sourceRows : Obligations.SourceRows := by
  refine ⟨fun s => checkMainsFail_spec, fun s hr => ?_, fun st s hs hr hc ht => sourceRow_confirms hs hr hc ht,
    fun s hr hx hd => ⟨_, exec_retransferReached hr hx hd, ?_⟩⟩
  · intro u
    refine ⟨sourceRow_onMains hr, sourceRow_open hr, sourceRow_onGen hr, fun h => ?_⟩
    rcases h with hx | ⟨hc, ht⟩
    · exact congrArg Host.Outcome.next (sourceEvaluation_fault hr hx)
    · obtain ⟨st, hst⟩ := Option.isSome_iff_exists.1 hc
      exact congrArg Host.Outcome.next ((sourceEvaluation_confirms hr hst).trans (if_pos ht))
  · obtain ⟨hstate, hhead, hleft, hclose, hopen, -, hcool, hclaim⟩ := leavesGen_spec hr hx
    exact ⟨hstate, hhead, hleft, hclose, hopen, hcool, hclaim⟩

end Sys2Proof.Machine
end

section
/-! PROOFS. The rows of the mains (O41), the timers of the transfer (O42) and TRANSFER_RETRY (O43). -/

namespace Sys2Proof.Machine

variable {s t u : State} {st : XferState} {f : Nat}

/-! ## The rows of the mains (R79 to R81) -/

/-- MAINS_FAIL posted at an outage delay reached. -/
theorem outageDelay_posts (hd : mainsFailDue s = true) (hh : s.src.mains.failHeld = false) :
    let t := checkMainsFail s
    t.src.mains.failHeld = true ∧ requested t .mainsFail = true ∧
      (requested s .mainsFail = false → t.gen.requests.mainsFail = some ⟨now s, true, 0⟩) ∧
      t.gen.requests.depth = s.gen.requests.depth ∧ t.gen.requests.exercise = s.gen.requests.exercise ∧
      t.gen.requests.manual = s.gen.requests.manual := by
  intro t
  obtain ⟨hsrc, -, hreq, hnew, hdepth, hex, hman⟩ := postMainsFail_spec (s := failMarked true s) (mainsFailDue_parts hd).1
  have ht : t = _ := checkMainsFail_posts hh hd
  rw [ht, hsrc]
  exact ⟨rfl, hreq, fun hno => by rw [hnew hno]; rfl, hdepth, hex, hman⟩

theorem qualifyDue_iff : qualifyDue s = true ↔ s.src.mains.state = .qualifying ∧ qualifyTime s.settings ≤ s.src.mains.qualifySpan + 1 := by
  rw [qualifyDue, Bool.and_eq_true, beq_iff_eq, decide_eq_true_eq]

theorem qualityDue_iff : qualityDue s = true ↔ s.src.mains.state = .present ∧ qualityTime s.settings ≤ s.src.mains.qualitySpan + 1 := by
  rw [qualityDue, Bool.and_eq_true, beq_iff_eq, decide_eq_true_eq]

theorem mainsQualifies_conds : (mainsQualifies s).conds = (s.conds.set Pt.mainsAbsent false).set Pt.mainsQuality false := by
  unfold mainsQualifies
  dsimp only
  rw [conds_setCond, conds_setCond, logEv_conds]
  exact congrArg (fun l : List Bool => (l.set Pt.mainsAbsent false).set Pt.mainsQuality false) changeMains_conds

/-- The result that completes the qualify span. -/
theorem qualified_spec (hs : Shape s) (hd : qualifyDue s = true) (hw : inFreqWindow s f = true) :
    let t := sourceFrequency f s
    t.src.mains.state = .present ∧ t.src.mains.entered = now s ∧ t.src.mains.qualifyFailures = 0 ∧ t.src.mains.retransferSpan = 0 ∧
      condOf t Pt.mainsAbsent = false ∧ condOf t Pt.mainsQuality = false := by
  intro t
  obtain ⟨hstate, hspan⟩ := qualifyDue_iff.1 hd
  have ht : t = _ := sourceFrequency_qualifies hstate hw hspan
  generalize hv : setMains (fun m => { m with qualifySpan := m.qualifySpan + 1 }) (withFreq f s) = v at ht
  have hnow : now v = now s := by rw [← hv]; rfl
  have hlen : v.conds.length = 32 := by rw [← hv]; exact conds_length hs
  have hconds := mainsQualifies_conds (s := v)
  rw [ht, mainsQualifies_src, hnow]
  refine ⟨rfl, rfl, rfl, rfl, ?_, condOf_set hconds (by rw [List.length_set, hlen]; decide)⟩
  rw [condOf_set_ne hconds (by decide), List.getD_eq_getElem?_getD, List.getElem?_set_self (by rw [hlen]; decide)]
  rfl

/-- The result that completes the quality span. -/
theorem qualityLost_spec (hs : Shape s) (hd : qualityDue s = true) (hw : inFreqWindow s f = false) :
    let t := sourceFrequency f s
    t.src.mains.state = .absent ∧ t.src.mains.outageStart = now s ∧ t.src.mains.outages = satInc s.src.mains.outages ∧
      t.src.mains.qualifyFailures = 0 ∧ condOf t Pt.mainsAbsent = true ∧ condOf t Pt.mainsQuality = true := by
  intro t
  obtain ⟨hstate, hspan⟩ := qualityDue_iff.1 hd
  have ht : t = _ := sourceFrequency_outage hstate hw hspan
  generalize hv : setMains (fun m => { m with qualitySpan := m.qualitySpan + 1 }) (withFreq f s) = v at ht
  have hnow : now v = now s := by rw [← hv]; rfl
  have hout : v.src.mains.outages = s.src.mains.outages := by rw [← hv]; rfl
  have hlen : v.conds.length = 32 := by rw [← hv]; exact conds_length hs
  have hconds := startOutage_conds (s := v) (b := true)
  rw [if_pos rfl] at hconds
  rw [ht, startOutage_src, hnow, ← hout]
  refine ⟨rfl, rfl, rfl, rfl, ?_, condOf_set hconds (by rw [List.length_set, hlen]; decide)⟩
  rw [condOf_set_ne hconds (by decide), List.getD_eq_getElem?_getD, List.getElem?_set_self (by rw [hlen]; decide)]
  rfl

/-- A dip that outlasts its tolerance. -/
theorem dipExpiry_spec (hs : Shape s) (hd : s.src.mains.state = .dip) :
    let t := dipExpiry s
    t.src.mains.state = .absent ∧ t.src.mains.entered = now s ∧ t.src.mains.outageStart = now s ∧
      t.src.mains.outages = satInc s.src.mains.outages ∧ t.src.mains.retransferSpan = 0 ∧ condOf t Pt.mainsAbsent = true := by
  intro t
  have ht : t = startOutage false s := if_pos hd
  have hconds := startOutage_conds (s := s) (b := false)
  rw [if_neg Bool.false_ne_true] at hconds
  rw [ht, startOutage_src]
  exact ⟨rfl, rfl, rfl, rfl, rfl, condOf_set hconds (by rw [conds_length hs]; decide)⟩

/-! ## The outage start delay stored (R78) -/

theorem settingTaken_outageDelay {old : Word} : settingTaken 0x22F old s = outageDelayStored s := by
  rw [settingTaken, if_neg (by omega), if_pos (by omega), plantStored, if_neg (by omega), if_neg (by omega), if_neg (by omega),
    if_neg (by omega), if_pos rfl]

theorem outageDelay_stored {v : Word} (h : Shape s) : outageDelay (stored 0x22F v s).settings = v.toNat := by
  have hl : s.settings.length = 640 := by simp_all [Shape, shape]
  simp [outageDelay, stored, natIn, wordIn, setWord, heartbeat_settings, List.getD, hl]

theorem outageDelayStored_zero (h : outageDelay s.settings = 0) (hh : s.src.mains.failHeld = true) :
    outageDelayStored s = removeRequest .mainsFail Reason.withdrawn (failMarked false s) := by
  have hover : mainsFailOver s = true := by
    unfold mainsFailOver
    rw [h]
    exact Bool.or_true _
  exact (if_pos h).trans (withdrawMainsFail_over hh hover)

theorem outageDelayStored_stays (h : outageDelay s.settings ≠ 0 ∨ s.src.mains.failHeld = false) : outageDelayStored s = s := by
  unfold outageDelayStored
  split
  · next h0 => exact withdrawMainsFail_stays fun hh => by rw [h.resolve_left (Classical.not_not.2 h0)] at hh; cases hh
  · rfl

/-- Settles O41: each row by the operation that it runs. -/
theorem mainsRows : Obligations.MainsRows := by
  refine ⟨fun s hr hd hh => ⟨checkMainsFail s, whenDue_true (by rw [hr, hd]; rfl), outageDelay_posts hd hh⟩,
    fun s hs hr hd => ⟨dipExpiry s, whenDue_true hr, dipExpiry_spec hs hd⟩,
    fun s hs hr => ⟨fun hd hw => ⟨_, ?qualified, qualified_spec hs hd hw⟩, fun hd hw => ⟨_, ?quality, qualityLost_spec hs hd hw⟩⟩,
    fun v s hst => ?stored⟩
  case qualified =>
    have hrow : exec .mainsQualified s = whenDue (inRun s && qualifyDue s && inFreqWindow s s.src.mains.lastFreq)
        (fun t => sourceFrequency t.src.mains.lastFreq t) s := rfl
    rw [hrow, whenDue_true (f := fun t => sourceFrequency t.src.mains.lastFreq t) (by rw [hr, hd, hw]; rfl)]
  case quality =>
    have hrow : exec .qualitySpanReached s = whenDue (inRun s && qualityDue s && !inFreqWindow s s.src.mains.lastFreq)
        (fun t => sourceFrequency t.src.mains.lastFreq t) s := rfl
    rw [hrow, whenDue_true (f := fun t => sourceFrequency t.src.mains.lastFreq t) (by rw [hr, hd, hw]; rfl)]
  case stored =>
    obtain ⟨hs, hlisten, hguard⟩ := hst
    intro u
    have hdelay : outageDelay u.settings = v.toNat := outageDelay_stored hs
    have hv : v = 0 ↔ outageDelay u.settings = 0 := by
      rw [hdelay]
      exact BitVec.toNat_eq.trans Iff.rfl
    refine ⟨outageDelayStored u, ?_, fun h => ?_, fun h0 hh => ?_⟩
    · rw [guardedWrite_stores hlisten (by decide) (by decide) hguard]
      exact congrArg Host.Outcome.next settingTaken_outageDelay
    · exact outageDelayStored_stays (h.imp_left (mt hv.2))
    · rw [outageDelayStored_zero (hv.1 h0) hh, removeRequest_withdrawn.1, requested, removeRequest_requests]
      exact ⟨rfl, rfl, rfl, rfl, rfl⟩

/-! ## The timers of the transfer (R84, R85, R87, R89, R93) -/

theorem confirmExpiry_run (hr : inRun s = true) (hc : s.src.xfer.state.confirms.isSome = true) (ht : s.src.xfer.confirmTimer = true) :
    confirmExpiry s = judgeConfirm s := (if_pos (by rw [hc, ht]; rfl)).trans (if_pos hr)

theorem confirmExpiry_starting (hr : inRun s = false) (hc : s.src.xfer.state.confirms.isSome = true) (ht : s.src.xfer.confirmTimer = true) :
    confirmExpiry s = setXfer (fun x => { x with confirmTimer := false }) s :=
  (if_pos (by rw [hc, ht]; rfl)).trans (if_neg (by rw [hr]; exact Bool.false_ne_true))

theorem mismatchExpiry_due (hr : inRun s = true) (hw : s.src.xfer.mismatchWatch = true) (ha : feedbacksAgree s = false) :
    mismatchExpiry s = enterFault .mismatch s := if_pos (by rw [hr, hw, ha]; rfl)

/-- The dead time has run. -/
def deadTimeRun (s : State) : State := setXfer (fun x => { x with deadTimer := false, deadRun := true }) s

theorem deadTimeExpiry_due (hx : s.src.xfer.state = .open) (hd : s.src.xfer.deadTimer = true) :
    deadTimeExpiry s = decideOpen (deadTimeRun s) := if_pos (by rw [hx, hd]; rfl)

/-- Settles O42: each timer by the state in which it expires. -/
theorem transferTimers : Obligations.TransferTimers := by
  refine ⟨fun st s hs hr hc ht => ⟨judgeConfirm s, ?confirm, judgeConfirm_spec hs hc⟩, fun s hr hc ht => ?starting,
    fun s hs hr hw ha => ⟨enterFault .mismatch s, ?mismatch, ?fault⟩, fun s hx hd => ⟨decideOpen (deadTimeRun s), ?deadTime, ?decided⟩,
    fun s => ⟨fun hx hp => ?release, fun h => ?waits⟩⟩
  case confirm => exact congrArg Host.Outcome.next (confirmExpiry_run hr (by rw [hc]; rfl) ht)
  case starting => exact congrArg Host.Outcome.next (confirmExpiry_starting hr hc ht)
  case mismatch => exact congrArg Host.Outcome.next (mismatchExpiry_due hr hw ha)
  case fault =>
    obtain ⟨hstate, hcause, hclose, -, hcond⟩ := enterFault_spec (c := .mismatch) hs
    exact ⟨hstate, hcause, hclose, hcond, enterFault_gen⟩
  case deadTime => exact congrArg Host.Outcome.next (deadTimeExpiry_due hx hd)
  case decided =>
    refine ⟨fun hr hg => ?_, fun hr hg hcall hle => ?_, fun hr hg hcall => ?_, fun hr => ?_⟩
    · obtain ⟨hstate, -, hm, hc⟩ := decideOpen_mains (s := deadTimeRun s) hr hx rfl (.inl hg)
      exact ⟨hstate, hm, hc⟩
    · have hle' : onlineCapacity (deadTimeRun s) ≤ (deadTimeRun s).gen.capacity := hle
      rw [decideOpen_gen (s := deadTimeRun s) hr hx rfl hg hcall, if_pos hle']
      exact closingGen_spec (s := deadTimeRun s) hr
    · obtain ⟨hstate, -, -, hc⟩ := decideOpen_mains (s := deadTimeRun s) hr hx rfl (.inr hcall)
      exact ⟨hstate, hc⟩
    · have hr' : inRun (deadTimeRun s) = false := hr
      exact if_neg (by rw [hr']; exact Bool.false_ne_true)
  case release => exact congrArg Host.Outcome.next (if_pos (by rw [hx, hp]; rfl))
  case waits =>
    refine congrArg Host.Outcome.next (if_neg ?_)
    rw [Bool.and_eq_true, beq_iff_eq]
    rintro ⟨hx, hp⟩
    rcases h with h | h
    · exact h hx
    · rw [h] at hp
      cases hp

/-! ## TRANSFER_RETRY (R89) -/

/-- A retry that finds the mains closed. -/
def retried (s : State) : State :=
  s |> setXfer (fun x => { x with cause := .none }) |> moveXfer .onMains |> setCond Pt.transferFault false

/-- A retry that finds other feedbacks notes them. -/
def retryNoted (s : State) : State := setXfer (fun x => { x with faultMains := (feedbacks s).1, faultGen := (feedbacks s).2 }) s

theorem transferRetry_elsewhere (hx : s.src.xfer.state ≠ .fault) : transferRetry s = (s, .refusedState, 1) := if_pos hx

theorem transferRetry_pending (hx : s.src.xfer.state = .fault) (hp : s.src.xfer.releasePending = true) :
    transferRetry s = (s, .refusedBusy, 1) := (if_neg (Classical.not_not.2 hx)).trans (if_pos hp)

section Free

variable (hx : s.src.xfer.state = .fault) (hp : s.src.xfer.releasePending = false)
include hx hp

theorem transferRetry_free : transferRetry s =
    if feedbacks s = (true, false) then (retried s, .done, 0) else (retryNoted s, .refusedState, 2) :=
  (if_neg (Classical.not_not.2 hx)).trans (if_neg (by rw [hp]; exact Bool.false_ne_true))

end Free

theorem retried_spec :
    (retried s).src.xfer.state = .onMains ∧ (retried s).src.xfer.mopen = .released ∧ (retried s).src.xfer.gclose = .released ∧
      (retried s).src.xfer.cause = .none ∧ condOf (retried s) Pt.transferFault = false := by
  obtain ⟨w, hw⟩ := moveXfer_steady (st := .onMains) (s := setXfer (fun x => { x with cause := .none }) s) rfl
  have hcond : condOf (retried s) Pt.transferFault = false := condOf_withdrawn
  have hsrc : (retried s).src = (moveXfer .onMains (setXfer (fun x => { x with cause := .none }) s)).src := setCond_src (by decide)
  rw [hsrc, hw, hcond]
  exact ⟨rfl, rfl, rfl, rfl, rfl⟩

theorem commanded_src {slot : Fin 16} {op : Nat} {tag : BitVec 8} :
    (commanded slot op tag s).src = (ruled slot op tag s).1.src := logEv_src

/-- The outcome of a retry. -/
theorem transferRetry_outcome :
    (s.src.xfer.state ≠ .fault → (transferRetry s).2 = (.refusedState, 1) ∧ (transferRetry s).1.src = s.src) ∧
    (s.src.xfer.state = .fault → s.src.xfer.releasePending = true →
      (transferRetry s).2 = (.refusedBusy, 1) ∧ (transferRetry s).1.src = s.src) ∧
    (s.src.xfer.state = .fault → s.src.xfer.releasePending = false → feedbacks s ≠ (true, false) →
      (transferRetry s).2 = (.refusedState, 2) ∧ (transferRetry s).1.src.xfer.state = .fault ∧
      ((transferRetry s).1.src.xfer.faultMains, (transferRetry s).1.src.xfer.faultGen) = feedbacks s) ∧
    (s.src.xfer.state = .fault → s.src.xfer.releasePending = false → feedbacks s = (true, false) →
      (transferRetry s).2 = (.done, 0) ∧ (transferRetry s).1.src.xfer.state = .onMains ∧
      (transferRetry s).1.src.xfer.mopen = .released ∧ (transferRetry s).1.src.xfer.gclose = .released ∧
      (transferRetry s).1.src.xfer.cause = .none ∧ condOf (transferRetry s).1 Pt.transferFault = false) := by
  refine ⟨fun hx => ?_, fun hx hp => ?_, fun hx hp hf => ?_, fun hx hp hf => ?_⟩
  · rw [transferRetry_elsewhere hx]
    exact ⟨rfl, rfl⟩
  · rw [transferRetry_pending hx hp]
    exact ⟨rfl, rfl⟩
  · rw [transferRetry_free hx hp, if_neg hf]
    exact ⟨rfl, hx, rfl⟩
  · rw [transferRetry_free hx hp, if_pos hf]
    exact ⟨rfl, retried_spec⟩

/-- Settles O43: the reply and the transfer by what the retry finds. -/
theorem Settled.transferRetry : Obligations.TransferRetry := by
  intro slot tag s hs hl hd u
  have hrule : ruled slot Op.transferRetry tag s = Machine.transferRetry u := rfl
  refine ⟨commanded slot Op.transferRetry tag s, exec_command rfl (by decide) (by decide) hl hd, ?_⟩
  rw [replyOf_commanded hs, commanded_src, commanded_condOf, hrule]
  exact transferRetry_outcome

end Sys2Proof.Machine
end

section
/-! PROOFS. ALARM_EVALUATION (O51), the points that a change leaves standing, and the outputs that follow them (R137). -/

namespace Sys2Proof.Machine

variable {s t u : State} {p q : Nat} {b : Bool}

/-! ## Threshold points (R129, R130) -/

theorem setCopy_rest : aside false (setCopy p b s) = aside false (withCopy p b s) := setCopy_aside nofun

theorem thresholdInput_congr (hscan : t.scan = s.scan) (hstr : t.str = s.str) : thresholdInput t p = thresholdInput s p := by
  have hmean : ∀ c, validMean t c = validMean s c := fun c => by rw [validMean, chan_congr hscan, meanOf_congr hscan, validMean]
  unfold thresholdInput
  rw [hmean, hmean, hmean, hstr]

theorem thresholdJudged_congr (hscan : t.scan = s.scan) (hstr : t.str = s.str) (hset : t.settings = s.settings) (hcopy : copyOf t p = copyOf s p) :
    thresholdJudged t p = thresholdJudged s p := by
  unfold thresholdJudged
  rw [thresholdInput_congr hscan hstr, hset, hcopy]

theorem thresholdJudged_invalid (h : thresholdInput s p = none) : thresholdJudged s p = copyOf s p := by rw [thresholdJudged, h]

/-- The points of a list judged one after the other. -/
def judgeAll (l : List Nat) (s : State) : State := l.foldl (fun t p => setCopy p (thresholdJudged t p) t) s

theorem judgeAll_spec {l : List Nat} (hn : l.Nodup) (hlt : ∀ p ∈ l, p < s.alm.copies.length) :
    (∀ p ∈ l, copyOf (judgeAll l s) p = thresholdJudged s p) ∧ (∀ p, p ∉ l → copyOf (judgeAll l s) p = copyOf s p) ∧
      (judgeAll l s).conds = s.conds := by
  induction l generalizing s with
  | nil => exact ⟨nofun, fun _ _ => rfl, rfl⟩
  | cons a l ih =>
    obtain ⟨ha, hl⟩ := List.nodup_cons.1 hn
    have hside : aside false (setCopy a (thresholdJudged s a) s) = aside false (withCopy a (thresholdJudged s a) s) := setCopy_rest
    have hcopies : (setCopy a (thresholdJudged s a) s).alm.copies = s.alm.copies.set a (thresholdJudged s a) := aside_copies hside
    have hscan := aside_scan hside
    have hstr := aside_str hside
    have hset := aside_settings hside
    have hconds := aside_conds hside
    have hstep : judgeAll (a :: l) s = judgeAll l (setCopy a (thresholdJudged s a) s) := rfl
    generalize setCopy a (thresholdJudged s a) s = w at hcopies hscan hstr hset hconds hstep
    have hcopy : ∀ q, a ≠ q → copyOf w q = copyOf s q := fun q hq => by
      rw [copyOf, hcopies, List.getD_eq_getElem?_getD, List.getElem?_set_ne hq, copyOf, List.getD_eq_getElem?_getD]
    have hself : copyOf w a = thresholdJudged s a := by
      rw [copyOf, hcopies, List.getD_eq_getElem?_getD, List.getElem?_set_self (hlt a List.mem_cons_self)]
      rfl
    obtain ⟨hin, hout, hkept⟩ := ih hl (s := w) fun p hp => by
      rw [hcopies, List.length_set]
      exact hlt p (List.mem_cons_of_mem _ hp)
    rw [hstep]
    refine ⟨fun p hp => ?_, fun p hp => ?_, hkept.trans hconds⟩
    · rcases List.mem_cons.1 hp with rfl | hp
      · exact (hout p ha).trans hself
      · have hne : a ≠ p := fun h => ha (h ▸ hp)
        exact (hin p hp).trans (thresholdJudged_congr (s := s) hscan hstr hset (hcopy p hne))
    · obtain ⟨hne, hpl⟩ := List.ne_and_not_mem_of_not_mem_cons hp
      rw [hout p hpl, hcopy p hne.symm]

/-- Settles O51: each threshold point is judged on what the judgements before it leave. -/
theorem Settled.alarmEvaluation : Obligations.AlarmEvaluation := by
  refine ⟨fun s hs => ⟨fun hr => ⟨Machine.alarmEvaluation s, whenDue_true hr, ?run⟩, fun hr => whenDue_false hr⟩, fun low high hyst x => ?truth⟩
  case run =>
    obtain ⟨hin, -, hconds⟩ := judgeAll_spec (s := s) (l := thresholdPoints) (by decide) fun p hp => by
      rw [copies_length hs]
      revert p
      decide
    exact ⟨hin, fun p hp hnone => (hin p hp).trans (thresholdJudged_invalid hnone), hconds⟩
  case truth => simp only [thresholdTruth, decide_eq_true_eq, Bool.not_eq_false', iff_self, and_self]

/-! ## The outputs (R137) -/

theorem OutputsFollow.congr (h : OutputsFollow s) (halm : t.alm = s.alm) (hset : t.settings = s.settings) : OutputsFollow t := by
  have hclass : ∀ p, pointClass t p = pointClass s p := fun p => by rw [pointClass, hset, pointClass]
  have hpoint : ∀ p, point t p = point s p := fun p => by rw [point, halm, point]
  have hactive : ∀ c, anyActive t c = anyActive s c := fun c => by simp only [anyActive, hclass, pointActive, hpoint]
  have hunack : anyUnack t = anyUnack s := by simp only [anyUnack, hclass, hpoint]
  obtain ⟨h1, h2, h3⟩ := h
  unfold OutputsFollow
  rw [halm, hactive, hactive, hunack]
  exact ⟨h1, h2, h3⟩

theorem refreshOutputs_follow (hr : inRun s = true) : OutputsFollow (refreshOutputs s) := by
  unfold refreshOutputs
  rw [if_pos hr]
  exact ⟨rfl, rfl, rfl⟩

/-- In RUN a change keeps the outputs in step with the points. -/
def KeepsOutputs (s t : State) : Prop := inRun s = true → OutputsFollow s → inRun t = true ∧ OutputsFollow t

theorem KeepsOutputs.refl (s : State) : KeepsOutputs s s := fun hr ho => ⟨hr, ho⟩

theorem KeepsOutputs.trans (h : KeepsOutputs s t) (h' : KeepsOutputs t u) : KeepsOutputs s u := fun hr ho => by
  obtain ⟨hr', ho'⟩ := h hr ho
  exact h' hr' ho'

theorem KeepsOutputs.of_aside (halm : t.alm = s.alm) (h : aside false t = aside false s) : KeepsOutputs s t :=
  fun hr ho => ⟨(aside_inRun h).trans hr, ho.congr halm (aside_settings h)⟩

theorem movePoint_follow {st : PointState} {timer : Option Nat} (hr : inRun s = true) :
    inRun (movePoint p st timer s) = true ∧ OutputsFollow (movePoint p st timer s) :=
  ⟨(aside_inRun (whole := false) movePoint_aside).trans hr, refreshOutputs_follow hr⟩

theorem movePoint_keepsOutputs {st : PointState} {timer : Option Nat} : KeepsOutputs s (movePoint p st timer s) :=
  fun hr _ => movePoint_follow hr

theorem logPoint_keepsOutputs {a c : PointState} : KeepsOutputs s (logPoint p a c s) := .of_aside logEv_alm logPoint_aside

theorem cancelRaise_keepsOutputs : KeepsOutputs s (cancelRaise p s) := by
  unfold cancelRaise
  split
  · exact movePoint_keepsOutputs.trans logPoint_keepsOutputs
  · exact .refl s

theorem foldl_keepsOutputs {l : List Nat} {f : State → Nat → State} (hf : ∀ c w, KeepsOutputs w (f w c)) (s : State) :
    KeepsOutputs s (l.foldl f s) := by
  induction l generalizing s with
  | nil => exact .refl s
  | cons c l ih => exact (hf c s).trans (ih (f s c))

theorem reportActive_keepsOutputs : KeepsOutputs s (reportActive p s) := .of_aside reportActive_alm (reportActive_aside nofun)

/-- A raise that fires leaves the outputs in step, whatever they were. -/
theorem fireRaise_follow {old : PointState} (hr : inRun s = true) : inRun (fireRaise p old s) = true ∧ OutputsFollow (fireRaise p old s) := by
  unfold fireRaise
  have hset : inRun (setPoint p (fun r => { r with raises := min 65535 (r.raises + 1), acked := false }) s) = true := hr
  obtain ⟨hr', ho⟩ := movePoint_follow (p := p) (st := .activeUnack) (timer := none) hset
  exact (logPoint_keepsOutputs.trans ((foldl_keepsOutputs (fun _ _ => cancelRaise_keepsOutputs) _).trans reportActive_keepsOutputs)) hr' ho

theorem becomeTrue_keepsOutputs : KeepsOutputs s (becomeTrue p s) := by
  have hraise : KeepsOutputs s (if heldBack s p then s else
      let d := pointWord s.settings p 2
      if d = 0 then fireRaise p (point s p).state s else movePoint p .raising (some d) s) := by
    split
    · exact .refl s
    · dsimp only
      split
      · exact fun hr _ => fireRaise_follow hr
      · exact movePoint_keepsOutputs
  unfold becomeTrue
  dsimp only
  split
  · exact .refl s
  · split
    · exact hraise
    · exact hraise
    · split
      · exact movePoint_keepsOutputs
      · exact movePoint_keepsOutputs.trans logPoint_keepsOutputs
    · exact .refl s
    · exact .refl s
    · exact .refl s

theorem judgeChildren_keepsOutputs : KeepsOutputs s (judgeChildren p s) := by
  refine foldl_keepsOutputs (fun c w => ?_) s
  split
  · exact becomeTrue_keepsOutputs
  · exact .refl w

theorem fireClear_follow {old : PointState} {acked : Bool} (hr : inRun s = true) : OutputsFollow (fireClear p old acked s) := by
  unfold fireClear
  dsimp only
  obtain ⟨hr', ho⟩ := movePoint_follow (p := p) (st := if acked || pointWord s.settings p 1 == 0 then .normal else .clearedUnack)
    (timer := none) hr
  exact ((logPoint_keepsOutputs.trans judgeChildren_keepsOutputs) hr' ho).2

/-! ## The point that moves -/

theorem points_length (hs : Shape s) : s.alm.points.length = 32 := by simp_all [Shape, shape]

theorem not_mem_children : p ∉ children p := fun h => by
  rw [children_of_child h] at h
  cases h

theorem point_setPoint {f : PointRec → PointRec} (h : p < s.alm.points.length) : point (setPoint p f s) p = f (point s p) := by
  unfold point setPoint
  dsimp only
  rw [List.getD_eq_getElem?_getD, getElem?_updAt, List.getD_eq_getElem?_getD, List.getElem?_eq_getElem h]
  rfl

theorem refreshOutputs_point : point (refreshOutputs s) q = point s q := refreshOutputs_points (ps := []) q List.not_mem_nil

theorem point_movePoint {st : PointState} {timer : Option Nat} (h : p < s.alm.points.length) :
    point (movePoint p st timer s) p = { point s p with state := st, timer := timer, changed := now s } := by
  unfold movePoint
  rw [refreshOutputs_point, point_setPoint h]

theorem point_logPoint {a c : PointState} : point (logPoint p a c s) q = point s q := logPoint_points (ps := []) q List.not_mem_nil

/-- The point whose raise fires. -/
theorem point_fireRaise {old : PointState} (h : p < s.alm.points.length) :
    point (fireRaise p old s) p = ⟨.activeUnack, none, false, min 65535 ((point s p).raises + 1), now s⟩ := by
  have hset : p < (setPoint p (fun r => { r with raises := min 65535 (r.raises + 1), acked := false }) s).alm.points.length := by
    unfold setPoint
    dsimp only
    rw [updAt_length]
    exact h
  have hreport : ∀ w : State, point (reportActive p w) p = point w p := fun w => by rw [point, reportActive_alm, point]
  unfold fireRaise
  rw [hreport, cancelChildren_points p not_mem_children, point_logPoint, point_movePoint hset, point_setPoint h]
  rfl

/-- The point whose clear fires. -/
theorem point_fireClear {old : PointState} {acked : Bool} (h : p < s.alm.points.length) : point (fireClear p old acked s) p =
    { point s p with state := if acked = true ∨ pointWord s.settings p 1 = 0 then .normal else .clearedUnack, timer := none, changed := now s } := by
  have hcond : (acked || pointWord s.settings p 1 == 0) = true ↔ acked = true ∨ pointWord s.settings p 1 = 0 := by
    rw [Bool.or_eq_true, beq_iff_eq]
  unfold fireClear
  dsimp only
  rw [judgeChildren_points p not_mem_children, point_logPoint, point_movePoint h]
  simp only [hcond]

end Sys2Proof.Machine
end

section
/-! PROOFS. The timers and the stored settings of a point (O52), and the two acknowledging commands (O53). -/

namespace Sys2Proof.Machine

variable {s t u : State} {p q old : Nat} {b : Bool}

/-! ## A class stored (R127) -/

theorem stored_alm {o : BitVec 13} {v : Word} : shape (stored o v s) = shape s := by
  have h : shape (heartbeat s) = shape s := heartbeat_shape
  rw [← h]
  simp only [shape, stored, hostStore, setWord, List.length_set]

theorem stored_now {o : BitVec 13} {v : Word} : now (stored o v s) = now s := (heartbeat_quiet (s := s)).now_eq

/-- The settings word of a point, as stored. -/
theorem pointWord_stored {o : BitVec 13} {v : Word} {w : Nat} (hs : Shape s) (hp : p < 32) (hw : w < 8) (ho : o.toNat = 0x300 + 8 * p + w) :
    pointWord (stored o v s).settings p w = v.toNat := by
  have hl : s.settings.length = 640 := by simp_all [Shape, shape]
  have hlt : o.toNat - 0x180 < 640 := by omega
  simp [pointWord, ← ho, stored, natIn, wordIn, setWord, heartbeat_settings, List.getD, hl, hlt]

theorem settingTaken_alarm {o w : Nat} {x : Word} (h : o = 0x300 + 8 * p + w) (hw : w < 8) : settingTaken o x s = alarmStored p w x s := by
  have hp : (o - 0x300) / 8 = p := by omega
  have hword : (o - 0x300) % 8 = w := by omega
  rw [settingTaken, if_neg (by omega), if_neg (by omega), hp, hword]

theorem classChanged_same (h : pointClass s p = old) : classChanged p old s = s := if_pos h

/-- The point once its class is DISABLED. -/
def disabledPoint (p : Nat) (s : State) : State := s |> movePoint p .normal none |> logPoint p (point s p).state .normal

section Disabled

variable (h0 : pointClass s p = 0) (hold : old ≠ 0)
include h0 hold

theorem classChanged_disables : classChanged p old s =
    if (point s p).state.active then judgeChildren p (if (point s p).state == .normal then s else disabledPoint p s)
    else if (point s p).state == .normal then s else disabledPoint p s := by
  unfold classChanged
  dsimp only
  rw [h0, if_neg hold.symm, if_pos rfl]
  rfl

theorem classChanged_normal (hst : (point s p).state = .normal) : classChanged p old s = s := by
  rw [classChanged_disables h0 hold, hst]
  rfl

theorem classChanged_disabled (hst : (point s p).state ≠ .normal) : classChanged p old s =
    if (point s p).state.active then judgeChildren p (disabledPoint p s) else disabledPoint p s := by
  have hne : ¬ (((point s p).state == .normal) = true) := mt beq_iff_eq.1 hst
  rw [classChanged_disables h0 hold, if_neg hne]

/-- A point that is DISABLED out of another state than NORMAL. -/
theorem classChanged_disabled_spec (hlen : p < s.alm.points.length) (hr : inRun s = true) (hst : (point s p).state ≠ .normal) :
    let t := classChanged p old s
    pointActive t p = false ∧ OutputsFollow t ∧ point t p = { point s p with state := .normal, timer := none, changed := now s } ∧
      (s.log.queue.length < 32 → s.log.queue ++
        [⟨.pointChange, wordOf p, wordOf (point s p).state.code, wordOf PointState.normal.code, now s, s.log.gap⟩] <+: t.log.queue) := by
  intro t
  have ht : t = if (point s p).state.active then judgeChildren p (disabledPoint p s) else disabledPoint p s :=
    classChanged_disabled h0 hold hst
  have hpoint : point (disabledPoint p s) p = { point s p with state := .normal, timer := none, changed := now s } :=
    point_logPoint.trans (point_movePoint hlen)
  obtain ⟨hr', ho⟩ := movePoint_follow (p := p) (st := .normal) (timer := none) hr
  obtain ⟨hr'', ho'⟩ := (logPoint_keepsOutputs (p := p) (a := (point s p).state) (c := .normal)) hr' ho
  have hlogged : s.log.queue.length < 32 → (disabledPoint p s).log.queue = s.log.queue ++
      [⟨.pointChange, wordOf p, wordOf (point s p).state.code, wordOf PointState.normal.code, now s, s.log.gap⟩] := by
    intro hroom
    have hlog : (movePoint p .normal none s).log = s.log := by
      unfold movePoint refreshOutputs
      split <;> rfl
    have hnow : now (movePoint p .normal none s) = now s := aside_now (whole := false) movePoint_aside
    have hroom' : (movePoint p .normal none s).log.queue.length < 32 := by rw [hlog]; exact hroom
    have hev := congrArg (·.queue) (logEv_room (k := .pointChange) (x := wordOf p) (a := wordOf (point s p).state.code)
      (b := wordOf PointState.normal.code) hroom')
    dsimp only at hev
    rw [hlog, hnow] at hev
    exact hev
  have hkeeps : KeepsOutputs (disabledPoint p s) t ∧ point t p = point (disabledPoint p s) p ∧
      (disabledPoint p s).log.queue <+: t.log.queue := by
    rw [ht]
    split
    · exact ⟨judgeChildren_keepsOutputs, judgeChildren_points p not_mem_children, judgeChildren_grows⟩
    · exact ⟨.refl _, rfl, List.prefix_rfl⟩
  obtain ⟨houtputs, hkept, hgrows⟩ := hkeeps
  rw [pointActive, hkept, hpoint]
  refine ⟨rfl, (houtputs hr'' ho').2, rfl, fun hroom => ?_⟩
  rw [← hlogged hroom]
  exact hgrows

end Disabled

section Enabled

variable (h0 : pointClass s p ≠ 0)
include h0

theorem classChanged_enabled : classChanged p 0 s = refreshOutputs (if copyOf s p then becomeTrue p s else s) := by
  unfold classChanged
  dsimp only
  rw [if_neg h0, if_neg h0, if_pos rfl]

theorem becomeTrue_normal (hst : (point s p).state = .normal) : becomeTrue p s =
    if heldBack s p then s
    else if pointWord s.settings p 2 = 0 then fireRaise p .normal s else movePoint p .raising (some (pointWord s.settings p 2)) s := by
  unfold becomeTrue
  dsimp only
  rw [if_neg h0, hst]

/-- A point that was DISABLED is judged. -/
theorem classChanged_enabled_spec (hlen : p < s.alm.points.length) (hr : inRun s = true) (hst : (point s p).state = .normal) :
    let t := classChanged p 0 s
    let judged := copyOf s p = true ∧ heldBack s p = false
    let delay := pointWord s.settings p 2
    OutputsFollow t ∧ (¬ judged → point t p = point s p) ∧
      (judged → delay ≠ 0 → point t p = { point s p with state := .raising, timer := some delay, changed := now s }) ∧
      (judged → delay = 0 → point t p = ⟨.activeUnack, none, false, min 65535 ((point s p).raises + 1), now s⟩) := by
  intro t judged delay
  have ht : t = refreshOutputs (if copyOf s p then becomeTrue p s else s) := classChanged_enabled h0
  have hrun : inRun (if copyOf s p then becomeTrue p s else s) = true := by
    split
    · exact (aside_inRun (whole := false) (becomeTrue_aside nofun)).trans hr
    · exact hr
  have hpoint : point t p = point (if copyOf s p then becomeTrue p s else s) p := by rw [ht, refreshOutputs_point]
  have hraised : judged → (if copyOf s p then becomeTrue p s else s) =
      if delay = 0 then fireRaise p .normal s else movePoint p .raising (some delay) s := fun ⟨hcopy, hheld⟩ => by
    rw [if_pos hcopy, becomeTrue_normal h0 hst, if_neg (by rw [hheld]; exact Bool.false_ne_true)]
  refine ⟨ht ▸ refreshOutputs_follow hrun, fun hno => ?_, fun hj hd => ?_, fun hj hd => ?_⟩
  · have hstays : (if copyOf s p then becomeTrue p s else s) = s := by
      split
      · next hcopy =>
        have hheld : heldBack s p = true := eq_true_of_ne_false fun hf => hno ⟨hcopy, hf⟩
        rw [becomeTrue_normal h0 hst, if_pos hheld]
      · rfl
    rw [hpoint, hstays]
  · rw [hpoint, hraised hj, if_neg hd, point_movePoint hlen]
  · rw [hpoint, hraised hj, if_pos hd, point_fireRaise hlen]

end Enabled

theorem refreshOutputs_eq : ∃ x : Alarm, refreshOutputs s = { s with alm := x } ∧ x.points = s.alm.points := by
  unfold refreshOutputs
  split
  · exact ⟨_, rfl, rfl⟩
  · exact ⟨s.alm, rfl, rfl⟩

section Between

variable (h0 : pointClass s p ≠ 0) (hold : old ≠ 0) (hne : pointClass s p ≠ old)
include h0 hold hne

theorem classChanged_between : classChanged p old s =
    if pointClass s p = 3 ∧ (point s p).state.active = true then abortTest .abortedAlarm (refreshOutputs s) else refreshOutputs s := by
  unfold classChanged
  dsimp only
  rw [if_neg hne, if_neg h0, if_neg hold]

theorem classChanged_between_spec (hr : inRun s = true) :
    let t := classChanged p old s
    OutputsFollow t ∧ t.alm.points = s.alm.points ∧
      (pointClass s p = 3 → (point s p).state.active = true → s.bus.test.state = .running → t.bus.test.state = .ended .abortedAlarm) ∧
      (pointClass s p ≠ 3 ∨ (point s p).state.active = false → { t with alm := s.alm } = s) := by
  intro t
  have ht : t = _ := classChanged_between h0 hold hne
  have ho : OutputsFollow (refreshOutputs s) := refreshOutputs_follow hr
  obtain ⟨x, hx, hpts⟩ := refreshOutputs_eq (s := s)
  by_cases hc : pointClass s p = 3 ∧ (point s p).state.active = true
  · rw [if_pos hc] at ht
    have halm : t.alm = (refreshOutputs s).alm := by rw [ht, abortTest_alm]
    have hset : t.settings = (refreshOutputs s).settings := by rw [ht]; exact aside_settings (whole := true) abortTest_aside
    refine ⟨ho.congr halm hset, by rw [halm, hx]; exact hpts, fun _ _ hrun => ?_, fun h => ?_⟩
    · have hrunning : testRunning (refreshOutputs s) = true := by rw [hx]; exact beq_iff_eq.2 hrun
      obtain ⟨bus, lg, hend, -, -, htest, -, -⟩ := endTest_spec (o := .abortedAlarm) (s := refreshOutputs s)
      have habort : abortTest .abortedAlarm (refreshOutputs s) = endTest .abortedAlarm (refreshOutputs s) := if_pos hrunning
      rw [ht, habort, hend]
      dsimp only
      rw [htest]
    · obtain ⟨h3, ha⟩ := hc
      rcases h with h | h
      · exact absurd h3 h
      · rw [ha] at h
        cases h
  · rw [if_neg hc] at ht
    rw [ht]
    refine ⟨ho, by rw [hx]; exact hpts, fun h3 ha _ => absurd ⟨h3, ha⟩ hc, fun _ => by rw [hx]⟩

end Between

end Sys2Proof.Machine
end

section
/-! PROOFS. The timers and the stored settings of a point, settled (O52), and the two acknowledging commands (O53). -/

namespace Sys2Proof.Machine

variable {s t u : State} {p q : Nat}

/-! ## A latching setting stored (R126) -/

theorem latchingStored_clears (h0 : pointWord s.settings p 1 = 0) (hst : (point s p).state = .clearedUnack) :
    latchingStored p s = logPoint p .clearedUnack .normal (movePoint p .normal none s) := if_pos ⟨h0, hst⟩

theorem latchingStored_stays (h : pointWord s.settings p 1 ≠ 0 ∨ (point s p).state ≠ .clearedUnack) : latchingStored p s = s :=
  if_neg fun ⟨h0, hst⟩ => h.elim (fun hn => hn h0) fun hn => hn hst

theorem stored_point_length {o : BitVec 13} {v : Word} (hs : Shape s) (p : Fin 32) : p.val < (stored o v s).alm.points.length := by
  rw [points_length (stored_alm.trans hs)]
  exact p.isLt

/-- Settles O52: the timers by what fires, a class by the classes before and after, and a latching setting by the point's state. -/
theorem pointTimers : Obligations.PointTimers := by
  refine ⟨fun p s hs hr => ?timers, fun p o v s ho hst => ?cls, fun p o v s ho hst => ?latching⟩
  case timers =>
    have hlen : p.val < s.alm.points.length := by
      rw [points_length hs]
      exact p.isLt
    have hraise : exec (.raiseTimerExpiry p) s = whenDue (inRun s && (point s p.val).state == .raising) (fireRaise p.val .raising) s := rfl
    have hclear : exec (.clearTimerExpiry p) s =
      whenDue (inRun s && (point s p.val).state == .clearing) (fireClear p.val .clearing (point s p.val).acked) s := rfl
    rw [hraise, hclear]
    refine ⟨fun hst => ⟨fireRaise p.val .raising s, whenDue_true (by rw [hr, hst]; rfl), point_fireRaise hlen, (fireRaise_follow hr).2⟩,
      fun hst => whenDue_false ?_,
      fun hst => ⟨fireClear p.val .clearing (point s p.val).acked s, whenDue_true (by rw [hr, hst]; rfl), point_fireClear hlen,
        fireClear_follow hr⟩, fun hst => whenDue_false ?_⟩
    · rw [beq_false_of_ne hst, Bool.and_false]
    · rw [beq_false_of_ne hst, Bool.and_false]
  case cls =>
    obtain ⟨hs, hlisten, hguard⟩ := hst
    intro u r old judged delay
    have hlen : p.val < u.alm.points.length := stored_point_length hs p
    have hr : inRun u = true := stored_inRun.trans (inRun_of_guard hguard)
    have hnow : now u = now s := stored_now
    have hclass : pointClass u p.val = v.toNat := pointWord_stored hs p.isLt (by omega) ho
    have hv0 : v = 0 ↔ pointClass u p.val = 0 := by
      rw [hclass]
      exact BitVec.toNat_eq
    have hv3 : v = 3 ↔ pointClass u p.val = 3 := by
      rw [hclass]
      exact BitVec.toNat_eq
    have hold : (wordIn s.settings o.toNat).toNat = old := by
      rw [ho]
      rfl
    have hexec : exec (.guardedWrite o v) s = .next (classChanged p.val old u) := by
      rw [guardedWrite_stores hlisten (by omega) (by omega) hguard, settingTaken_alarm (w := 0) ho (by omega), ← hold]
      rfl
    refine ⟨classChanged p.val old u, hexec, fun hsame => classChanged_same (hclass.trans hsame),
      fun h0 hne hst => classChanged_normal (hv0.1 h0) hne hst, fun h0 hne hst => ?_, fun h0 hz hst => ?_, fun h0 hne hdiff => ?_⟩
    · rw [← hnow]
      exact classChanged_disabled_spec (hv0.1 h0) hne hlen hr hst
    · rw [← hnow, hz]
      exact classChanged_enabled_spec (mt hv0.2 h0) hlen hr hst
    · obtain ⟨ho', hpts, habort, hstay⟩ := classChanged_between_spec (mt hv0.2 h0) hne (by rw [hclass]; exact hdiff) hr
      exact ⟨ho', hpts, fun h3 => habort (hv3.1 h3), fun h => hstay (h.imp_left (mt hv3.2))⟩
  case latching =>
    obtain ⟨hs, hlisten, hguard⟩ := hst
    intro u r
    have hlen : p.val < u.alm.points.length := stored_point_length hs p
    have hr : inRun u = true := stored_inRun.trans (inRun_of_guard hguard)
    have hword : pointWord u.settings p.val 1 = v.toNat := pointWord_stored hs p.isLt (by omega) (by omega)
    have hv0 : v = 0 ↔ pointWord u.settings p.val 1 = 0 := by
      rw [hword]
      exact BitVec.toNat_eq
    refine ⟨latchingStored p.val u, ?_, fun h0 hst => ?_, fun h => latchingStored_stays (h.imp_left (mt hv0.2))⟩
    · rw [guardedWrite_stores hlisten (by omega) (by omega) hguard, settingTaken_alarm (p := p.val) (w := 1) (by omega) (by omega)]
      rfl
    · obtain ⟨hr', ho'⟩ := movePoint_follow (p := p.val) (st := .normal) (timer := none) hr
      rw [latchingStored_clears (hv0.1 h0) hst, point_logPoint, point_movePoint hlen, ← stored_now (s := s) (o := o) (v := v)]
      exact ⟨rfl, (logPoint_keepsOutputs hr' ho').2⟩

/-! ## Acknowledgement (R134) -/

theorem ackPoint_active (h : (point s p).state = .activeUnack) : ackPoint p s = movePoint p .activeAck none s := by rw [ackPoint, h]

theorem ackPoint_cleared (h : (point s p).state = .clearedUnack) :
    ackPoint p s = logPoint p .clearedUnack .normal (movePoint p .normal none s) := by rw [ackPoint, h]

theorem ackPoint_other (h1 : (point s p).state ≠ .activeUnack) (h2 : (point s p).state ≠ .clearedUnack) : ackPoint p s = s := by
  unfold ackPoint
  cases h : (point s p).state <;> simp_all

theorem ackPoint_points : PointsBut [p] s (ackPoint p s) := by
  unfold ackPoint
  split
  · exact movePoint_points
  · exact movePoint_points.trans logPoint_points
  all_goals exact .refl

theorem movePoint_length {st : PointState} {timer : Option Nat} : (movePoint p st timer s).alm.points.length = s.alm.points.length := by
  unfold movePoint refreshOutputs
  split <;> exact updAt_length _ _ _

theorem ackPoint_length : (ackPoint p s).alm.points.length = s.alm.points.length := by
  unfold ackPoint
  split
  · exact movePoint_length
  · rw [logPoint, logEv_alm]
    exact movePoint_length
  all_goals rfl

theorem ackPoint_spec (h : p < s.alm.points.length) :
    ((point s p).state = .activeUnack → (point (ackPoint p s) p).state = .activeAck) ∧
    ((point s p).state = .clearedUnack → (point (ackPoint p s) p).state = .normal) ∧
    ((point s p).state ≠ .activeUnack → (point s p).state ≠ .clearedUnack → ackPoint p s = s) := by
  refine ⟨fun hst => ?_, fun hst => ?_, ackPoint_other⟩
  · rw [ackPoint_active hst, point_movePoint h]
  · rw [ackPoint_cleared hst, point_logPoint, point_movePoint h]

theorem ackable_iff : ackable s p = true ↔ (point s p).state = .activeUnack ∨ (point s p).state = .clearedUnack := by
  unfold ackable
  cases (point s p).state <;> simp [PointState.unack]

theorem reportAck_alm : (reportAck s).alm = s.alm := by
  unfold reportAck
  split <;> rfl

theorem ackPointCommand_refused (h : 31 < p) : ackPointCommand p s = (s, .refusedRange, 1) := if_pos h

theorem ackPointCommand_taken (h : p ≤ 31) : ackPointCommand p s =
    ((if p = Pt.genFailStart then reportAck (ackPoint p s) else ackPoint p s), .done, if ackable s p then 1 else 0) := if_neg (by omega)

theorem ackPointCommand_alm (h : p ≤ 31) : (ackPointCommand p s).1.alm = (ackPoint p s).alm := by
  rw [ackPointCommand_taken h]
  dsimp only
  split
  · exact reportAck_alm
  · rfl

/-- The points of a list acknowledged in turn. -/
def ackEach (l : List Nat) (s : State) : State := l.foldl (fun t p => ackPoint p t) s

theorem ackEach_spec {l : List Nat} (hn : l.Nodup) (hl : ∀ p ∈ l, p < s.alm.points.length) :
    (∀ p ∈ l, ∃ w, point w p = point s p ∧ p < w.alm.points.length ∧ point (ackEach l s) p = point (ackPoint p w) p) ∧
      (∀ p, p ∉ l → point (ackEach l s) p = point s p) := by
  induction l generalizing s with
  | nil => exact ⟨nofun, fun _ _ => rfl⟩
  | cons a l ih =>
    obtain ⟨ha, hnl⟩ := List.nodup_cons.1 hn
    have hother : ∀ q, q ≠ a → point (ackPoint a s) q = point s q :=
      fun q hq => ackPoint_points q (by rw [List.mem_singleton]; exact hq)
    obtain ⟨hin, hout⟩ := ih hnl (s := ackPoint a s) fun p hp => by
      rw [ackPoint_length]
      exact hl p (List.mem_cons_of_mem _ hp)
    have hstep : ackEach (a :: l) s = ackEach l (ackPoint a s) := rfl
    rw [hstep]
    refine ⟨fun p hp => ?_, fun p hp => ?_⟩
    · rcases List.mem_cons.1 hp with rfl | hp
      · exact ⟨s, rfl, hl p List.mem_cons_self, hout p ha⟩
      · obtain ⟨w, hw, hlen, hpoint⟩ := hin p hp
        have hne : p ≠ a := fun h => ha (h ▸ hp)
        exact ⟨w, hw.trans (hother p hne), hlen, hpoint⟩
    · obtain ⟨hne, hpl⟩ := List.ne_and_not_mem_of_not_mem_cons hp
      rw [hout p hpl, hother p hne]

theorem ackAll_spec (hs : Shape s) : ∀ p < 32,
    ((point s p).state = .activeUnack → (point (ackEach (List.range 32) s) p).state = .activeAck) ∧
    ((point s p).state = .clearedUnack → (point (ackEach (List.range 32) s) p).state = .normal) ∧
    ((point s p).state ≠ .activeUnack → (point s p).state ≠ .clearedUnack → point (ackEach (List.range 32) s) p = point s p) := by
  intro p hp
  obtain ⟨hin, -⟩ := ackEach_spec (s := s) (l := List.range 32) List.nodup_range fun q hq => by
    rw [points_length hs]
    exact List.mem_range.1 hq
  obtain ⟨w, hw, hlen, hpoint⟩ := hin p (List.mem_range.2 hp)
  obtain ⟨hactive, hcleared, hother⟩ := ackPoint_spec hlen
  rw [hw] at hactive hcleared hother
  rw [hpoint]
  exact ⟨hactive, hcleared, fun h1 h2 => by rw [hother h1 h2, hw]⟩

theorem ackAllCommand_reply : (ackAllCommand s).2 = (.done, ((List.range 32).filter (ackable s)).length) := rfl

theorem ackAllCommand_alm : (ackAllCommand s).1.alm = (ackEach (List.range 32) s).alm := by
  unfold ackAllCommand ackEach
  rw [reportAck_alm]

theorem commanded_alm {slot : Fin 16} {op : Nat} {tag : BitVec 8} :
    (commanded slot op tag s).alm = (ruled slot op tag s).1.alm := logEv_alm

theorem point_congr (h : t.alm = s.alm) : point t p = point s p := by rw [point, h, point]

/-- Settles O53: each point by its own acknowledgement. -/
theorem ackCommands : Obligations.AckCommands := by
  intro slot tag s hs hl
  refine ⟨fun hd => ?one, fun hd => ?all⟩
  case one =>
    intro u p
    have hsu : Shape u := atPost_shape hs
    have hrule : ruled slot Op.ackPoint tag s = ackPointCommand p u := rfl
    refine ⟨commanded slot Op.ackPoint tag s, exec_command rfl (by decide) (by decide) hl hd, ?_⟩
    rw [replyOf_commanded hs, point_congr commanded_alm, commanded_alm, hrule]
    refine ⟨fun hp => ?_, fun hp hst => ?_, fun hp hst => ?_, fun hp h1 h2 => ?_⟩
    · rw [ackPointCommand_refused hp]
      exact ⟨rfl, rfl⟩
    · have hlen : p < u.alm.points.length := by rw [points_length hsu]; omega
      rw [point_congr (ackPointCommand_alm hp), ackPointCommand_taken hp, if_pos (ackable_iff.2 (.inl hst))]
      exact ⟨rfl, (ackPoint_spec hlen).1 hst⟩
    · have hlen : p < u.alm.points.length := by rw [points_length hsu]; omega
      rw [point_congr (ackPointCommand_alm hp), ackPointCommand_taken hp, if_pos (ackable_iff.2 (.inr hst))]
      exact ⟨rfl, (ackPoint_spec hlen).2.1 hst⟩
    · rw [ackPointCommand_alm hp, ackPointCommand_taken hp, ackPoint_other h1 h2, if_neg (mt ackable_iff.1 (not_or.2 ⟨h1, h2⟩))]
      exact ⟨rfl, rfl⟩
  case all =>
    intro u
    have hsu : Shape u := atPost_shape hs
    have hrule : ruled slot Op.ackAll tag s = ackAllCommand u := rfl
    have halm : (commanded slot Op.ackAll tag s).alm = (ackEach (List.range 32) u).alm := by
      rw [commanded_alm, hrule, ackAllCommand_alm]
    refine ⟨commanded slot Op.ackAll tag s, exec_command rfl (by decide) (by decide) hl hd, ?_⟩
    rw [replyOf_commanded hs, hrule]
    refine ⟨ackAllCommand_reply, fun p hp hst => ?_, fun p hp hst => ?_, fun p hp h1 h2 => ?_⟩
    · rw [point_congr halm]
      exact (ackAll_spec hsu p hp).1 hst
    · rw [point_congr halm]
      exact (ackAll_spec hsu p hp).2.1 hst
    · rw [point_congr halm]
      exact (ackAll_spec hsu p hp).2.2 h1 h2

end Sys2Proof.Machine
end

section
/-! PROOFS. The Silence Monitor (O54): its evaluations, the grace and its takeover, and RESUME. -/

namespace Sys2Proof.Machine

variable {s t u : State} {k p : Nat} {r : StringRec} {st : SilenceState} {b : Bool}

/-! ## A change of the silence state (R189) -/

/-- The state in which HOST_SILENT follows a new silence state. -/
def silenceLogged (st : SilenceState) (s : State) : State :=
  { s with sil := { s.sil with state := st } } |> logEv .silenceState 0 (wordOf s.sil.state.code) (wordOf st.code)

theorem silenceTo_eq : silenceTo st s = setCond Pt.hostSilent (st != .supervised) (silenceLogged st s) := rfl

theorem silenceLogged_eq : ∃ lg, silenceLogged st s = { s with sil := { s.sil with state := st }, log := lg } := by
  unfold silenceLogged logEv logAt
  split
  · exact ⟨_, rfl⟩
  · exact ⟨_, rfl⟩

theorem silenceTo_sil : (silenceTo st s).sil = { s.sil with state := st } := by
  obtain ⟨lg, h⟩ := silenceLogged_eq (s := s) (st := st)
  rw [silenceTo_eq, setCond_sil, h]

theorem silenceTo_gen : (silenceTo st s).gen = s.gen := by
  obtain ⟨lg, h⟩ := silenceLogged_eq (s := s) (st := st)
  rw [silenceTo_eq, setCond_gen (by decide), h]

theorem silenceTo_str : (silenceTo st s).str = s.str := by
  obtain ⟨lg, h⟩ := silenceLogged_eq (s := s) (st := st)
  rw [silenceTo_eq, setCond_str, h]

theorem silenceTo_conds : (silenceTo st s).conds = s.conds.set Pt.hostSilent (st != .supervised) := by
  obtain ⟨lg, h⟩ := silenceLogged_eq (s := s) (st := st)
  rw [silenceTo_eq, conds_setCond, h]

theorem silenceTo_hostSilent (hs : Shape s) : condOf (silenceTo st s) Pt.hostSilent = (st != .supervised) :=
  condOf_set silenceTo_conds (by rw [conds_length hs]; decide)

/-! ## The evaluation -/

/-- A second without a heartbeat. -/
def silenceCounted (s : State) : State := { s with sil := { s.sil with count := min 4294967295 (s.sil.count + 1) } }

section Evaluation

variable (hr : inRun s = true)
include hr

theorem silenceEvaluation_supervised (h : s.sil.state = .supervised) : silenceEvaluation s =
    if 0 < silenceLimit s.settings ∧ silenceLimit s.settings * 10 ≤ (silenceCounted s).sil.count then silenceTo .grace (silenceCounted s)
    else silenceCounted s := by
  unfold silenceEvaluation
  rw [if_pos hr]
  dsimp only
  split
  · rfl
  · next h' => rw [h] at h'; cases h'
  · next h' => rw [h] at h'; cases h'

theorem silenceEvaluation_grace (h : s.sil.state = .grace) : silenceEvaluation s =
    if silenceLimit s.settings = 0 then silenceTo .supervised (silenceCounted s) else silenceCounted s := by
  unfold silenceEvaluation
  rw [if_pos hr]
  dsimp only
  split
  · next h' => rw [h] at h'; cases h'
  · rfl
  · next h' => rw [h] at h'; cases h'

theorem silenceEvaluation_autonomous (h : s.sil.state = .autonomous) : silenceEvaluation s = silenceCounted s := by
  unfold silenceEvaluation
  rw [if_pos hr]
  dsimp only
  split
  · next h' => rw [h] at h'; cases h'
  · next h' => rw [h] at h'; cases h'
  · rfl

theorem silenceEvaluation_count : (silenceEvaluation s).sil.count = min 4294967295 (s.sil.count + 1) := by
  have hto : ∀ st, (silenceTo st (silenceCounted s)).sil.count = min 4294967295 (s.sil.count + 1) := fun st => by rw [silenceTo_sil]; rfl
  cases h : s.sil.state with
  | supervised =>
    rw [silenceEvaluation_supervised hr h]
    split
    · exact hto _
    · rfl
  | grace =>
    rw [silenceEvaluation_grace hr h]
    split
    · exact hto _
    · rfl
  | autonomous =>
    rw [silenceEvaluation_autonomous hr h]
    rfl

/-- The evaluation that reaches the limit. -/
theorem silenceEvaluation_reaches (hs : Shape s) (h : s.sil.state = .supervised) (h0 : 0 < silenceLimit s.settings)
    (hl : silenceLimit s.settings * 10 ≤ min 4294967295 (s.sil.count + 1)) :
    (silenceEvaluation s).sil.state = .grace ∧ condOf (silenceEvaluation s) Pt.hostSilent = true := by
  rw [silenceEvaluation_supervised hr h, if_pos ⟨h0, hl⟩, silenceTo_sil]
  exact ⟨rfl, silenceTo_hostSilent (s := silenceCounted s) hs⟩

end Evaluation

/-! ## The takeover (R190) -/

/-- With no equalize running none starts. -/
def EqualizeRests (s t : State) : Prop := s.bus.eq.running = false → t.bus.eq.running = false

theorem equalizeRests_closed : ReportClosed (· ≠ Pt.fuelCritical) EqualizeRests where
  refl _ h := h
  trans h h' hr := h' (h hr)
  alm _ _ h := h
  log _ _ h := h
  report p s hp := by
    unfold reportActive
    dsimp only
    rw [if_neg hp]
    have hcancel : EqualizeRests s (if p = Pt.battOvertemp then cancelEqualize .cancelledTemp s else s) := by
      intro hr
      split
      · rw [cancelEqualize, hr, if_neg Bool.false_ne_true]
        exact hr
      · exact hr
    generalize (if p = Pt.battOvertemp then cancelEqualize .cancelledTemp s else s) = w at hcancel
    intro hr
    split
    · unfold abortTest
      split
      · obtain ⟨bus, lg, hb, -, -, -, heq, -⟩ := endTest_spec (o := .abortedAlarm) (s := w)
        rw [hb]
        dsimp only
        rw [heq]
        exact hcancel hr
      · exact hcancel hr
    · exact hcancel hr

/-- A condition of the strings judged: no equalize and no test begins, and the requests stay. -/
theorem refreshStringConds_rests : EqualizeRests s (refreshStringConds s) ∧ TestRests s (refreshStringConds s) ∧
    (refreshStringConds s).gen = s.gen := by
  have hjudge : ∀ (p : Nat) (b : Bool) (w : State), p ≠ Pt.fuelCritical →
      EqualizeRests w (judgeCond p b w) ∧ TestRests w (judgeCond p b w) ∧ (judgeCond p b w).gen = w.gen := by
    intro p b w hp
    have hchild : ∀ c ∈ children p, c ≠ Pt.fuelCritical := fun c hc => ne_fuelCritical_of_child hc
    unfold judgeCond
    split
    · exact ⟨equalizeRests_closed.setCond (fun _ _ h => h) hp hchild, testRests_closed.setCond (fun _ _ => .of_bus rfl) hp hchild,
        setCond_gen hp⟩
    · exact ⟨equalizeRests_closed.refl w, .of_bus rfl, rfl⟩
  unfold refreshStringConds
  obtain ⟨a1, b1, c1⟩ := hjudge Pt.stringFault (anyString s fun r => r.phase == .fault) s (by decide)
  generalize judgeCond Pt.stringFault (anyString s fun r => r.phase == .fault) s = w1 at *
  obtain ⟨a2, b2, c2⟩ := hjudge Pt.runawaySuspect (anyString s fun r => r.runaway == 1) w1 (by decide)
  generalize judgeCond Pt.runawaySuspect (anyString s fun r => r.runaway == 1) w1 = w2 at *
  obtain ⟨a3, b3, c3⟩ := hjudge Pt.chargeIncomplete (anyString s (·.incomplete)) w2 (by decide)
  generalize judgeCond Pt.chargeIncomplete (anyString s (·.incomplete)) w2 = w3 at *
  obtain ⟨a4, b4, c4⟩ := hjudge Pt.stringIsolated (anyString s fun r => r.phase.open) w3 (by decide)
  exact ⟨fun h => a4 (a3 (a2 (a1 h))), b1.trans (b2.trans (b3.trans b4)), c4.trans (c3.trans (c2.trans c1))⟩

/-- The takeover before the strings' conditions are judged. -/
def takenOver (s : State) : State :=
  s |> abandonReconnect .abandonedAutonomy |> cancelEqualize .cancelledAutonomy |> abortTest .abortedAutonomy
    |> removeRequest .manual Reason.autonomy

theorem takeover_eq : takeover s = refreshStringConds (takenOver s) := rfl

/-- The takeover after the reconnect: what it leaves of the strings and the conditions. -/
theorem takenOver_rest : (takenOver s).str = (abandonReconnect .abandonedAutonomy s).str ∧
    (takenOver s).bus.claims.matching = (abandonReconnect .abandonedAutonomy s).bus.claims.matching ∧
    (takenOver s).conds = (abandonReconnect .abandonedAutonomy s).conds := by
  have h : aside false (takenOver s) = aside false (abandonReconnect .abandonedAutonomy s) :=
    removeRequest_aside.trans (abortTest_aside.trans cancelEqualize_aside)
  exact ⟨aside_str h, aside_claimMatching h, aside_conds h⟩

theorem abandonReconnect_none {o : ReconnectOutcome} (h : reconnecting s = none) : abandonReconnect o s = s := by rw [abandonReconnect, h]

theorem abandonReconnect_some {o : ReconnectOutcome} (h : reconnecting s = some k) : abandonReconnect o s = endReconnect k o s := by
  rw [abandonReconnect, h]

theorem endReconnect_gen {o : ReconnectOutcome} : (endReconnect k o s).gen = s.gen := by
  unfold endReconnect logReconnect
  rw [logEv_gen, withdrawClaim_gen]
  exact beside_gen (changePhase_alone (k := k)).rest

theorem abandonReconnect_gen {o : ReconnectOutcome} : (abandonReconnect o s).gen = s.gen := by
  unfold abandonReconnect
  split
  · exact endReconnect_gen
  · rfl

theorem cancelEqualize_gen {o : EqualizeOutcome} : (cancelEqualize o s).gen = s.gen := aside_gen cancelEqualize_aside
theorem abortTest_gen {o : TestOutcome} : (abortTest o s).gen = s.gen := aside_gen abortTest_aside

theorem takenOver_requests : (takenOver s).gen.requests = { s.gen.requests with manual := none } := by
  unfold takenOver
  dsimp only
  rw [removeRequest_requests, abortTest_gen, cancelEqualize_gen, abandonReconnect_gen]
  rfl

theorem cancelEqualize_stops {o : EqualizeOutcome} : (cancelEqualize o s).bus.eq.running = false := by
  unfold cancelEqualize
  split
  · obtain ⟨bus, lg, hb, -, -, heq, -, -⟩ := endEqualize_spec (o := o) (s := s)
    rw [hb]
    dsimp only
    rw [heq]
  · next h => exact eq_false_of_ne_true h

theorem abortTest_stops {o : TestOutcome} : testRunning (abortTest o s) = false ∧ (abortTest o s).bus.eq = s.bus.eq := by
  unfold abortTest
  split
  · obtain ⟨bus, lg, hb, -, -, htest, heq, -⟩ := endTest_spec (o := o) (s := s)
    rw [hb]
    unfold testRunning
    dsimp only
    rw [htest]
    exact ⟨rfl, heq⟩
  · next h => exact ⟨eq_false_of_ne_true h, rfl⟩

theorem withdrawClaim_beyond {c : Slot} : (withdrawClaim c s).bus.beyond = s.bus.beyond := by
  obtain ⟨b, hb, -, -, h⟩ := withdrawClaim_bus (c := c) (s := s)
  rw [hb]
  exact h

theorem genEnter_beyond {x : GenState} {n : Word} : (genEnter x n s).bus.beyond = s.bus.beyond := by
  unfold genEnter
  dsimp only
  split
  · rw [withdrawClaim_beyond, logEv_bus]
  · rw [logEv_bus]

theorem abandonSeries_beyond {b : Bool} : (abandonSeries b s).bus.beyond = s.bus.beyond := by
  unfold abandonSeries
  rw [genEnter_beyond]
  dsimp only
  split
  · exact congrArg Bus.beyond logEv_bus
  · exact congrArg Bus.beyond logEv_bus
  · rfl

theorem removeRequest_beyond {q : RequestKind} {n : Word} : (removeRequest q n s).bus.beyond = s.bus.beyond := by
  have hdrop : ∀ (c : Bool) (w : State), (if c then dropMainsFail w else w).bus = w.bus := fun c w => by cases c <;> rfl
  have habandon : ∀ (c : Bool) (w : State), (if c then abandonSeries false w else w).bus.beyond = w.bus.beyond := fun c w => by
    cases c
    · rfl
    · exact abandonSeries_beyond
  unfold removeRequest
  split
  · exact (habandon _ _).trans (congrArg Bus.beyond ((hdrop _ _).trans logEv_bus))
  · rfl

theorem takenOver_ends : (takenOver s).bus.eq.running = false ∧ testRunning (takenOver s) = false := by
  obtain ⟨htest, heq⟩ := abortTest_stops (o := .abortedAutonomy)
    (s := cancelEqualize .cancelledAutonomy (abandonReconnect .abandonedAutonomy s))
  have hbeyond : (takenOver s).bus.beyond =
      (abortTest .abortedAutonomy (cancelEqualize .cancelledAutonomy (abandonReconnect .abandonedAutonomy s))).bus.beyond := removeRequest_beyond
  have heq' := (beyond_eq hbeyond).trans heq
  refine ⟨?_, (testRunning_of_test (beyond_test hbeyond)).trans htest⟩
  rw [heq']
  exact cancelEqualize_stops

/-! ## The end of the grace (R189, R190) -/

/-- The state in which the takeover begins. -/
abbrev autonomous (s : State) : State := silenceTo .autonomous s

theorem graceExpires_eq (h : s.sil.state = .grace) : graceExpires s = takeover (autonomous s) := if_pos h

theorem takeover_sil : (takeover s).sil = s.sil := (takeover_quiet (s := s)).sil_eq

theorem reconnecting_congr (h : t.str = s.str) : reconnecting t = reconnecting s := by
  unfold reconnecting
  congr 1
  funext k
  rw [strPhase_congr (strRec_congr h)]

/-- What has ended once the grace has run. -/
theorem takeover_ends (h : s.sil.state = .grace) :
    let t := graceExpires s
    t.sil.state = .autonomous ∧ requested t .manual = false ∧ t.bus.eq.running = false ∧ testRunning t = false ∧
      t.gen.requests.depth = s.gen.requests.depth ∧ t.gen.requests.mainsFail = s.gen.requests.mainsFail := by
  intro t
  have ht : t = refreshStringConds (takenOver (autonomous s)) := (graceExpires_eq h).trans takeover_eq
  have hsil : t.sil = (autonomous s).sil := by rw [ht, ← takeover_eq, takeover_sil]
  obtain ⟨heq, htest⟩ := takenOver_ends (s := autonomous s)
  obtain ⟨hkeepEq, hkeepTest, hgen⟩ := refreshStringConds_rests (s := takenOver (autonomous s))
  have hreq : t.gen.requests = { s.gen.requests with manual := none } := by rw [ht, hgen, takenOver_requests, silenceTo_gen]
  refine ⟨by rw [hsil, silenceTo_sil], ?_, ht ▸ hkeepEq heq, ?_, by rw [hreq], by rw [hreq]⟩
  · rw [requested, hreq]
    rfl
  · rw [ht, testRunning_of_test (hkeepTest htest).1]
    exact htest

theorem takeover_strings (h : s.sil.state = .grace) (hn : reconnecting s = none) : (graceExpires s).str = s.str := by
  have hn' : reconnecting (autonomous s) = none := (reconnecting_congr silenceTo_str).trans hn
  rw [graceExpires_eq h, takeover_eq, refreshStringConds_str, takenOver_rest.1, abandonReconnect_none hn', silenceTo_str]

/-- The reconnect that the takeover abandons. -/
theorem takeover_abandons (hs : Shape s) (h : s.sil.state = .grace) (hk : reconnecting s = some k) (hr : strRec s k = some r) :
    let t := graceExpires s
    strRec t k = some { r with phase := r.prior, tempMinute := 0, stage := .none, inrushTimer := false, outcome := .abandonedAutonomy } ∧
      t.str.iso = s.str.iso.set k .asserted ∧ t.bus.claims.matching = none ∧
      condOf t Pt.reconnectFailed = condOf s Pt.reconnectFailed ∧ condOf t Pt.stringIsolated = true ∧
      (r.priorFault = true → condOf t Pt.stringFault = true) := by
  intro t
  have hk' : reconnecting (autonomous s) = some k := (reconnecting_congr silenceTo_str).trans hk
  have hr' : strRec (autonomous s) k = some r := (strRec_congr silenceTo_str).trans hr
  have hp : r.phase = .reconnecting := (strPhase_of_rec hr).symm.trans (reconnecting_phase hk).1
  obtain ⟨hstr, hmatch, hconds⟩ := takenOver_rest (s := autonomous s)
  rw [abandonReconnect_some hk'] at hstr hmatch hconds
  rw [endReconnect_conds, silenceTo_conds] at hconds
  have hlen : (takenOver (autonomous s)).conds.length = 32 := by rw [hconds, List.length_set, conds_length hs]
  have hrec : strRec (takenOver (autonomous s)) k =
      some { r with phase := r.prior, tempMinute := 0, stage := .none, inrushTimer := false, outcome := .abandonedAutonomy } :=
    (strRec_congr hstr).trans (strRec_endReconnect hr' hp)
  have hiso : (takenOver (autonomous s)).str.iso = s.str.iso.set k .asserted := by rw [hstr, endReconnect_iso hr' hp, silenceTo_str]
  have hfailed : condOf (takenOver (autonomous s)) Pt.reconnectFailed = condOf s Pt.reconnectFailed := by
    rw [condOf_set_ne hconds (by decide), condOf]
  have ht : t = refreshStringConds (takenOver (autonomous s)) := (graceExpires_eq h).trans takeover_eq
  obtain ⟨hfault, -, -, hisolated⟩ := refreshStringConds_condOf hlen
  rw [ht, strRec_refreshStringConds, refreshStringConds_str, refreshStringConds_matching, refreshStringConds_reconnectFailed, hrec, hiso,
    hmatch, endReconnect_matching, hfailed, hfault, hisolated]
  refine ⟨rfl, rfl, rfl, rfl, anyString_of_rec hrec ?_, fun hf => anyString_of_rec hrec ?_⟩
  · unfold StringRec.prior
    dsimp only
    split <;> rfl
  · unfold StringRec.prior
    dsimp only
    rw [hf]
    rfl

/-! ## RESUME (R190) -/

theorem resumeCommand_outcome :
    (s.sil.state = .autonomous → (resumeCommand s).2 = (.done, 0) ∧ (resumeCommand s).1.sil.state = .supervised ∧
      condOf (resumeCommand s).1 Pt.hostSilent = false) ∧
    (s.sil.state ≠ .autonomous → (resumeCommand s).2 = (.refusedState, 1) ∧ (resumeCommand s).1.sil = s.sil) := by
  refine ⟨fun h => ?_, fun h => ?_⟩
  · have hcmd : resumeCommand s = (silenceTo .supervised s, .done, 0) := if_pos h
    rw [hcmd]
    refine ⟨rfl, by rw [silenceTo_sil], ?_⟩
    rw [silenceTo_eq]
    exact condOf_withdrawn
  · have hcmd : resumeCommand s = (s, .refusedState, 1) := if_neg h
    rw [hcmd]
    exact ⟨rfl, rfl⟩

theorem commanded_sil {slot : Fin 16} {op : Nat} {tag : BitVec 8} :
    (commanded slot op tag s).sil = (ruled slot op tag s).1.sil :=
  (logEv_quiet (Quiet.refl _)).sil_eq

theorem silenceDue_iff : silenceDue s = true ↔ inRun s = true ∧ s.sil.state = .supervised ∧ 0 < silenceLimit s.settings ∧
    silenceLimit s.settings * 10 ≤ s.sil.count + 1 := by
  rw [silenceDue, Bool.and_eq_true, Bool.and_eq_true, beq_iff_eq, decide_eq_true_eq, and_assoc]

/-- Settles O54: the evaluation by the silence state, the grace's end by what the takeover ends, and RESUME. -/
theorem silence : Obligations.Silence := by
  intro s hs
  refine ⟨fun hr => ⟨silenceEvaluation s, rfl, silenceEvaluation_count hr, ?short, ?reaches, ?returns, ?stays⟩,
    fun hd hc => ⟨silenceEvaluation s, whenDue_true hd, ?limit⟩, fun h => ⟨graceExpires s, rfl, ?grace⟩, fun slot tag hl hd => ?resume⟩
  case short =>
    intro h hlim
    rw [silenceEvaluation_count hr] at hlim
    rw [silenceEvaluation_supervised hr h, if_neg]
    · rfl
    · rintro ⟨h0, hle⟩
      have hle' : silenceLimit s.settings * 10 ≤ min 4294967295 (s.sil.count + 1) := hle
      omega
  case reaches =>
    intro h h0 hle
    rw [silenceEvaluation_count hr] at hle
    exact silenceEvaluation_reaches hr hs h h0 hle
  case returns =>
    intro h h0
    rw [silenceEvaluation_grace hr h, if_pos h0, silenceTo_sil]
    exact ⟨rfl, silenceTo_hostSilent (s := silenceCounted s) hs⟩
  case stays =>
    rintro (⟨h, h0⟩ | h)
    · rw [silenceEvaluation_grace hr h, if_neg (by omega)]
      rfl
    · rw [silenceEvaluation_autonomous hr h]
      rfl
  case limit =>
    obtain ⟨hr, hst, h0, hle⟩ := silenceDue_iff.1 hd
    exact silenceEvaluation_reaches hr hs hst h0 (by omega)
  case grace =>
    obtain ⟨hsil, hman, heq, htest, hdepth, hmains⟩ := takeover_ends h
    refine ⟨hsil, hman, heq, htest, hdepth, hmains, fun hn => ?_, fun k r hk hr => takeover_abandons hs h hk hr⟩
    rw [takeover_strings h hn]
    exact ⟨rfl, rfl⟩
  case resume =>
    have hrule : ruled slot Op.resume tag s = resumeCommand (atPost slot Op.resume tag s) := rfl
    have hsil : (atPost slot Op.resume tag s).sil = heard s.sil := atPost_sil
    obtain ⟨hauto, hother⟩ := resumeCommand_outcome (s := atPost slot Op.resume tag s)
    refine ⟨commanded slot Op.resume tag s, exec_command rfl (by decide) (by decide) hl hd, ?_⟩
    rw [replyOf_commanded hs, commanded_sil, commanded_condOf, hrule]
    rw [hsil] at hauto hother
    refine ⟨fun h => hauto (by rw [heard, h]; rfl), fun h => ?_⟩
    have hheard : (heard s.sil).state = .supervised := by
      unfold heard
      cases hst : s.sil.state with
      | supervised => simp
      | grace => simp
      | autonomous => exact absurd hst h
    obtain ⟨hreply, hkept⟩ := hother (by rw [hheard]; decide)
    exact ⟨hreply, by rw [hkept, hheard]⟩

end Sys2Proof.Machine
end

section
/-! PROOFS. Host writes by their areas (R157, R159), the checkpoints of an interval, and the rows of the Command Interpreter (O55). -/

namespace Sys2Proof.Machine

variable {s t u : State} {n m : Nat} {l : List Nat} {v : Word} {o a : Nat} {x : HostAccess}

/-! ## A host access held, or performed -/

theorem holds_listens (h : Listens s) : holds s = false := by
  obtain ⟨hs, hw⟩ := h
  simp only [holds, hw, Bool.or_false]
  cases e : s.st.state <;> simp_all [starting, inRun, inCommissioning]

theorem arrive_held (h : holds s = true) : arrive x s = { s with path := { s.path with held := s.path.held ++ [x] } } := if_pos h

theorem arrive_performs (h : holds s = false) : arrive x s = perform x s := if_neg (by simp [h])

theorem arrive_pr (h : Listens s) : arrive (.pr o v) s = prWrite o v s := arrive_performs (holds_listens h)

theorem heartbeat_starting : starting (heartbeat s) = starting s := by simp only [starting, inRun, inCommissioning, heartbeat_st]

theorem heartbeat_refusal : (heartbeat s).path.refusal = s.path.refusal := (heartbeat_quiet (s := s)).refusal_eq

theorem heartbeat_now : now (heartbeat s) = now s := congrArg (·.value) heartbeat_clk

/-! ## A write refused (R162) -/

theorem refuseWrite_path {r : Nat} : (refuseWrite r a v s).path =
    { s.path with refusal := ⟨a, v, r, now s, min 65535 (s.path.refusal.count + 1)⟩ } :=
  congrArg State.path (logEv_rest (k := .writeRefused))

theorem refuseWrite_rest {r : Nat} : { refuseWrite r a v s with path := s.path, log := s.log } = s :=
  congrArg (fun w : State => { w with path := s.path })
    (logEv_rest (s := { s with path := { s.path with refusal := ⟨a, v, r, now s, min 65535 (s.path.refusal.count + 1)⟩ } }))

theorem refuseWrite_cmd {r : Nat} : (refuseWrite r a v s).cmd = s.cmd := by
  have h := congrArg State.cmd (refuseWrite_rest (s := s) (a := a) (v := v) (r := r))
  exact h

theorem refuseWrite_settings {r : Nat} : (refuseWrite r a v s).settings = s.settings := by
  have h := congrArg State.settings (refuseWrite_rest (s := s) (a := a) (v := v) (r := r))
  exact h

/-- The refusal record after the refusal of a write that was a heartbeat. -/
theorem refuseWrite_heartbeat {r : Nat} : (refuseWrite r a v (heartbeat s)).path.refusal =
    ⟨a, v, r, now s, min 65535 (s.path.refusal.count + 1)⟩ := by
  rw [refuseWrite_path, heartbeat_now, heartbeat_refusal]

/-! ## A write inside the PR, by its area (R159) -/

theorem prWrite_starting (h : starting s = true) : prWrite o v s = refuseWrite Why.startUp (prBase s + o) v (heartbeat s) :=
  if_pos (heartbeat_starting.trans h)

/-- Past start-up the area of the offset decides. -/
theorem prWrite_area (h : starting s = false) : prWrite o v s = match prArea o with
    | .live => liveWrite o (prBase s + o) v (heartbeat s)
    | .command slot word => slotWrite slot word (prBase s + o) v (heartbeat s)
    | .guarded => guardedStore o (prBase s + o) v (heartbeat s)
    | .counter | .logRing => refuseWrite Why.protect (prBase s + o) v (heartbeat s)
    | .ordinary => hostStore (prBase s + o) v (heartbeat s) :=
  if_neg (by simp [heartbeat_starting, h])

theorem prWrite_zero (h : starting s = false) : prWrite 0 v s =
    if v.toNat ≤ 1 then freezeWrite (v == 1) (heartbeat s) else refuseWrite Why.range (prBase s) v (heartbeat s) := by
  rw [prWrite_area h]
  rfl

/-! ## Checkpoints (R164, R180) -/

theorem checkpoint_eq : ∃ q, checkpoint n s = { s with path := { s.path with queue := q } } := by
  unfold checkpoint
  split
  · exact ⟨_, rfl⟩
  · split
    · exact ⟨_, rfl⟩
    · exact ⟨_, rfl⟩

theorem checkpoint_cmd : (checkpoint n s).cmd = s.cmd := by obtain ⟨q, h⟩ := checkpoint_eq (s := s) (n := n); rw [h]

theorem checkpoint_inRun : inRun (checkpoint n s) = inRun s := by obtain ⟨q, h⟩ := checkpoint_eq (s := s) (n := n); rw [h]; rfl

theorem checkpoint_fields : recordFields (checkpoint n s) m = recordFields s m := by
  obtain ⟨q, h⟩ := checkpoint_eq (s := s) (n := n)
  rw [h]
  rfl

/-- A checkpoint placed stands in the queue. -/
theorem mem_placeCheckpoint {w : List Word} {q : List OwnRequest} : OwnRequest.checkpoint n w ∈ placeCheckpoint n w q := by
  unfold placeCheckpoint
  dsimp only
  split
  · next h =>
    obtain ⟨r, hr, hsame⟩ := List.any_eq_true.1 h
    exact List.mem_map.2 ⟨r, hr, if_pos hsame⟩
  · exact List.mem_append_right _ (List.mem_singleton.2 rfl)

/-- A checkpoint of another record leaves one that stands. -/
theorem mem_placeCheckpoint_other {w w' : List Word} {q : List OwnRequest} (hne : n ≠ m) (h : OwnRequest.checkpoint n w ∈ q) :
    OwnRequest.checkpoint n w ∈ placeCheckpoint m w' q := by
  unfold placeCheckpoint
  dsimp only
  split
  · exact List.mem_map.2 ⟨_, h, if_neg (by simpa using hne)⟩
  · exact List.mem_append_left _ h

theorem not_commissioning (h : inRun s = true) : inCommissioning s = false := by
  unfold inRun at h
  unfold inCommissioning
  rw [eq_of_beq h]
  rfl

/-- A checkpoint asked for in RUN stands with the owner's fields. -/
theorem checkpoint_stands {f : List Word} (hr : inRun s = true) (hf : recordFields s n = some f) :
    OwnRequest.checkpoint n (recordWords n f) ∈ (checkpoint n s).path.queue := by
  have hc : ¬ inCommissioning s = true := by simp [not_commissioning hr]
  unfold checkpoint
  rw [if_neg hc, hf]
  exact mem_placeCheckpoint

theorem checkpoint_leaves {w : List Word} (hne : n ≠ m) (h : OwnRequest.checkpoint n w ∈ s.path.queue) :
    OwnRequest.checkpoint n w ∈ (checkpoint m s).path.queue := by
  unfold checkpoint
  split
  · exact h
  · split
    · exact h
    · exact mem_placeCheckpoint_other hne h

/-- A run of checkpoints leaves everything but the queue. -/
theorem checkpoints_cmd : ∀ (l : List Nat) (s : State), (l.foldl (fun t n => checkpoint n t) s).cmd = s.cmd
  | [], _ => rfl
  | m :: l, s => (checkpoints_cmd l (checkpoint m s)).trans checkpoint_cmd

/-- A run of checkpoints leaves the request of every record in it, and every request of one that stood. -/
theorem checkpoints_stand {f : List Word} : ∀ (l : List Nat) (s : State), inRun s = true → recordFields s n = some f →
    (n ∈ l ∨ OwnRequest.checkpoint n (recordWords n f) ∈ s.path.queue) →
    OwnRequest.checkpoint n (recordWords n f) ∈ (l.foldl (fun t n => checkpoint n t) s).path.queue
  | [], _, _, _, h => h.resolve_left List.not_mem_nil
  | m :: l, s, hr, hf, h => by
    refine checkpoints_stand l (checkpoint m s) (checkpoint_inRun.trans hr) (checkpoint_fields.trans hf) ?_
    by_cases hm : n = m
    · subst hm
      exact .inr (checkpoint_stands hr hf)
    · rcases h with h | h
      · exact .inl ((List.mem_cons.1 h).resolve_left hm)
      · exact .inr (checkpoint_leaves hm h)

theorem checkpointAll_cmd : (checkpointAll s).cmd = s.cmd := checkpoints_cmd (List.range 14) s

theorem checkpointAll_stands {f : List Word} (hr : inRun s = true) (hn : n < 14) (hf : recordFields s n = some f) :
    OwnRequest.checkpoint n (recordWords n f) ∈ (checkpointAll s).path.queue := by
  have h : n ∈ List.range 14 := List.mem_range.2 hn
  unfold checkpointAll
  exact checkpoints_stand (List.range 14) s hr hf (.inl h)

/-! ## The interval's count (R172, R180) -/

theorem countInterval_counts (hr : inRun s = true) (hc : s.cmd.interval + 1 < 600) :
    countInterval s = { s with cmd := { s.cmd with interval := s.cmd.interval + 1 } } := by
  unfold countInterval
  rw [if_pos hr, if_neg (by omega)]

theorem countInterval_ends (hr : inRun s = true) (hc : 600 ≤ s.cmd.interval + 1) :
    countInterval s = checkpointAll { s with cmd := { s.cmd with interval := 0 } } := by
  unfold countInterval
  rw [if_pos hr, if_pos hc]

theorem countInterval_idle (hr : inRun s = false) : countInterval s = s := if_neg (by simp [hr])

theorem countInterval_pages : (countInterval s).cmd.pages = s.cmd.pages := by
  cases hr : inRun s with
  | false => rw [countInterval_idle hr]
  | true =>
    by_cases hc : s.cmd.interval + 1 < 600
    · rw [countInterval_counts hr hc]
    · rw [countInterval_ends hr (by omega), checkpointAll_cmd]

theorem commandEvaluation_runs (h : starting s = false) :
    commandEvaluation s = countInterval { s with cmd := { s.cmd with pages := s.cmd.pages.next } } := if_neg (by simp [h])

theorem starting_of_inRun (h : inRun s = true) : starting s = false := by simp [starting, h]

/-! ## The freeze control (R173) -/

theorem heartbeat_freeze : (heartbeat s).cmd.freeze = s.cmd.freeze := by rw [heartbeat_cmd]

/-- Settles O55: the evaluation by the start-up state and the interval's count, and the freeze control by its value. -/
theorem windowRows : Obligations.WindowRows := by
  refine ⟨fun s => ⟨fun h => ?idle, fun h => ?pages, fun hr hc => ⟨?notDue, ?counts⟩, fun hr hc => ?ends, fun hr hc => ?due⟩,
    fun v s hl => ?write, fun s => ⟨fun h => ?expires, fun h => ?rests⟩⟩
  case idle => exact congrArg Host.Outcome.next (if_pos h)
  case pages => exact ⟨_, congrArg Host.Outcome.next (commandEvaluation_runs h), countInterval_pages⟩
  case notDue => exact whenDue_false (by rw [intervalDue, hr, Bool.true_and, decide_eq_false_iff_not]; omega)
  case counts =>
    refine congrArg Host.Outcome.next ?_
    rw [commandEvaluation_runs (starting_of_inRun hr)]
    exact countInterval_counts hr hc
  case ends =>
    refine ⟨_, congrArg Host.Outcome.next ((commandEvaluation_runs (starting_of_inRun hr)).trans (countInterval_ends hr hc)),
      checkpointAll_cmd, fun n hn f hf => checkpointAll_stands hr hn hf⟩
  case due =>
    refine ⟨checkpointAll { s with cmd := { s.cmd with interval := 0 } }, ?_, checkpointAll_cmd,
      fun n hn f hf => checkpointAll_stands hr hn hf⟩
    exact (whenDue_true (f := countInterval) (by simp [intervalDue, hr, hc])).trans (congrArg Host.Outcome.next (countInterval_ends hr hc))
  case write =>
    refine ⟨_, congrArg Host.Outcome.next ((arrive_pr hl).trans (prWrite_zero hl.1)), fun hv => ?_, fun hv hf => ?_, fun hv hf => ?_,
      fun hv => ?_⟩
    · subst hv
      exact ⟨rfl, rfl⟩
    · subst hv
      have hfrozen : (heartbeat s).cmd.freeze = .frozen := heartbeat_freeze.trans hf
      rw [if_pos (by decide), freezeWrite, if_neg (by decide), if_pos hfrozen]
    · subst hv
      have hfrozen : (heartbeat s).cmd.freeze ≠ .frozen := fun h => hf (heartbeat_freeze.symm.trans h)
      rw [if_pos (by decide), freezeWrite, if_neg (by decide), if_neg hfrozen, heartbeat_cmd]
    · rw [if_neg (by omega), refuseWrite_cmd, heartbeat_cmd, refuseWrite_heartbeat]
      exact ⟨rfl, rfl⟩
  case expires => exact congrArg Host.Outcome.next (if_pos h)
  case rests => exact congrArg Host.Outcome.next (if_neg h)

end Sys2Proof.Machine
end

section
/-! PROOFS. The posts of commands: held, refused in start-up, or turned away by the checks of R171 (O56). -/

namespace Sys2Proof.Machine

variable {s t u : State} {slot : Fin 16} {tag : BitVec 8} {op : Nat} {c : Instr} {r : Reply}

/-! ## The opcode of a post -/

theorem postOf_lt (h : postOf c = some (slot, op, tag)) : op < 256 := by
  unfold postOf at h
  split at h
  case h_2 =>
    cases h
    exact BitVec.isLt _
  case h_24 => cases h
  all_goals
    cases h
    decide

/-! ## The checks of R171 -/

theorem dispatchRefusal_unknown (h : knownOpcode op = false) : dispatchRefusal op s = some (.refusedUnknown, 0) := by
  unfold dispatchRefusal
  rw [h]
  rfl

theorem dispatchRefusal_known (h : knownOpcode op = true) : dispatchRefusal op s =
    if inCommissioning s && !takenInCommissioning op then some (.refusedState, 240)
    else if s.sil.state == .autonomous && !takenInAutonomy op then some (.refusedAutonomy, 0) else none := by
  unfold dispatchRefusal
  rw [h]
  rfl

/-! ## A command turned away -/

theorem post_refused (ho : op < 256) (hl : Listens s) (hd : dispatchRefusal op s = some r) :
    post slot op tag s = answer slot.val op tag.toNat r (atPost slot op tag s) := by
  rw [post_listens hl ho]
  unfold takeCommand
  rw [dispatchRefusal_atPost, hd]

theorem atPost_slot (hs : Shape s) : slot.val < (atPost slot op tag s).cmd.slots.length := by
  rw [atPost_slots_length hs]
  exact slot.isLt

/-- Settles O56: a post by what holds it, and one turned away by the answer that the check gives it. -/
theorem posts : Obligations.Posts := by
  refine ⟨fun c slot op tag s hp => ⟨fun hh => ?held, fun hh hst => ?starts⟩, fun c slot op tag r s hs hp hl hd => ?refused,
    fun slot op tag s hs hl hk => ?unknown, fun op s hk => ⟨fun hst htk => ?commissioning, fun hst hsil htk => ?autonomy, fun hst hsil => ?none⟩⟩
  case held => exact (exec_post hp).trans (congrArg Host.Outcome.next (arrive_held hh))
  case starts =>
    refine ⟨_, (exec_post hp).trans (congrArg Host.Outcome.next ((arrive_performs hh).trans (prWrite_starting hst))), ?_, ?_,
      refuseWrite_heartbeat⟩
    · rw [refuseWrite_cmd, heartbeat_cmd]
    · rw [refuseWrite_path]
      exact heartbeat_cells
  case refused =>
    intro u x
    have hslot : slot.val < u.cmd.slots.length := atPost_slot hs
    have hnow : now u = now s := atPost_now
    refine ⟨_, (exec_post hp).trans (congrArg Host.Outcome.next (post_refused (postOf_lt hp) hl hd)), replyOf_answer hslot, answer_rest,
      answer_cmd hslot, fun hroom => ?_, fun hfull => answer_log_full hfull⟩
    rw [answer_log_room hroom, hnow]
  case unknown =>
    refine ⟨_, congrArg Host.Outcome.next (post_refused op.isLt hl (dispatchRefusal_unknown hk)), replyOf_answer (atPost_slot hs)⟩
  case commissioning =>
    rw [dispatchRefusal_known hk, htk, inCommissioning, hst]
    rfl
  case autonomy =>
    rw [dispatchRefusal_known hk, htk, inCommissioning, hst, hsil]
    rfl
  case none =>
    have hauto : (s.sil.state == .autonomous) = false := by simpa using hsil
    rw [dispatchRefusal_known hk, inCommissioning, hst, hauto]
    rfl

end Sys2Proof.Machine
end

section
/-! PROOFS. The commands that the Command Interpreter owns itself: SET_CLOCK, SETTINGS_LOCK, LOAD_PRESET and LOG_NOTE (O58). -/

namespace Sys2Proof.Machine

variable {s t u : State} {slot : Fin 16} {tag : BitVec 8} {op p n o : Nat} {c : Chemistry} {ss : List Word} {hi lo : Word}

/-! ## A settings word after a write of the copies (R188) -/

theorem wordIn_setWord_same {v : Word} (hl : ss.length = 640) (h : 0x180 ≤ o) (hu : o < 0x400) : wordIn (setWord ss o v) o = v := by
  unfold wordIn setWord
  rw [List.getD_eq_getElem?_getD, List.getElem?_set_self (by omega)]
  rfl

theorem wordIn_setWord_other {v : Word} {q : Nat} (h : 0x180 ≤ o) (hq : 0x180 ≤ q) (hne : q ≠ o) :
    wordIn (setWord ss o v) q = wordIn ss q := by
  unfold wordIn setWord
  rw [List.getD_eq_getElem?_getD, List.getElem?_set_ne (by omega), List.getD_eq_getElem?_getD]

/-- The words from a base on, set one after the other. -/
def setRun (base : Nat) (v : Nat → Word) (n : Nat) (ss : List Word) : List Word :=
  (List.range n).foldl (fun l w => setWord l (base + w) (v w)) ss

theorem setRun_succ {base : Nat} {v : Nat → Word} : setRun base v (n + 1) ss = setWord (setRun base v n ss) (base + n) (v n) := by
  unfold setRun
  rw [List.range_succ, List.foldl_append]
  rfl

theorem setRun_length {base : Nat} {v : Nat → Word} : (setRun base v n ss).length = ss.length := foldl_setWord_length _ _

theorem wordIn_setRun_other {base q : Nat} {v : Nat → Word} (hb : 0x180 ≤ base) (hq : 0x180 ≤ q) (hout : q < base ∨ base + n ≤ q) :
    wordIn (setRun base v n ss) q = wordIn ss q := by
  induction n with
  | zero => rfl
  | succ n ih => rw [setRun_succ, wordIn_setWord_other (by omega) hq (by omega), ih (by omega)]

theorem wordIn_setRun {base w : Nat} {v : Nat → Word} (hl : ss.length = 640) (hb : 0x180 ≤ base) (hu : base + n ≤ 0x400) (hw : w < n) :
    wordIn (setRun base v n ss) (base + w) = v w := by
  induction n with
  | zero => omega
  | succ n ih =>
    rw [setRun_succ]
    by_cases h : w = n
    · subst h
      exact wordIn_setWord_same (setRun_length.trans hl) (by omega) (by omega)
    · rw [wordIn_setWord_other (by omega) (by omega) (by omega)]
      exact ih (by omega) (by omega)

/-- The word that a preset gives to a profile's word (R28). -/
def presetWord (p : Nat) (c : Chemistry) (w : Nat) : Word :=
  if w < 17 then wordOfInt (c.words.getD w 0) else defaultWord (0x180 + 32 * p + w)

theorem presetCopy_eq : presetCopy p c ss = setRun (0x180 + 32 * p) (presetWord p c) 32 ss := rfl

theorem presetCopy_word {w : Nat} (hl : ss.length = 640) (hp : p ≤ 3) (hw : w < 17) :
    wordIn (presetCopy p c ss) (0x180 + 32 * p + w) = wordOfInt (c.words.getD w 0) := by
  rw [presetCopy_eq, wordIn_setRun hl (by omega) (by omega) (by omega)]
  exact if_pos hw

theorem presetCopy_outside (ho : 0x180 ≤ o) (hout : o < 0x180 + 32 * p ∨ 0x180 + 32 * p + 32 ≤ o) :
    wordIn (presetCopy p c ss) o = wordIn ss o := wordIn_setRun_other (by omega) ho hout

theorem shape_settings (hs : Shape s) : s.settings.length = 640 := congrArg (fun l => l.getD 15 0) hs

/-! ## What an answered command leaves unchanged -/

theorem commanded_rest : { commanded slot op tag s with cmd := (ruled slot op tag s).1.cmd, log := (ruled slot op tag s).1.log } =
    (ruled slot op tag s).1 := answer_rest

theorem commanded_path : (commanded slot op tag s).path = (ruled slot op tag s).1.path := by
  have h := congrArg State.path (commanded_rest (slot := slot) (op := op) (tag := tag) (s := s))
  exact h

theorem commanded_settings : (commanded slot op tag s).settings = (ruled slot op tag s).1.settings := by
  have h := congrArg State.settings (commanded_rest (slot := slot) (op := op) (tag := tag) (s := s))
  exact h

theorem commanded_clk : (commanded slot op tag s).clk = (ruled slot op tag s).1.clk := by
  have h := congrArg State.clk (commanded_rest (slot := slot) (op := op) (tag := tag) (s := s))
  exact h

theorem commanded_st : (commanded slot op tag s).st = (ruled slot op tag s).1.st := by
  have h := congrArg State.st (commanded_rest (slot := slot) (op := op) (tag := tag) (s := s))
  exact h

/-- The answer's COMMAND entry joins what the rule has logged. -/
theorem commanded_grows : LogGrows (ruled slot op tag s).1 (commanded slot op tag s) := logEv_grows.after rfl

/-- An answer after a change of the start-up record changes no other block than the window and the log. -/
theorem answer_setStart_rest {f : Startup → Startup} {r : Reply} :
    { answer slot.val op n r (setStart f u) with st := u.st, cmd := u.cmd, log := u.log } = u :=
  congrArg (fun w : State => { w with st := u.st }) (answer_rest (t := setStart f u))

/-! ## SET_CLOCK (R38, R103, R176) -/

/-- The clock as SET_CLOCK sets it. -/
def clockSet (hi lo : Word) (s : State) : State := { s with clk := { s.clk with value := pairNat hi lo, state := .set } }

/-- SET_CLOCK before it marks the schedules: the clock set and logged, and its checkpoint asked for. -/
def clockLogged (hi lo : Word) (s : State) : State :=
  checkpoint 13 (logEv .clockSet (wordOf s.clk.state.code) (hiWord s.clk.value) (loWord s.clk.value) (clockSet hi lo s))

theorem setClockCommand_eq : setClockCommand hi lo s =
    (setGen (fun g => { g with slotStale := true }) (setBus (fun b => { b with recheck := true }) (clockLogged hi lo s)), .done, 0) := rfl

theorem clockLogged_clk : (clockLogged hi lo s).clk = { s.clk with value := pairNat hi lo, state := .set } := by
  obtain ⟨q, h⟩ := checkpoint_eq (n := 13)
    (s := logEv .clockSet (wordOf s.clk.state.code) (hiWord s.clk.value) (loWord s.clk.value) (clockSet hi lo s))
  rw [clockLogged, h]
  exact logEv_clk

theorem clockLogged_log (h : s.log.queue.length < 32) : (clockLogged hi lo s).log.queue = s.log.queue ++
    [⟨.clockSet, wordOf s.clk.state.code, hiWord s.clk.value, loWord s.clk.value, pairNat hi lo, s.log.gap⟩] := by
  rw [clockLogged, checkpoint_log, logEv_room (s := clockSet hi lo s) h]
  rfl

theorem logEv_inRun {k : LogKind} {x a b : Word} : inRun (logEv k x a b s) = inRun s := (logEv_quiet (Quiet.refl s)).inRun_eq

/-- In RUN the clock's checkpoint stands with the value set. -/
theorem clockLogged_stands (hr : inRun s = true) :
    OwnRequest.checkpoint 13 (recordWords 13 [hiWord (pairNat hi lo), loWord (pairNat hi lo)]) ∈ (clockLogged hi lo s).path.queue := by
  refine checkpoint_stands (logEv_inRun.trans hr) ?_
  show some [hiWord (now _), loWord (now _)] = _
  rw [logEv_now]
  rfl

theorem setClockCommand_clk : (setClockCommand hi lo s).1.clk = { s.clk with value := pairNat hi lo, state := .set } := by
  rw [setClockCommand_eq]
  exact clockLogged_clk

theorem setClockCommand_log : (setClockCommand hi lo s).1.log = (clockLogged hi lo s).log := by
  rw [setClockCommand_eq]
  rfl

theorem setClockCommand_path : (setClockCommand hi lo s).1.path = (clockLogged hi lo s).path := by
  rw [setClockCommand_eq]
  rfl

/-- Every SET_CLOCK marks both schedules, and is DONE. -/
theorem setClockCommand_marks : (setClockCommand hi lo s).2 = (.done, 0) ∧ (setClockCommand hi lo s).1.bus.recheck = true ∧
    (setClockCommand hi lo s).1.gen.slotStale = true := by
  rw [setClockCommand_eq]
  exact ⟨rfl, rfl, rfl⟩

/-! ## LOAD_PRESET (R28, R160, R188) -/

theorem loadPreset_badProfile (h : 3 < p) : loadPresetCommand p n s = (s, .refusedRange, 1) := if_pos h

theorem chemistryOf_isNone (h : 2 < n) : chemistryOf n = none := by
  match n, h with
  | n + 3, _ => rfl

theorem chemistryOf_isSome (h : n ≤ 2) : ∃ c, chemistryOf n = some c := by
  match n, h with
  | 0, _ => exact ⟨_, rfl⟩
  | 1, _ => exact ⟨_, rfl⟩
  | 2, _ => exact ⟨_, rfl⟩

theorem loadPreset_badChemistry (hp : p ≤ 3) (h : 2 < n) : loadPresetCommand p n s = (s, .refusedRange, 2) := by
  rw [loadPresetCommand, if_neg (by omega), chemistryOf_isNone h]

/-- With both arguments in range the lock, the use of the profile and a standing write decide. -/
theorem loadPreset_judged (hp : p ≤ 3) (hc : chemistryOf n = some c) : loadPresetCommand p n s =
    if s.st.lock then (s, .refusedLocked, 0)
    else if profileInUse s p then (s, .refusedState, 1)
    else if profileWriteStands s then (s, .refusedBusy, 1)
    else (enqueueOwn (.profileWrite p) { s with settings := presetCopy p c s.settings }, .done, 0) := by
  rw [loadPresetCommand, if_neg (by omega), hc]

/-- A preset that nothing stands against is taken. -/
theorem loadPreset_taken (hp : p ≤ 3) (hc : chemistryOf n = some c) (hk : s.st.lock = false) (hu : profileInUse s p = false)
    (hw : profileWriteStands s = false) :
    (loadPresetCommand p n s).2 = (.done, 0) ∧ (loadPresetCommand p n s).1.path.queue = s.path.queue ++ [.profileWrite p] ∧
      (loadPresetCommand p n s).1.settings = presetCopy p c s.settings := by
  rw [loadPreset_judged hp hc, hk, hu, hw]
  generalize presetCopy p c s.settings = copies
  exact ⟨rfl, rfl, rfl⟩

/-- Settles O58: SET_CLOCK, SETTINGS_LOCK and LOAD_PRESET by the rules they run, and LOG_NOTE in a queue with one place left. -/
theorem windowCommands : Obligations.WindowCommands := by
  refine ⟨fun slot tag s hs hl hd => ?clock, fun slot tag s hs hl => ⟨fun hd => ?lock, fun hd => ?preset⟩, fun slot tag s hs hl => ?note⟩
  case clock =>
    intro u
    have hclk : u.clk = s.clk := atPost_clk
    have hrun : inRun u = inRun s := congrArg (fun x : Startup => x.state == .run) atPost_st
    have hrule : ruled slot Op.setClock tag s = setClockCommand (argWord u slot.val 1) (argWord u slot.val 2) u := rfl
    have hgrows := commanded_grows (slot := slot) (op := Op.setClock) (tag := tag) (s := s)
    rw [hrule, LogGrows, setClockCommand_log] at hgrows
    have hnow : (commanded slot Op.setClock tag s).clk =
        { s.clk with value := pairNat (argWord u slot.val 1) (argWord u slot.val 2), state := .set } := by
      rw [commanded_clk, hrule, setClockCommand_clk, hclk]
    obtain ⟨hreply, hrecheck, hstale⟩ := setClockCommand_marks (hi := argWord u slot.val 1) (lo := argWord u slot.val 2) (s := u)
    refine ⟨commanded slot Op.setClock tag s, exec_command rfl (by decide) (by decide) hl hd, ?_⟩
    rw [replyOf_commanded hs, commanded_bus, commanded_gen, hnow, hrule]
    refine ⟨hreply, rfl, rfl, rfl, hrecheck, hstale, fun hroom => hgrows.mem ?_, fun hr => ⟨_, rfl, ?_⟩⟩
    · rw [clockLogged_log hroom, hclk]
      exact List.mem_append_right _ (List.mem_singleton.2 rfl)
    · rw [now, hnow, commanded_path, hrule, setClockCommand_path]
      exact clockLogged_stands (hrun.trans hr)
  case lock =>
    intro u
    have hst : u.st = s.st := atPost_st
    have hrule : ruled slot Op.settingsLock tag s = settingsLockCommand u := rfl
    refine ⟨commanded slot Op.settingsLock tag s, exec_command rfl (by decide) (by decide) hl hd, ?_⟩
    refine ⟨?_, ?_, answer_setStart_rest (f := fun x => { x with lock := true })⟩
    · rw [replyOf_commanded hs, hrule, settingsLockCommand, hst]
    · rw [commanded_st, hrule, settingsLockCommand]
  case preset =>
    intro u p n
    have hst : u.st.lock = s.st.lock := congrArg Startup.lock atPost_st
    have hset : u.settings = s.settings := atPost_settings
    have hlen : s.settings.length = 640 := shape_settings hs
    have hrule : ruled slot Op.loadPreset tag s = loadPresetCommand p n u := rfl
    refine ⟨commanded slot Op.loadPreset tag s, exec_command rfl (by decide) (by decide) hl hd, ?_⟩
    rw [replyOf_commanded hs, commanded_settings, commanded_path, hrule]
    refine ⟨fun h => ?_, fun hp h => ?_, fun hp hn hk => ?_, fun hp hn hk hu => ?_, fun hp hn hk hu hw => ?_, fun c hc hp hk hu hw => ?_⟩
    · rw [loadPreset_badProfile h]
    · rw [loadPreset_badChemistry hp h]
    · obtain ⟨c, hc⟩ := chemistryOf_isSome hn
      rw [loadPreset_judged hp hc, hst, hk]
      exact ⟨rfl, hset⟩
    · obtain ⟨c, hc⟩ := chemistryOf_isSome hn
      rw [loadPreset_judged hp hc, hst, hk, hu]
      rfl
    · obtain ⟨c, hc⟩ := chemistryOf_isSome hn
      rw [loadPreset_judged hp hc, hst, hk, hu, hw]
      rfl
    · obtain ⟨hreply, hqueue, htaken⟩ := loadPreset_taken hp hc (hst.trans hk) hu hw
      rw [htaken, hset]
      exact ⟨hreply, hqueue, fun w hw => presetCopy_word hlen hp hw, fun o ho hout => presetCopy_outside ho hout⟩
  case note =>
    intro u
    have hnow : now u = now s := atPost_now
    refine ⟨_, exec_logNote hl, replyOf_answer ?_, fun hfull => ?_⟩
    · rw [logEv_cmd]
      exact atPost_slot hs
    · have hlog := logEv_room (s := u) (k := .logNote) (x := wordOf slot.val) (a := argWord u slot.val 1) (b := argWord u slot.val 2)
        (by omega)
      rw [answer_log_full (by rw [hlog, List.length_append, hfull]; exact Nat.le_refl _), hlog, hnow]
      exact ⟨rfl, rfl⟩

end Sys2Proof.Machine
end

section
/-! PROOFS. The Own-Cycle Engine: a request begun, an own word verified and moved to a spare, and a request whole (O60). -/

namespace Sys2Proof.Machine

variable {s t u w : State} {a e i : Nat} {v back spareBack : Word} {r : Bool} {b : OwnBusy} {q : List OwnRequest}

/-! ## A pending log event placed (R178) -/

/-- A pending event can be placed: the head is known, no entry write stands, and an event waits. -/
abbrev PlacesEntry (s : State) : Prop := s.log.ready = true ∧ entryStanding s = false ∧ s.log.queue ≠ []

theorem placeLogEntry_idle (h : ¬ PlacesEntry s) : placeLogEntry s = s := by
  unfold placeLogEntry
  split
  · next hp =>
    rw [Bool.and_eq_true, Bool.not_eq_true'] at hp
    split
    · next hq => exact absurd ⟨hp.1, hp.2, by simp [hq]⟩ h
    · rfl
  · rfl

theorem placeLogEntry_places {x : LogEvent} {l : List LogEvent} (h : PlacesEntry s) (hq : s.log.queue = x :: l) : placeLogEntry s =
    { s with path := { s.path with queue := s.path.queue ++ [.logEntry s.log.head x] }, log := { s.log with queue := l } } := by
  obtain ⟨hready, hstands, _⟩ := h
  unfold placeLogEntry
  rw [hready, hstands, hq]
  rfl

/-- Placing an event extends the queue, and leaves the request begun and the log's head and count. -/
theorem placeLogEntry_spec : (placeLogEntry s).path.busy = s.path.busy ∧ s.path.queue <+: (placeLogEntry s).path.queue ∧
    (placeLogEntry s).log.head = s.log.head ∧ (placeLogEntry s).log.count = s.log.count := by
  by_cases h : PlacesEntry s
  · obtain ⟨x, l, hq⟩ := List.exists_cons_of_ne_nil h.2.2
    rw [placeLogEntry_places h hq]
    exact ⟨rfl, List.prefix_append _ _, rfl, rfl⟩
  · rw [placeLogEntry_idle h]
    exact ⟨rfl, List.prefix_rfl, rfl, rfl⟩

/-! ## A request begun (R163, R164) -/

theorem beginOwn_next (h : s.path.busy = some b) :
    beginOwn s = { s with path := { s.path with busy := some (if b.next < b.request.total then { b with word := true } else b) } } := by
  have hself : s = { s with path := { s.path with busy := some b } } := by rw [← h]
  unfold beginOwn
  rw [h]
  dsimp only
  split
  · rfl
  · exact hself

theorem beginOwn_oldest {x : OwnRequest} (h : s.path.busy = none) (hq : s.path.queue = x :: q) :
    beginOwn s = { s with path := { s.path with queue := q, busy := some ⟨x, 0, true⟩ } } := by
  unfold beginOwn
  rw [h, hq]
  rfl

theorem beginOwn_empty (h : s.path.busy = none) (hq : s.path.queue = []) : beginOwn s = s := by
  unfold beginOwn
  rw [h, hq]

/-! ## An own word verified (R165 to R167) -/

/-- The state in which the memory has made of an own word what it reads back as. -/
def wordKept (a : Nat) (v back : Word) (s : State) : State := setPath (fun p => p.kept (p.redirect a) v back) s

/-- A failed own word is not moved: it is an entry's word, it was sent to a spare already, or no spare or entry is free. -/
abbrev Unmovable (s : State) (r : Bool) (a : Nat) : Prop :=
  r = true ∨ (s.path.entryFor a).isSome ∨ s.path.freeSpare = none ∨ s.path.freeEntry = none

theorem verifyWrite_good (h : back = v) : verifyWrite r a v back spareBack s = wordKept a v back s := if_pos h

theorem remapWord_worn (h : s.path.freeSpare = none ∨ s.path.freeEntry = none) : remapWord a v spareBack s = setWorn s := by
  unfold remapWord
  split
  · next hi he => simp [hi, he] at h
  · rfl

theorem verifyWrite_worn (h : back ≠ v) (hu : Unmovable s r a) : verifyWrite r a v back spareBack s = setWorn (wordKept a v back s) := by
  have hbad : verifyWrite r a v back spareBack s =
      if r || (s.path.entryFor a).isSome then setWorn (wordKept a v back s) else remapWord a v spareBack (wordKept a v back s) := if_neg h
  rw [hbad]
  split
  · rfl
  · next hc =>
    have hfree : s.path.freeSpare = none ∨ s.path.freeEntry = none := by
      rw [Bool.or_eq_true] at hc
      rcases hu with hr | hr | hr
      · exact absurd (.inl hr) hc
      · exact absurd (.inr hr) hc
      · exact hr
    exact remapWord_worn hfree

/-- The state in which the free spare has taken a word. -/
def spareKept (i a : Nat) (v back spareBack : Word) (s : State) : State :=
  setPath (fun p => p.kept (p.spareAddr i) v spareBack) (wordKept a v back s)

/-- A movable word goes to the free spare. -/
theorem verifyWrite_moves (h : back ≠ v) (hr : r = false) (he : s.path.entryFor a = none) (hi : s.path.freeSpare = some i)
    (hf : s.path.freeEntry = some e) : verifyWrite r a v back spareBack s =
      if spareBack = v then
        spareKept i a v back spareBack s |> setPath (fun p => { p with remap := p.remap.set e (some ⟨a, i⟩) })
          |> enqueueOwn (.remapWrite e (remapWords a i).1 (remapWords a i).2)
          |> fun t => logEv .remap (wordOf i) (wordOf a) (wordOf t.path.validEntries) t
      else spareKept i a v back spareBack s |> setPath (fun p => { p with spareFailed := i :: p.spareFailed }) |> setWorn := by
  have hbad : verifyWrite r a v back spareBack s =
      if r || (s.path.entryFor a).isSome then setWorn (wordKept a v back s) else remapWord a v spareBack (wordKept a v back s) := if_neg h
  rw [hbad, hr, he, if_neg (by decide)]
  have hspare : (wordKept a v back s).path.freeSpare = some i := hi
  have hentry : (wordKept a v back s).path.freeEntry = some e := hf
  unfold remapWord
  rw [hspare, hentry]
  rfl

theorem setWorn_cells : (setWorn s).path.cells = s.path.cells := still_cells setWorn_quiet.still

theorem setWorn_held : (setWorn s).path.held = s.path.held := still_held setWorn_quiet.still

theorem setWorn_remap : (setWorn s).path.remap = s.path.remap := setWorn_quiet.remap_eq

theorem condOf_setWorn (hc : s.conds.length = 32) : condOf (setWorn s) Pt.memoryWorn = true := condOf_setCond (by rw [hc]; decide)

/-! ## The remap table with an entry added -/

theorem findSome?_set {α β : Type} {f : α → Option β} {y : α} {z : β} (hy : f y = some z) :
    ∀ {l : List α} {e : Nat}, l.findSome? f = none → e < l.length → (l.set e y).findSome? f = some z
  | _ :: _, 0, _, _ => by simp [hy]
  | x :: l, e + 1, hn, he => by
    rw [List.findSome?_cons] at hn
    cases hx : f x with
    | some z' => simp [hx] at hn
    | none =>
      rw [hx] at hn
      rw [List.set_cons_succ, List.findSome?_cons, hx]
      exact findSome?_set hy hn (Nat.lt_of_succ_lt_succ he)

/-- An address whose entry has just been added is redirected to its spare. -/
theorem redirect_added {p : Path} (h : p.entryFor a = none) (he : e < p.remap.length) :
    ({ p with remap := p.remap.set e (some ⟨a, i⟩) } : Path).redirect a = p.spareAddr i := by
  have hfound : ({ p with remap := p.remap.set e (some ⟨a, i⟩) } : Path).entryFor a = some ⟨a, i⟩ :=
    findSome?_set (by simp) h he
  unfold Path.redirect
  rw [hfound]
  rfl

theorem freeEntry_lt {p : Path} (h : p.freeEntry = some e) : e < p.remap.length := by
  unfold Path.freeEntry at h
  exact (List.findIdx?_eq_some_iff_getElem.1 h).1

/-- The state of a word moved: the spare's word kept, the entry added, and its anchor write queued, before the REMAP entry. -/
def wordMoved (e i a : Nat) (v back spareBack : Word) (s : State) : State :=
  spareKept i a v back spareBack s |> setPath (fun p => { p with remap := p.remap.set e (some ⟨a, i⟩) })
    |> enqueueOwn (.remapWrite e (remapWords a i).1 (remapWords a i).2)

/-! ## What an own word comes to -/

/-- What a written own word comes to, with its two read-backs (R165 to R167). -/
structure WordOutcome (s u : State) (r : Bool) (a : Nat) (v back spareBack : Word) : Prop where
  others : ∀ x, x ≠ s.path.redirect a → (∀ i, s.path.freeSpare = some i → x ≠ s.path.spareAddr i) →
    readCells u.path.cells x = readCells s.path.cells x
  unspared : back = v ∨ Unmovable s r a → ∀ x, x ≠ s.path.redirect a → readCells u.path.cells x = readCells s.path.cells x
  good : back = v → memRead u a = v ∧ u.path.remap = s.path.remap ∧ u.path.queue = s.path.queue
  moved : ∀ i, s.path.freeSpare = some i → ∀ e, s.path.freeEntry = some e → back ≠ v → r = false → s.path.entryFor a = none →
    spareBack = v → u.path.remap = s.path.remap.set e (some ⟨a, i⟩) ∧ memRead u a = v ∧
      u.path.queue = s.path.queue ++ [.remapWrite e (remapWords a i).1 (remapWords a i).2]
  worn : back ≠ v → r = true ∨ (s.path.entryFor a).isSome ∨ s.path.freeSpare = none ∨ s.path.freeEntry = none ∨ spareBack ≠ v →
    u.path.remap = s.path.remap ∧ condOf u Pt.memoryWorn = true
  held : u.path.held = s.path.held

theorem wordKept_others (hw : Memory.wf s.path.cells = true) {x : Nat} (h : x ≠ s.path.redirect a) :
    readCells (wordKept a v back s).path.cells x = readCells s.path.cells x := readCells_writeCells_other hw _ h

theorem spareKept_others (hw : Memory.wf s.path.cells = true) {x : Nat} (h : x ≠ s.path.redirect a) (hi : x ≠ s.path.spareAddr i) :
    readCells (spareKept i a v back spareBack s).path.cells x = readCells s.path.cells x :=
  (readCells_writeCells_other (writeCells_wf _ _ _ hw) _ hi).trans (wordKept_others (v := v) hw h)

theorem verifyWrite_outcome (hs : Shape s) (hw : Memory.wf s.path.cells = true) :
    WordOutcome s (verifyWrite r a v back spareBack s) r a v back spareBack := by
  have hconds : s.conds.length = 32 := conds_length hs
  by_cases hback : back = v
  · rw [verifyWrite_good hback]
    exact {
      others := fun x hx _ => wordKept_others hw hx
      unspared := fun _ x hx => wordKept_others hw hx
      good := fun _ => ⟨(readCells_writeCells_same hw _ _).trans hback, rfl, rfl⟩
      moved := fun _ _ _ _ h => absurd hback h
      worn := fun h => absurd hback h
      held := rfl }
  by_cases hun : Unmovable s r a
  · have hcells : ∀ x, x ≠ s.path.redirect a → readCells (setWorn (wordKept a v back s)).path.cells x = readCells s.path.cells x :=
      fun x hx => by rw [setWorn_cells, wordKept_others hw hx]
    rw [verifyWrite_worn hback hun]
    exact {
      others := fun x hx _ => hcells x hx
      unspared := fun _ => hcells
      good := fun h => absurd h hback
      moved := fun i hi e he _ hr hent _ => by simp [Unmovable, hi, he, hr, hent] at hun
      worn := fun _ _ => ⟨setWorn_remap, condOf_setWorn hconds⟩
      held := setWorn_held }
  obtain ⟨hr, hent, i, hi, e, he⟩ : r = false ∧ s.path.entryFor a = none ∧ ∃ i, s.path.freeSpare = some i ∧ ∃ e, s.path.freeEntry = some e := by
    simp only [Unmovable, not_or, Bool.not_eq_true, ← Option.isSome_iff_ne_none, ← ne_eq] at hun
    obtain ⟨h1, h2, h3, h4⟩ := hun
    obtain ⟨i, hi⟩ := Option.isSome_iff_exists.1 h3
    obtain ⟨e, he⟩ := Option.isSome_iff_exists.1 h4
    exact ⟨h1, by simpa using h2, i, hi, e, he⟩
  rw [verifyWrite_moves hback hr hent hi he]
  by_cases hspare : spareBack = v
  · rw [if_pos hspare]
    let m := wordMoved e i a v back spareBack s
    have hpath : (logEv .remap (wordOf i) (wordOf a) (wordOf m.path.validEntries) m).path = m.path := by
      have h := congrArg State.path (logEv_rest (s := m) (k := .remap) (x := wordOf i) (a := wordOf a) (b := wordOf m.path.validEntries))
      exact h
    exact {
      others := fun x hx hfree => (congrArg (fun p : Path => readCells p.cells x) hpath).trans (spareKept_others hw hx (hfree i hi))
      unspared := fun h => absurd (h.resolve_left hback) hun
      good := fun h => absurd h hback
      moved := fun i' hi' e' he' _ _ _ _ => by
        cases hi.symm.trans hi'
        cases he.symm.trans he'
        refine ⟨congrArg Path.remap hpath, ?_, congrArg Path.queue hpath⟩
        have hread := congrArg (fun p : Path => readCells p.cells (p.redirect a)) hpath
        refine hread.trans ?_
        have hred : m.path.redirect a = s.path.spareAddr i :=
          redirect_added (p := (spareKept i a v back spareBack s).path) hent (freeEntry_lt (p := (spareKept i a v back spareBack s).path) he)
        show readCells m.path.cells (m.path.redirect a) = v
        rw [hred, ← hspare]
        exact readCells_writeCells_same (writeCells_wf _ _ _ hw) _ _
      worn := fun _ h => absurd (by
        rcases h with h | h | h | h | h
        · exact .inl h
        · exact .inr (.inl h)
        · exact .inr (.inr (.inl h))
        · exact .inr (.inr (.inr h))
        · exact absurd hspare h) hun
      held := (congrArg Path.held hpath).trans rfl }
  · rw [if_neg hspare]
    exact {
      others := fun x hx hfree => by
        rw [setWorn_cells]
        exact spareKept_others hw hx (hfree i hi)
      unspared := fun h => absurd (h.resolve_left hback) hun
      good := fun h => absurd h hback
      moved := fun _ _ _ _ _ _ _ h => absurd h hspare
      worn := fun _ _ => ⟨setWorn_remap, condOf_setWorn hconds⟩
      held := setWorn_held }

/-- The request's own progress is no part of what a word comes to. -/
theorem WordOutcome.withBusy (h : WordOutcome s u r a v back spareBack) {c : Option OwnBusy} :
    WordOutcome s (setPath (fun p => { p with busy := c }) u) r a v back spareBack :=
  ⟨h.others, h.unspared, h.good, h.moved, h.worn, h.held⟩

/-! ## A word completes -/

theorem finishOwnWord_idle (h : ∀ b, s.path.busy = some b → b.word = false) : finishOwnWord back spareBack s = s := by
  unfold finishOwnWord
  split
  · next b hb => rw [if_neg (by simp [h b hb])]
  · rfl

theorem finishOwnWord_word (h : s.path.busy = some b) (hw : b.word = true) : finishOwnWord back spareBack s =
    setPath (fun p => { p with busy := some { b with next := b.next + 1, word := false } })
      (match ownWrite s b.request b.next with
        | some x => verifyWrite b.request.isRemapWrite x.1 x.2 back spareBack s
        | none => s) := by
  unfold finishOwnWord
  rw [h]
  exact if_pos hw

/-! ## A request whole (R165, R178) -/

theorem reportOwn_spec {x : OwnRequest} : (reportOwn x s).path.busy = s.path.busy ∧ s.path.queue <+: (reportOwn x s).path.queue ∧
    (x.isLogEntry = true → (reportOwn x s).log.head = (s.log.head + 1) % 4294967296 ∧ (reportOwn x s).log.count = min 512 (s.log.count + 1)) ∧
    (x.isLogEntry = false → (reportOwn x s).log.head = s.log.head ∧ (reportOwn x s).log.count = s.log.count) := by
  cases x with
  | logEntry seq ev => exact ⟨rfl, List.prefix_rfl, fun _ => ⟨rfl, rfl⟩, fun h => by cases h⟩
  | startupLoad n m =>
    unfold reportOwn
    dsimp only
    split
    · exact ⟨rfl, List.prefix_append _ _, fun h => (by cases h), fun _ => ⟨rfl, rfl⟩⟩
    · exact ⟨rfl, List.prefix_rfl, fun h => (by cases h), fun _ => ⟨rfl, rfl⟩⟩
  | checkpoint n ws => exact ⟨rfl, List.prefix_rfl, fun h => (by cases h), fun _ => ⟨rfl, rfl⟩⟩
  | profileWrite p => exact ⟨rfl, List.prefix_rfl, fun h => (by cases h), fun _ => ⟨rfl, rfl⟩⟩
  | remapWrite n x y => exact ⟨rfl, List.prefix_rfl, fun h => (by cases h), fun _ => ⟨rfl, rfl⟩⟩

theorem completeOwn_whole (h : s.path.busy = some b) (hw : b.word = false) (hn : b.request.total ≤ b.next) :
    completeOwn s = placeLogEntry (reportOwn b.request (setPath (fun p => { p with busy := none }) s)) := by
  unfold completeOwn ownRequestWhole
  rw [h]
  exact if_pos (by simp [hw, hn])

theorem completeOwn_goesOn (h : s.path.busy = some b) (hw : b.word = true ∨ b.next < b.request.total) : completeOwn s = s := by
  unfold completeOwn ownRequestWhole
  rw [h]
  refine if_neg ?_
  rcases hw with hw | hw
  · simp [hw]
  · simp [Nat.not_le.2 hw]

/-- Settles O60: each row by the request begun, the read-backs of its word, and its words written. -/
theorem ownCycleRows : Obligations.OwnCycleRows := by
  refine ⟨fun s => ?begins, fun back spareBack s hs hw => ⟨fun h => ?idle, fun b hb hword => ?word⟩, fun u h => releaseHeld_nil h,
    fun s => ⟨fun h => ?none, fun b hb => ⟨fun hword hn => ?whole, fun h => congrArg Host.Outcome.next (completeOwn_goesOn hb h)⟩⟩⟩
  case begins =>
    intro places
    refine ⟨fun x q hb hq => ⟨fun hp => ?_, fun e l hp hl => ?_⟩, fun e l hb hq hr hl => ?_, fun hb hq hp => ?_,
      fun b hb => ⟨fun hp => ?_, fun e l hp hl => ?_⟩⟩
    · exact congrArg Host.Outcome.next ((congrArg beginOwn (placeLogEntry_idle hp)).trans (beginOwn_oldest hb hq))
    · have hplace := placeLogEntry_places hp hl
      refine congrArg Host.Outcome.next ((congrArg beginOwn hplace).trans (beginOwn_oldest hb ?_))
      rw [hq]
      rfl
    · have hp : PlacesEntry s := ⟨hr, by simp [entryStanding, hb, hq], by simp [hl]⟩
      have hplace := placeLogEntry_places hp hl
      refine congrArg Host.Outcome.next ((congrArg beginOwn hplace).trans (beginOwn_oldest (q := s.path.queue) hb ?_))
      rw [hq]
      rfl
    · have hidle : ¬ PlacesEntry s := fun h => by
        rcases hp with hp | hp
        · rw [h.1] at hp
          cases hp
        · exact h.2.2 hp
      exact congrArg Host.Outcome.next ((congrArg beginOwn (placeLogEntry_idle hidle)).trans (beginOwn_empty hb hq))
    · exact congrArg Host.Outcome.next ((congrArg beginOwn (placeLogEntry_idle hp)).trans (beginOwn_next hb))
    · exact congrArg Host.Outcome.next ((congrArg beginOwn (placeLogEntry_places hp hl)).trans (beginOwn_next hb))
  case idle => exact congrArg (fun t => Host.Outcome.next (releaseHeld t)) (finishOwnWord_idle h)
  case word =>
    refine ⟨finishOwnWord back spareBack s, rfl, ?_⟩
    rw [finishOwnWord_word hb hword]
    cases how : ownWrite s b.request b.next with
    | none => exact ⟨rfl, rfl, fun _ => rfl, fun a v h => by cases h⟩
    | some x =>
      have h := (verifyWrite_outcome (r := b.request.isRemapWrite) (a := x.1) (v := x.2) (back := back) (spareBack := spareBack) hs hw).withBusy
        (c := some { b with next := b.next + 1, word := false })
      refine ⟨h.held, rfl, fun hn => (by cases hn), fun a v hx => ?_⟩
      cases hx
      exact ⟨h.others, h.unspared, h.good, h.moved, h.worn⟩
  case none =>
    refine congrArg Host.Outcome.next ?_
    unfold completeOwn
    rw [h]
  case whole =>
    refine ⟨_, congrArg Host.Outcome.next (completeOwn_whole hb hword hn), ?_⟩
    generalize hcut : setPath (fun p => { p with busy := none }) s = cut
    obtain ⟨hbusy, hqueue, hentry, hother⟩ := reportOwn_spec (x := b.request) (s := cut)
    obtain ⟨hbusy', hqueue', hhead, hcount⟩ := placeLogEntry_spec (s := reportOwn b.request cut)
    rw [hhead, hcount]
    subst hcut
    exact ⟨hbusy'.trans hbusy, still_cells (placeLogEntry_still.trans reportOwn_still), hqueue.trans hqueue', hentry, hother⟩

end Sys2Proof.Machine
end

section
/-! PROOFS. Host writes: the memory, the guarded store of a settings word, and the areas of the PR (O59). -/

namespace Sys2Proof.Machine

variable {s t u : State} {a o k w : Nat} {v old : Word} {slot : Fin 16} {n p : Nat}

/-! ## The memory after a host write (R159) -/

theorem hostStore_path (hf : s.path.faulty.contains (s.path.redirect a) = false) :
    (hostStore a v s).path = { s.path with cells := (hostStore a v s).path.cells } := by
  unfold hostStore Path.store
  rw [hf]
  rfl

theorem hostStore_refusal : (hostStore a v s).path.refusal = s.path.refusal := by
  unfold hostStore Path.store
  dsimp only
  split <;> rfl

/-- A write at a sound word reads back. -/
theorem memRead_hostStore (hwf : Memory.wf s.path.cells = true) (hf : s.path.faulty.contains (s.path.redirect a) = false) :
    memRead (hostStore a v s) a = v := by
  have hred : (hostStore a v s).path.redirect a = s.path.redirect a := by rw [hostStore_path hf]; rfl
  rw [memRead, hred]
  exact (Path.store_read s.path _ _ v hwf hf).trans (if_pos rfl)

/-- A heartbeat leaves the memory, its remap table and its faulty words. -/
theorem heartbeat_redirect : (heartbeat s).path.redirect a = s.path.redirect a := (heartbeat_quiet (s := s)).redirect_eq a

theorem heartbeat_sound (hf : s.path.faulty.contains (s.path.redirect a) = false) :
    (heartbeat s).path.faulty.contains ((heartbeat s).path.redirect a) = false := by
  rw [heartbeat_redirect, (heartbeat_quiet (s := s)).faulty_eq]
  exact hf

theorem heartbeat_wf (hwf : Memory.wf s.path.cells = true) : Memory.wf (heartbeat s).path.cells = true := by
  rw [heartbeat_cells]
  exact hwf

theorem memRead_heartbeatStore (hwf : Memory.wf s.path.cells = true) (hf : s.path.faulty.contains (s.path.redirect a) = false) :
    memRead (hostStore a v (heartbeat s)) a = v := memRead_hostStore (heartbeat_wf hwf) (heartbeat_sound hf)

/-! ## A heartbeat leaves what the checks of R160 read -/

theorem heartbeat_bus : (heartbeat s).bus = s.bus := by
  unfold heartbeat
  dsimp only
  split
  · exact (withdrawCond_bus rfl).trans logEv_bus
  · rfl

theorem guardFails_heartbeat : guardFails o v (heartbeat s) = guardFails o v s := by
  have hc : connectedStrings (heartbeat s) = connectedStrings s := connectedStrings_congr (by rw [heartbeat_str])
  simp only [guardFails, profileInUse, testRunning, inRun, heartbeat_st, heartbeat_settings, heartbeat_bus, hc]
  rfl

/-! ## What a settings word's owner leaves unchanged -/

/-- The copies of the settings and the redirection of the memory. -/
def copies (s : State) := (s.settings, s.path.remap, s.path.msz)

theorem Quiet.sameCopies (h : Quiet s t) : copies t = copies s := by rw [copies, copies, h.settings_eq, h.remap_eq, h.msz_eq]

theorem tallyQuantumStored_copies : copies (tallyQuantumStored s) = copies s := (takeQuanta_quiet (Quiet.refl _)).sameCopies

theorem plantStored_copies : copies (plantStored n s) = copies s := by
  have r := Quiet.refl s
  unfold plantStored
  split
  · split
    · exact (capacityStored_quiet r).sameCopies
    · rfl
  · split
    · exact (reclamp_quiet r).sameCopies
    · split
      · exact (busWindowStored_quiet r).sameCopies
      · split
        · exact (immediateShed_quiet r).sameCopies
        · split
          · exact (outageDelayStored_quiet r).sameCopies
          · split
            · exact (genCapacityStored_quiet r).sameCopies
            · split
              · rfl
              · split
                · exact tallyQuantumStored_copies
                · rfl

theorem alarmStored_copies : copies (alarmStored p w old s) = copies s := by
  unfold alarmStored
  split
  · exact (classChanged_quiet (Quiet.refl s)).sameCopies
  · split
    · exact (latchingStored_quiet (Quiet.refl s)).sameCopies
    · rfl

theorem settingTaken_copies : copies (settingTaken o old s) = copies s := by
  unfold settingTaken
  split
  · rfl
  · split
    · exact plantStored_copies
    · exact alarmStored_copies

theorem settingTaken_settings : (settingTaken o old s).settings = s.settings := congrArg (·.1) (settingTaken_copies (s := s))

theorem settingTaken_memRead : memRead (settingTaken o old s) a = memRead s a := by
  have h := settingTaken_copies (s := s) (o := o) (old := old)
  exact memRead_congr ⟨still_cells settingTaken_still, congrArg (·.2.1) h, congrArg (·.2.2) h⟩

/-! ## A guarded write (R160) -/

theorem guardedStore_fails (h : guardFails o v s = some n) : guardedStore o a v s = refuseWrite n a v s := by
  unfold guardedStore
  rw [h]

theorem guardedStore_taken (h : guardFails o v s = none) : guardedStore o a v s =
    settingTaken o (wordIn s.settings o) { hostStore a v s with settings := setWord s.settings o v } := by
  unfold guardedStore
  rw [h]

theorem prArea_guarded (ho : 0x180 ≤ o) (hu : o < 0x400) : prArea o = .guarded := by
  unfold prArea
  rw [if_neg (by omega), if_neg (by omega), if_pos hu]

theorem guardedWrite_judged {o : BitVec 13} (hl : Listens s) (ho : 0x180 ≤ o.toNat) (hu : o.toNat < 0x400) :
    exec (.guardedWrite o v) s = .next (guardedStore o.toNat (prBase s + o.toNat) v (heartbeat s)) := by
  refine congrArg Host.Outcome.next ((arrive_pr hl).trans ?_)
  rw [prWrite_area hl.1, prArea_guarded ho hu]

/-- The first check in the order of R160 that a write fails. -/
theorem guardFails_locked (h : s.st.lock = true) : guardFails o v s = some 1 := if_pos h

theorem guardFails_startUp (h : s.st.lock = false) (hr : inRun s = false) : guardFails o v s = some 2 := by
  unfold guardFails
  rw [h, hr]
  rfl

theorem guardFails_run (h : s.st.lock = false) (hr : inRun s = true) : guardFails o v s =
    if !inRange s.settings o v then some Why.range
    else if !keepsOrder s.settings o v then some Why.order
    else if o < 0x200 ∧ profileInUse s ((o - 0x180) / 32) then some Why.inUse
    else none := by
  unfold guardFails
  rw [h, hr]
  rfl

/-! ## The settings words that no rule takes at once -/

theorem settingTaken_rests (ho : 0x180 ≤ o) (hu : o < 0x400) (h : takenAtOnce o = false) : settingTaken o old s = s := by
  simp only [takenAtOnce, List.contains_cons, List.contains_nil, Bool.or_false, Bool.or_eq_false_iff, beq_eq_false_iff_ne, ne_eq,
    decide_eq_false_iff_not] at h
  unfold settingTaken
  split
  · rfl
  · split
    · unfold plantStored
      split
      · rw [if_neg (fun h3 => by omega)]
      · iterate 7 (split; · omega)
        rfl
    · unfold alarmStored
      rw [if_neg (fun h3 => by omega), if_neg (fun h3 => by omega)]

/-! ## A slot's words (R170) -/

theorem prArea_command (h : prArea o = .command k w) : o = 0x100 + 8 * k + w := by
  unfold prArea at h
  split at h
  · cases h
  · split at h
    · rw [PrArea.command.injEq] at h
      omega
    · grind

theorem slotWrite_argument {i : Nat} (h1 : 1 ≤ i) (h7 : i < 7) : slotWrite k i a v s = captureWord k i v (hostStore a v s) := by
  have h0 : i ≠ 0 := by omega
  have hresult : i ≠ 7 := by omega
  exact (if_neg hresult).trans (if_neg h0)

theorem slotWrite_result : slotWrite k 7 a v s = refuseWrite Why.protect a v s := if_pos rfl

theorem replyOf_captureWord {i : Nat} (h : slot.val < s.cmd.slots.length) : replyOf (captureWord slot.val i v s) slot = replyOf s slot := by
  simp only [replyOf, captureWord, updAt_getD _ _ _ _ h]

/-! ## Writes that the PR protects -/

theorem liveWrite_protected (h : o ≠ 0) : liveWrite o a v s = refuseWrite Why.protect a v s := if_neg h

theorem prWrite_protected (hst : starting s = false) (h : prArea o = .counter ∨ prArea o = .logRing ∨ (prArea o = .live ∧ o ≠ 0) ∨
    (∃ k, prArea o = .command k 7)) : prWrite o v s = refuseWrite Why.protect (prBase s + o) v (heartbeat s) := by
  rw [prWrite_area hst]
  rcases h with h | h | ⟨h, hne⟩ | ⟨k, h⟩ <;> rw [h]
  · exact liveWrite_protected hne
  · exact slotWrite_result

/-- A refused write that was a heartbeat. -/
theorem refuseWrite_afterHeartbeat {r : Nat} : (refuseWrite r a v (heartbeat s)).settings = s.settings ∧
    (refuseWrite r a v (heartbeat s)).cmd = s.cmd ∧ (refuseWrite r a v (heartbeat s)).path.cells = s.path.cells ∧
    (refuseWrite r a v (heartbeat s)).path.refusal = ⟨a, v, r, now s, min 65535 (s.path.refusal.count + 1)⟩ :=
  ⟨refuseWrite_settings.trans heartbeat_settings, refuseWrite_cmd.trans heartbeat_cmd, (still_cells refuseWrite_still).trans heartbeat_cells,
    refuseWrite_heartbeat⟩

/-! ## The three rows of a host write -/

theorem addrWrite_other (h : areaOf s.path.size (prBase s) a = .other ∨ areaOf s.path.size (prBase s) a = .anchorRest) :
    addrWrite a v s = hostStore a v s := by
  unfold addrWrite
  rcases h with h | h <;> rw [h]

theorem addrWrite_protected (h : areaOf s.path.size (prBase s) a = .remapTable ∨ areaOf s.path.size (prBase s) a = .spare) :
    addrWrite a v s = refuseWrite Why.protect a v s := by
  unfold addrWrite
  rcases h with h | h <;> rw [h]

/-- A host write by the area of its address. -/
theorem hostWrite_rows (a : BitVec 19) (v : Word) (s : State) (hwf : Memory.wf s.path.cells = true) (hh : holds s = false) :
    let area := areaOf s.path.size (prBase s) a.toNat
    (area = .other ∨ area = .anchorRest → ∃ t, exec (.hostWrite a v) s = .next t ∧
      { t with path := s.path } = s ∧
      (s.path.faulty.contains (s.path.redirect a.toNat) = false →
        t.path = { s.path with cells := t.path.cells } ∧ memRead t a.toNat = v)) ∧
    (area = .remapTable ∨ area = .spare → ∃ t, exec (.hostWrite a v) s = .next t ∧
      t.path = { s.path with refusal := ⟨a.toNat, v, 6, now s, min 65535 (s.path.refusal.count + 1)⟩ } ∧
      { t with path := s.path, log := s.log } = s) ∧
    (∀ w : Fin 16, area = .descriptor w.val → exec (.hostWrite a v) s = exec (.descriptorWrite w v) s) ∧
    (∀ o : BitVec 13, area = .pr o.toNat → exec (.hostWrite a v) s = exec (.guardedWrite o v) s) := by
  intro area
  have hrow : exec (.hostWrite a v) s = .next (addrWrite a.toNat v s) := congrArg Host.Outcome.next (arrive_performs hh)
  refine ⟨fun h => ⟨_, hrow.trans (congrArg Host.Outcome.next (addrWrite_other h)), rfl,
      fun hf => ⟨hostStore_path hf, memRead_hostStore hwf hf⟩⟩,
    fun h => ⟨_, hrow.trans (congrArg Host.Outcome.next (addrWrite_protected h)), refuseWrite_path, refuseWrite_rest⟩,
    fun w h => hrow.trans ?_, fun o h => hrow.trans ?_⟩
  · refine congrArg Host.Outcome.next (Eq.trans ?_ (arrive_performs (x := .anchor w.val v) hh).symm)
    unfold addrWrite
    rw [show areaOf s.path.size (prBase s) a.toNat = .descriptor w.val from h]
    rfl
  · refine congrArg Host.Outcome.next (Eq.trans ?_ (arrive_performs (x := .pr o.toNat v) hh).symm)
    unfold addrWrite
    rw [show areaOf s.path.size (prBase s) a.toNat = .pr o.toNat from h]
    rfl

/-- A descriptor write by the lock. -/
theorem anchorWrite_rows (hwf : Memory.wf s.path.cells = true) :
    (s.st.lock = false → { anchorWrite w v s with path := s.path } = s ∧
      (s.path.faulty.contains (s.path.redirect (s.path.size - 64 + w)) = false →
        (anchorWrite w v s).path = { s.path with cells := (anchorWrite w v s).path.cells } ∧
          memRead (anchorWrite w v s) (s.path.size - 64 + w) = v)) ∧
    (s.st.lock = true → (anchorWrite w v s).path = { s.path with
      refusal := ⟨s.path.size - 64 + w, v, 1, now s, min 65535 (s.path.refusal.count + 1)⟩ } ∧
      { anchorWrite w v s with path := s.path, log := s.log } = s) := by
  refine ⟨fun h => ?_, fun h => ?_⟩
  · have hrow : anchorWrite w v s = hostStore (s.path.size - 64 + w) v s := if_neg (by simp [h])
    rw [hrow]
    exact ⟨rfl, fun hf => ⟨hostStore_path hf, memRead_hostStore hwf hf⟩⟩
  · have hrow : anchorWrite w v s = refuseWrite Why.locked (s.path.size - 64 + w) v s := if_pos h
    rw [hrow]
    exact ⟨refuseWrite_path, refuseWrite_rest⟩

/-- A settings word taken stands in the copies and in the memory, and the other copies are as they were. -/
theorem guardedStore_stored (hset : s.settings.length = 640) (hwf : Memory.wf s.path.cells = true) (ho : 0x180 ≤ o) (hu : o < 0x400)
    (h : guardFails o v s = none) : wordIn (guardedStore o a v s).settings o = v ∧
      (∀ q, 0x180 ≤ q → q ≠ o → wordIn (guardedStore o a v s).settings q = wordIn s.settings q) ∧
      (s.path.faulty.contains (s.path.redirect a) = false → memRead (guardedStore o a v s) a = v) := by
  rw [guardedStore_taken h, settingTaken_settings, settingTaken_memRead]
  exact ⟨wordIn_setWord_same hset ho hu, fun q hq hne => wordIn_setWord_other ho hq hne, fun hf => memRead_hostStore hwf hf⟩

/-- Settles O59: a host write by its area, a descriptor write by the lock, and a PR write by the start-up and by its area. -/
theorem hostWrites : Obligations.HostWrites := by
  refine ⟨fun a v s hwf => ⟨fun hh => congrArg Host.Outcome.next (arrive_held hh), hostWrite_rows a v s hwf⟩,
    fun w v s hwf => ⟨fun hh => congrArg Host.Outcome.next (arrive_held hh),
      fun hh => ⟨_, congrArg Host.Outcome.next (arrive_performs hh), anchorWrite_rows hwf⟩⟩,
    fun o v s => ⟨fun hh => congrArg Host.Outcome.next (arrive_held hh),
      fun hh hst => ⟨_, congrArg Host.Outcome.next ((arrive_performs hh).trans (prWrite_starting hst)), refuseWrite_afterHeartbeat⟩⟩,
    fun o v s hs hwf ho hu hl => ⟨⟨_, guardedWrite_judged hl ho hu, fun h => ?taken, fun n h => ?fails⟩, guardFails_locked,
      fun hk hst => guardFails_startUp hk (by simpa [inRun] using hst), fun hk hst => ?run⟩,
    fun o v s hs hwf hl => ⟨fun h => ?guarded, fun h => ?ordinary, fun slot i hsl h1 h7 h => ?argument, rfl, fun slot op tag h => ?post⟩,
    fun o v s ho hu ht hst => ?stored⟩
  case taken =>
    have hset : (heartbeat s).settings.length = 640 := (congrArg List.length heartbeat_settings).trans (shape_settings hs)
    have hguard := guardFails_heartbeat.trans h
    obtain ⟨hword, hothers, hmem⟩ := guardedStore_stored (a := prBase s + o.toNat) hset (heartbeat_wf hwf) ho hu hguard
    exact ⟨hword, fun q hq hne => (hothers q hq hne).trans (by rw [heartbeat_settings]), fun hf => hmem (heartbeat_sound hf)⟩
  case fails =>
    rw [guardedStore_fails (guardFails_heartbeat.trans h)]
    obtain ⟨hset, _, hcells, hrec⟩ := refuseWrite_afterHeartbeat (s := s) (a := prBase s + o.toNat) (v := v) (r := n)
    exact ⟨hset, hcells, hrec⟩
  case run =>
    intro inUse
    rw [guardFails_run hk (by simp [inRun, hst])]
    refine ⟨fun h => by rw [h]; rfl, fun h h' => by rw [h, h']; rfl, fun h h' => ⟨fun huse => ?_, fun huse => ?_⟩⟩
    · rw [h, h']
      exact if_pos huse
    · rw [h, h']
      exact if_neg huse
  case guarded =>
    have hne : (o ≠ 0) → o.toNat ≠ 0 := fun h h' => h (BitVec.eq_of_toNat_eq h')
    refine ⟨_, congrArg Host.Outcome.next ((arrive_pr hl).trans (prWrite_protected hl.1 ?_)), refuseWrite_afterHeartbeat⟩
    rcases h with h | h | ⟨h, hz⟩ | h
    · exact .inl h
    · exact .inr (.inl h)
    · exact .inr (.inr (.inl ⟨h, hne hz⟩))
    · exact .inr (.inr (.inr h))
  case ordinary =>
    have hrow : prWrite o.toNat v s = hostStore (prBase s + o.toNat) v (heartbeat s) := by rw [prWrite_area hl.1, h]
    exact ⟨_, congrArg Host.Outcome.next ((arrive_pr hl).trans hrow), heartbeat_settings, heartbeat_cmd,
      hostStore_refusal.trans heartbeat_refusal, fun hf => memRead_heartbeatStore hwf hf⟩
  case argument =>
    have hrow : prWrite o.toNat v s = captureWord slot.val i v (hostStore (prBase s + o.toNat) v (heartbeat s)) := by
      rw [prWrite_area hl.1, h]
      exact slotWrite_argument h1 h7
    have hcmd : (hostStore (prBase s + o.toNat) v (heartbeat s)).cmd = s.cmd := heartbeat_cmd
    have hlen : s.cmd.slots.length = 16 := congrArg (fun l => l.getD 14 0) hs
    have hslot : slot.val < (hostStore (prBase s + o.toNat) v (heartbeat s)).cmd.slots.length := by
      rw [hcmd, hlen]
      exact slot.isLt
    refine ⟨_, congrArg Host.Outcome.next ((arrive_pr hl).trans hrow), heartbeat_settings, argWord_captureWord hslot ?_ h7,
      (replyOf_captureWord hslot).trans ?_, fun hf => memRead_heartbeatStore hwf hf⟩
    · intro c hc
      rw [hcmd] at hc
      exact hsl c hc
    · rw [replyOf, hcmd, replyOf]
  case post =>
    have ho : o.toNat = 0x100 + 8 * slot.val := prArea_command h
    show (Host.Outcome.next (arrive (.pr o.toNat (bytesWord op.toNat tag.toNat)) s) : Answer) = _
    rw [ho]
    rfl
  case stored =>
    obtain ⟨hs, hl, hguard⟩ := hst
    rw [guardedWrite_judged hl ho hu, guardedStore_taken (guardFails_heartbeat.trans hguard), settingTaken_rests ho hu ht]
    rfl

end Sys2Proof.Machine
end

section
/-! PROOFS. The resets: what each block becomes, the memory that an own write cut short leaves, power-on and pin reset (O10). -/

namespace Sys2Proof.Machine

variable {s t u : State} {msz : BitVec 2} {kind : ResetKind} {a b kt ks : Bool} {late after : List LogEvent} {p : Nat}

/-! ## The memory at a reset (R169) -/

/-- With no own write in progress a reset finds the memory as it is. -/
theorem cutOwnWord_none (h : ownWriteInProgress s = none) : cutOwnWord s = s := by
  unfold ownWriteInProgress at h
  unfold cutOwnWord
  cases hb : s.path.busy with
  | none => rfl
  | some b =>
    cases hw : b.word with
    | false => simp [hw]
    | true =>
      rw [hb, Option.bind_some, if_pos hw] at h
      simp [hw, h]

/-- An own write in progress is completed, as a host's write of the same word would be. -/
theorem cutOwnWord_some {x : Nat} {v : Word} (h : ownWriteInProgress s = some (x, v)) : cutOwnWord s = hostStore x v s := by
  unfold ownWriteInProgress at h
  unfold cutOwnWord
  cases hb : s.path.busy with
  | none =>
    rw [hb] at h
    cases h
  | some b =>
    rw [hb, Option.bind_some] at h
    split at h
    · next hw => simp [hw, h]
    · cases h

theorem memoryCut_of_cells (h : t.path.cells = (cutOwnWord s).path.cells) : MemoryCut s t := by
  rw [MemoryCut, h]
  refine ⟨fun hn x => by rw [cutOwnWord_none hn], fun a v hw hwf => ?_⟩
  rw [cutOwnWord_some hw]
  exact ⟨fun x hx => Path.store_other _ _ hwf hx, fun hf => (Path.store_read _ _ _ _ hwf hf).trans (if_pos rfl)⟩

/-! ## The four parts of a pin or soft reset -/

/-- The state after the parts of a reset that keep or lose the strings, the bus and the train. -/
def restarted (kt ks : Bool) (s : State) : State := s |> cutOwnWord |> resetStrings kt ks |> resetBus kt |> resetTrain kt

theorem warmReset_eq : warmReset msz kind a b after s =
    resetRest msz kind a b (a && !inCommissioning s) (b && !inCommissioning s) (s.st.late ++ lateEntries s)
      (after ++ if b && !inCommissioning s then abandonEntries s else [])
      (restarted (a && !inCommissioning s) (b && !inCommissioning s) s) := rfl

/-- What the first parts of a reset leave as it was. -/
def beyondReset (s : State) := (s.clk, s.st, s.settings, s.scan, s.inp, s.pm)

theorem Quiet.beyondReset (h : Quiet s t) : beyondReset t = beyondReset s := by
  rw [Machine.beyondReset, Machine.beyondReset, h.clk_eq, h.st_eq, h.settings_eq, h.scan_eq, h.inp_eq, h.pm_eq]

theorem cutOwnWord_beyond : beyondReset (cutOwnWord s) = beyondReset s := by
  obtain ⟨q, h, -, -⟩ := cutOwnWord_rest (s := s)
  rw [h]
  rfl

theorem resetStrings_beyond : beyondReset (resetStrings kt ks s) = beyondReset s := by
  unfold resetStrings
  cases ks with
  | true => exact (abandonReconnect_quiet (o := .abandonedReset) (Quiet.refl s)).beyondReset
  | false => rfl

/-- The three jobs' claims withdrawn. -/
def withdrawJobs (s : State) : State := s |> withdrawClaim .equalize |> withdrawClaim .test |> withdrawClaim .matching

/-- The Bus Regulator's records after a reset that keeps the power train. -/
def busRecords (s : State) : State :=
  { s with bus := { s.bus with eq := s.bus.eq.atReset (now s), test := s.bus.test.atReset (now s), recheck := false } }

theorem resetBus_kept : resetBus true s = withdrawJobs (busRecords s) := rfl

theorem resetBus_lost : resetBus false s =
    { s with bus := { Bus.reset with eq := s.bus.eq.atReset (now s), test := s.bus.test.atReset (now s) } } := rfl

theorem withdrawJobs_rest : ∃ c, withdrawJobs s = { s with bus := c } ∧ c.beyond = s.bus.beyond := by
  obtain ⟨b1, h1, -, -, k1⟩ := withdrawClaim_bus (c := .equalize) (s := s)
  obtain ⟨b2, h2, -, -, k2⟩ := withdrawClaim_bus (c := .test) (s := { s with bus := b1 })
  obtain ⟨b3, h3, -, -, k3⟩ := withdrawClaim_bus (c := .matching) (s := { s with bus := b2 })
  refine ⟨b3, ?_, k3.trans (k2.trans k1)⟩
  unfold withdrawJobs
  rw [h1, h2, h3]

/-- The Bus Regulator's reset changes its own block, where the two records of its jobs end. -/
theorem resetBus_rest : ∃ c, resetBus kt s = { s with bus := c } ∧ c.eq = s.bus.eq.atReset (now s) ∧ c.test = s.bus.test.atReset (now s) := by
  cases kt with
  | false => exact ⟨_, resetBus_lost, rfl, rfl⟩
  | true =>
    obtain ⟨c, hc, hb⟩ := withdrawJobs_rest (s := busRecords s)
    exact ⟨c, resetBus_kept.trans hc, beyond_eq hb, beyond_test hb⟩

theorem resetTrain_rest : ∃ x y z, resetTrain kt s = { s with ros := x, src := y, gen := z } := by
  unfold resetTrain
  cases kt with
  | true => exact ⟨_, _, _, rfl⟩
  | false => exact ⟨_, _, _, rfl⟩

theorem restarted_beyond : beyondReset (restarted kt ks s) = beyondReset s := by
  obtain ⟨c, hc, -, -⟩ := resetBus_rest (kt := kt) (s := resetStrings kt ks (cutOwnWord s))
  obtain ⟨x, y, z, h⟩ := resetTrain_rest (kt := kt) (s := resetBus kt (resetStrings kt ks (cutOwnWord s)))
  rw [restarted, h, hc]
  show beyondReset (resetStrings kt ks (cutOwnWord s)) = _
  exact resetStrings_beyond.trans cutOwnWord_beyond

theorem restarted_str : (restarted kt ks s).str = (resetStrings kt ks (cutOwnWord s)).str := by
  obtain ⟨c, hc, -, -⟩ := resetBus_rest (kt := kt) (s := resetStrings kt ks (cutOwnWord s))
  obtain ⟨x, y, z, h⟩ := resetTrain_rest (kt := kt) (s := resetBus kt (resetStrings kt ks (cutOwnWord s)))
  rw [restarted, h, hc]

theorem restarted_conds : (restarted kt ks s).conds = (resetStrings kt ks (cutOwnWord s)).conds := by
  obtain ⟨c, hc, -, -⟩ := resetBus_rest (kt := kt) (s := resetStrings kt ks (cutOwnWord s))
  obtain ⟨x, y, z, h⟩ := resetTrain_rest (kt := kt) (s := resetBus kt (resetStrings kt ks (cutOwnWord s)))
  rw [restarted, h, hc]

theorem restarted_bus : (restarted kt ks s).bus = (resetBus kt (resetStrings kt ks (cutOwnWord s))).bus := by
  obtain ⟨x, y, z, h⟩ := resetTrain_rest (kt := kt) (s := resetBus kt (resetStrings kt ks (cutOwnWord s)))
  rw [restarted, h]

/-! ## The blocks after a pin or soft reset -/

section Warm

variable (hr : t = warmReset msz kind a b after s)
include hr

theorem warm_eq : t = resetRest msz kind a b (a && !inCommissioning s) (b && !inCommissioning s) (s.st.late ++ lateEntries s)
      (after ++ if b && !inCommissioning s then abandonEntries s else [])
      (restarted (a && !inCommissioning s) (b && !inCommissioning s) s) := hr

theorem warm_clk : t.clk = s.clk := by
  rw [warm_eq hr]
  exact congrArg (·.1) restarted_beyond

theorem warm_still : still t = ((cutOwnWord s).path.cells, s.path.held, s.st.lock && kind == .soft) := by
  rw [hr]
  exact warmReset_still

theorem warm_cells : t.path.cells = (cutOwnWord s).path.cells := by
  have h := congrArg (·.1) (warm_still hr)
  exact h

theorem warm_lock : t.st.lock = (s.st.lock && kind == .soft) := by
  have h := congrArg (·.2.2) (warm_still hr)
  exact h

/-- The start-up record but for the lock. -/
theorem warm_start : t.st.state = .loadAnchor ∧ t.st.kind = kind ∧ t.st.resetTime = now s ∧ t.st.late = s.st.late ++ lateEntries s := by
  have hclk := warm_clk hr
  rw [warm_eq hr] at hclk ⊢
  exact ⟨rfl, rfl, congrArg Clock.value hclk, rfl⟩

theorem warm_log : t.log.queue = resetEntry kind a b (now s) ::
    (after ++ if b && !inCommissioning s then abandonEntries s else []) ∧ t.log.gap = false := by
  have hclk := warm_clk hr
  rw [warm_eq hr] at hclk ⊢
  refine ⟨?_, rfl⟩
  show resetEntry kind a b (now (restarted _ _ s)) :: _ = _
  rw [show now (restarted _ _ s) = now s from congrArg Clock.value hclk]

/-- The blocks that restart at every reset: the Memory Path's record, the window, the silence, the alarms. -/
theorem warm_restarts : t.path.refusal = ⟨0, 0, 0, 0, 0⟩ ∧ t.path.busy = none ∧ t.path.spareFailed = [] ∧ t.cmd = .reset ∧
    t.sil = ⟨.supervised, 0⟩ ∧ t.alm = .reset := by
  rw [warm_eq hr]
  exact ⟨rfl, rfl, rfl, rfl, rfl, rfl⟩

theorem warm_measures : t.scan = s.scan.atReset ∧ t.inp = .reset s.inp.lines ∧ t.pm = .reset s.pm.sense := by
  have h := restarted_beyond (kt := a && !inCommissioning s) (ks := b && !inCommissioning s) (s := s)
  generalize hx : restarted (a && !inCommissioning s) (b && !inCommissioning s) s = x at h
  have hscan : x.scan = s.scan := congrArg (·.2.2.2.1) h
  have hinp : x.inp = s.inp := congrArg (·.2.2.2.2.1) h
  have hpm : x.pm = s.pm := congrArg (·.2.2.2.2.2) h
  rw [warm_eq hr, hx, ← hscan, ← hinp, ← hpm]
  exact ⟨rfl, rfl, rfl⟩

theorem warm_plant : t.str = (restarted (a && !inCommissioning s) (b && !inCommissioning s) s).str ∧
    t.bus = (restarted (a && !inCommissioning s) (b && !inCommissioning s) s).bus ∧
    t.ros = (restarted (a && !inCommissioning s) (b && !inCommissioning s) s).ros ∧
    t.src = (restarted (a && !inCommissioning s) (b && !inCommissioning s) s).src ∧
    t.gen = (restarted (a && !inCommissioning s) (b && !inCommissioning s) s).gen := by
  rw [warm_eq hr]
  exact ⟨rfl, rfl, rfl, rfl, rfl⟩

theorem warm_conds : t.conds = keptConds (a && !inCommissioning s) (b && !inCommissioning s)
    (restarted (a && !inCommissioning s) (b && !inCommissioning s) s).conds := by
  rw [warm_eq hr]
  rfl

/-- A reset keeps a condition by its owner, and TEST_FAILED at a pin or soft reset (R50, R141). -/
theorem warm_condOf : condOf t p = (decide (p < 32) && condOf (restarted (a && !inCommissioning s) (b && !inCommissioning s) s) p &&
    ((a && !inCommissioning s && trainConds.contains p) || (b && !inCommissioning s && stringConds.contains p) || p == Pt.testFailed)) := by
  rw [condOf, warm_conds hr, keptConds, List.getD_eq_getElem?_getD, List.getElem?_map]
  by_cases h : p < 32
  · rw [List.getElem?_range h, decide_eq_true h, Bool.true_and]
    rfl
  · rw [List.getElem?_eq_none (by simpa using h), decide_eq_false h]
    rfl

end Warm

/-! ## A reset that keeps nothing -/

theorem restarted_lost : restarted false false s = resetTrain false (resetBus false { cutOwnWord s with str := Strings.reset }) := rfl

theorem restarted_lost_eq : ∃ q, restarted false false s = { s with
    path := q, str := Strings.reset, bus := { Bus.reset with eq := s.bus.eq.atReset (now s), test := s.bus.test.atReset (now s) },
    ros := { Roster.reset with swap := s.ros.swap.atReset }, src := ⟨.cleared, .cleared⟩, gen := .reset } := by
  obtain ⟨q, h, -, -⟩ := cutOwnWord_rest (s := s)
  exact ⟨q, by rw [restarted_lost, h]; rfl⟩

/-! ## The records of the Bus Regulator's jobs (R50) -/

theorem eqAtReset (e : EqualizeRec) (n : Nat) : (e.atReset n).running = false ∧ (e.atReset n).schedule = .notDue ∧
    (e.atReset n).elapsed = e.elapsed ∧ (e.running = true → (e.atReset n).outcome = .cancelledReset ∧ (e.atReset n).endTime = n) ∧
    (e.running = false → ((e.atReset n).outcome, (e.atReset n).endTime) = (e.outcome, e.endTime)) := by
  unfold EqualizeRec.atReset
  cases h : e.running with
  | true => exact ⟨rfl, rfl, rfl, fun _ => ⟨rfl, rfl⟩, fun h => (by cases h)⟩
  | false =>
    rw [if_neg (by decide)]
    exact ⟨rfl, rfl, rfl, fun h => (by cases h), fun _ => rfl⟩

theorem testAtReset_running {x : TestRec} {n : Nat} (h : x.state = .running) :
    x.atReset n = { x with state := .ended .abortedReset, endTime := n } := if_pos h

theorem testAtReset_rests {x : TestRec} {n : Nat} (h : x.state ≠ .running) : x.atReset n = x := if_neg h

/-! ## Power-on (R183) -/

theorem powerOn_cells {lines : List Bool} {pin3 : Bool} : (powerOnReset msz lines pin3 s).path.cells = (cutOwnWord s).path.cells := rfl

theorem powerOn_eq {lines : List Bool} {pin3 : Bool} : powerOnReset msz lines pin3 s =
    { State.afterPowerOn msz lines pin3 (powerOnReset msz lines pin3 s).path.cells (powerOnReset msz lines pin3 s).path.faulty
      (powerOnReset msz lines pin3 s).path.writes s.path.held with pending := s.pending } := by
  obtain ⟨q, h, -, hheld⟩ := cutOwnWord_rest (s := s)
  have hkept : (cutOwnWord s).path.held = s.path.held := by rw [h]; exact hheld
  rw [← hkept]
  rfl

/-- A pin reset of a condition: TEST_FAILED alone is kept. -/
theorem pin_condOf (h : t = warmReset msz kind false false after s) : condOf t p = (p == Pt.testFailed && condOf s p) := by
  obtain ⟨q, hq⟩ := restarted_lost_eq (s := s)
  have hc : condOf (restarted false false s) p = condOf s p := by rw [hq]; rfl
  refine (warm_condOf h).trans ?_
  show (decide (p < 32) && condOf (restarted false false s) p && (p == Pt.testFailed)) = _
  rw [hc]
  by_cases hp : p = Pt.testFailed
  · subst hp
    rw [decide_eq_true (by decide), Bool.true_and, Bool.and_comm]
  · rw [beq_false_of_ne hp, Bool.and_false, Bool.false_and]

/-- Settles O10: power-on is the machine after a power-on on the memory it finds, and a pin reset restarts every block. -/
theorem hardResets : Obligations.HardResets := by
  refine ⟨fun msz din pin3 s => ⟨_, rfl, powerOn_eq, fun h => ?cells, memoryCut_of_cells powerOn_cells⟩, fun msz s => ?pin⟩
  case cells =>
    rw [powerOn_cells, cutOwnWord_idle h]
  case pin =>
    generalize ht : warmReset msz .pin false false [] s = t
    have hr := ht.symm
    obtain ⟨hstate, hkind, htime, hlate⟩ := warm_start hr
    obtain ⟨hqueue, hgap⟩ := warm_log hr
    obtain ⟨hrefusal, -, -, hcmd, hsil, halm⟩ := warm_restarts hr
    obtain ⟨hscan, hinp, hpm⟩ := warm_measures hr
    obtain ⟨hstr, hbus, hros, hsrc, hgen⟩ := warm_plant hr
    obtain ⟨q, hq⟩ := restarted_lost_eq (s := s)
    simp only [Bool.false_and] at hstr hbus hros hsrc hgen
    rw [hq] at hstr hbus hros hsrc hgen
    have heq : t.bus.eq = s.bus.eq.atReset (now s) := by rw [hbus]
    have htest : t.bus.test = s.bus.test.atReset (now s) := by rw [hbus]
    obtain ⟨hstops, hsched, helapsed, hended, hstood⟩ := eqAtReset s.bus.eq (now s)
    have hlock : t.st.lock = false := (warm_lock hr).trans (Bool.and_false _)
    refine ⟨t, congrArg Host.Outcome.next ht, warm_clk hr, hstate, hkind, htime, hlock, hqueue, hgap, ?_⟩
    rw [heq, htest, hstr, hros, hsrc, hgen, halm, hcmd, hsil, hscan, hinp, hpm, hbus]
    refine ⟨rfl, rfl, rfl, rfl, rfl, rfl, rfl, rfl, rfl, rfl, rfl, hstops, hended, fun h => ?_, fun h => testAtReset_rests h,
      ⟨hsched, helapsed, hlate, hstood, fun h => testAtReset_running h⟩, hrefusal, rfl, rfl, rfl, ⟨rfl, rfl, fun p => pin_condOf hr⟩,
      ⟨rfl, rfl, List.length_map _, fun c hc => ?_⟩, ⟨rfl, rfl, rfl, rfl, rfl⟩, ⟨rfl, rfl, rfl⟩, rfl, rfl, rfl,
      memoryCut_of_cells (warm_cells hr)⟩
    · rw [testAtReset_running h]
      exact ⟨rfl, rfl⟩
    · obtain ⟨c', -, rfl⟩ := List.mem_map.1 hc
      exact ⟨rfl, rfl, rfl, rfl⟩

end Sys2Proof.Machine
end

section
/-! PROOFS. SOFT_RESET: its arguments, what it keeps of the strings, the bus and the train, and the reconnect that it abandons (O11). -/

namespace Sys2Proof.Machine

variable {s t u : State} {msz : BitVec 2} {kind : ResetKind} {a b kt ks : Bool} {after : List LogEvent} {k : Nat} {r : StringRec}
variable {slot : Fin 16} {tag : BitVec 8} {ss : List Word} {x y z : Bus}

/-! ## Claims withdrawn from a bus (R32, R49) -/

theorem Claims.ext_get {c d : Claims} (h : ∀ k, c.get k = d.get k) : c = d := by
  have h1 : c.strings = d.strings := h .strings
  have h2 : c.equalize = d.equalize := h .equalize
  have h3 : c.generator = d.generator := h .generator
  have h4 : c.matching = d.matching := h .matching
  have h5 : c.thermal = d.thermal := h .thermal
  have h6 : c.test = d.test := h .test
  cases c
  cases d
  simp_all

/-- The claim table less the claims of the three jobs. -/
def Claims.jobless (c : Claims) : Claims := { c with equalize := none, test := none, matching := none }

/-- A bus from which claims have been withdrawn, none of them posted anew: the target follows the table where one was held, and stands else. -/
structure Lightened (ss : List Word) (x y : Bus) : Prop where
  empties : ∀ d, x.claims.get d = none → y.claims.get d = none
  outcome : (y.claims = x.claims ∧ (y.target, y.governing) = (x.target, x.governing)) ∨
    ((∃ d, x.claims.get d ≠ none ∧ y.claims.get d = none) ∧
      (y.target, y.governing) = (some (targetOf ss y.claims).1, (targetOf ss y.claims).2))
  analog : y.analog = x.analog

theorem Lightened.refl (ss : List Word) (x : Bus) : Lightened ss x x := ⟨fun _ h => h, .inl ⟨rfl, rfl⟩, rfl⟩

theorem Lightened.trans (h : Lightened ss x y) (h' : Lightened ss y z) : Lightened ss x z := by
  refine ⟨fun d hd => h'.empties d (h.empties d hd), ?_, h'.analog.trans h.analog⟩
  rcases h'.outcome with ⟨hc, ht⟩ | ⟨⟨d, hd, hz⟩, ht⟩
  · rw [hc, ht]
    exact h.outcome
  · exact .inr ⟨⟨d, fun hx => hd (h.empties d hx), hz⟩, ht⟩

/-- The target of a lightened bus, by whether a claim was withdrawn. -/
theorem Lightened.target (h : Lightened ss x y) : (y.claims = x.claims → (y.target, y.governing) = (x.target, x.governing)) ∧
    (y.claims ≠ x.claims → (y.target, y.governing) = (some (targetOf ss y.claims).1, (targetOf ss y.claims).2)) := by
  rcases h.outcome with ⟨hc, ht⟩ | ⟨⟨d, hd, hy⟩, ht⟩
  · exact ⟨fun _ => ht, fun hne => absurd hc hne⟩
  · exact ⟨fun hc => absurd (hc ▸ hy) hd, fun _ => ht⟩

theorem withdrawClaim_lightened {c : Slot} : Lightened s.settings s.bus (withdrawClaim c s).bus := by
  cases h : (s.bus.claims.get c).isSome with
  | false =>
    rw [withdrawClaim_empty (by simpa using h)]
    exact .refl _ _
  | true =>
    have hsome : s.bus.claims.get c ≠ none := Option.isSome_iff_ne_none.1 h
    rw [withdrawClaim_held h]
    refine ⟨fun d hd => ?_, .inr ⟨⟨c, hsome, Claims.get_put _ _ _⟩, rfl⟩, rfl⟩
    show (s.bus.claims.put c none).get d = none
    by_cases hc : d = c
    · rw [hc, Claims.get_put]
    · rw [Claims.get_put_ne hc, hd]

theorem withdrawClaim_settings {c : Slot} : (withdrawClaim c s).settings = s.settings := by
  obtain ⟨b, h, -⟩ := withdrawClaim_bus (c := c) (s := s)
  rw [h]

theorem withdrawJobs_lightened : Lightened s.settings s.bus (withdrawJobs s).bus := by
  have h1 := withdrawClaim_lightened (s := s) (c := .equalize)
  have h2 := withdrawClaim_lightened (s := withdrawClaim .equalize s) (c := .test)
  have h3 := withdrawClaim_lightened (s := withdrawClaim .test (withdrawClaim .equalize s)) (c := .matching)
  rw [withdrawClaim_settings] at h2
  rw [withdrawClaim_settings, withdrawClaim_settings] at h3
  exact h1.trans (h2.trans h3)

theorem withdrawJobs_claims : (withdrawJobs s).bus.claims = s.bus.claims.jobless := by
  obtain ⟨b1, h1, e1, k1, -⟩ := withdrawClaim_bus (c := .equalize) (s := s)
  obtain ⟨b2, h2, e2, k2, -⟩ := withdrawClaim_bus (c := .test) (s := { s with bus := b1 })
  obtain ⟨b3, h3, e3, k3, -⟩ := withdrawClaim_bus (c := .matching) (s := { s with bus := b2 })
  have h : withdrawJobs s = { s with bus := b3 } := by
    unfold withdrawJobs
    rw [h1, h2, h3]
  rw [h]
  refine Claims.ext_get fun d => ?_
  cases d with
  | strings => rw [k3 _ (by decide), k2 _ (by decide), k1 _ (by decide)]; rfl
  | generator => rw [k3 _ (by decide), k2 _ (by decide), k1 _ (by decide)]; rfl
  | thermal => rw [k3 _ (by decide), k2 _ (by decide), k1 _ (by decide)]; rfl
  | equalize => exact (k3 _ (by decide)).trans ((k2 _ (by decide)).trans e1)
  | test => exact (k3 _ (by decide)).trans e2
  | matching => exact e3

/-! ## A reconnect abandoned by the reset (R8, R24) -/

/-- Ending a reconnect acts on the bus as the withdrawal of MATCH alone. -/
theorem endReconnect_bus {o : ReconnectOutcome} :
    ∃ w, w.bus = s.bus ∧ w.settings = s.settings ∧ (endReconnect k o s).bus = (withdrawClaim .matching w).bus := by
  have h := (changePhase_alone (s := s) (k := k) (p := priorPhase s k)).rest
  refine ⟨setStr k (fun r => { r with stage := .none, inrushTimer := false, outcome := o }) (changePhase k (priorPhase s k) s),
    beside_bus h, beside_settings h, ?_⟩
  unfold endReconnect logReconnect
  rw [logEv_bus]

theorem endReconnect_train {o : ReconnectOutcome} : (endReconnect k o s).ros = s.ros ∧ (endReconnect k o s).src = s.src := by
  have h := (changePhase_alone (s := s) (k := k) (p := priorPhase s k)).rest
  unfold endReconnect logReconnect
  rw [logEv_ros, logEv_src, withdrawClaim_src]
  have hros : (changePhase k (priorPhase s k) s).ros = s.ros := beside_ros h
  have hsrc : (changePhase k (priorPhase s k) s).src = s.src := beside_src h
  refine ⟨?_, hsrc⟩
  obtain ⟨c, hc, -⟩ := withdrawClaim_bus (c := .matching)
    (s := setStr k (fun r => { r with stage := .none, inrushTimer := false, outcome := o }) (changePhase k (priorPhase s k) s))
  rw [hc]
  exact hros

/-- What an abandoned reconnect leaves outside the strings and the log. -/
structure ReconnectAside (s t : State) : Prop where
  ros : t.ros = s.ros
  src : t.src = s.src
  gen : t.gen = s.gen
  conds : t.conds = s.conds
  bus : Lightened s.settings s.bus t.bus
  jobless : t.bus.claims.jobless = s.bus.claims.jobless
  beyond : t.bus.beyond = s.bus.beyond

theorem abandonReconnect_aside {o : ReconnectOutcome} : ReconnectAside s (abandonReconnect o s) := by
  cases h : reconnecting s with
  | none =>
    rw [abandonReconnect_none h]
    exact ⟨rfl, rfl, rfl, rfl, .refl _ _, rfl, rfl⟩
  | some k =>
    obtain ⟨hros, hsrc⟩ := endReconnect_train (s := s) (k := k) (o := o)
    obtain ⟨w, hw, hset, hbus⟩ := endReconnect_bus (s := s) (k := k) (o := o)
    obtain ⟨c, hc, hmatch, hothers, hbeyond⟩ := withdrawClaim_bus (c := .matching) (s := w)
    have hlight := withdrawClaim_lightened (c := .matching) (s := w)
    rw [abandonReconnect_some h]
    refine ⟨hros, hsrc, endReconnect_gen, endReconnect_conds, ?_, ?_, ?_⟩
    · rw [hbus, ← hw, ← hset]
      exact hlight
    · rw [hbus, hc, ← hw]
      refine Claims.ext_get fun d => ?_
      cases d with
      | strings => exact hothers .strings (by decide)
      | generator => exact hothers .generator (by decide)
      | thermal => exact hothers .thermal (by decide)
      | equalize => rfl
      | test => rfl
      | matching => rfl
    · rw [hbus, hc, ← hw]
      exact hbeyond

/-! ## The strings at a reset (R29, R30) -/

theorem resetStrings_kept : resetStrings kt true s = (ownPhaseConds (abandonReconnect .abandonedReset s) |> fun t =>
    { t with str := { t.str with depthHeld := kt && s.str.depthHeld, depthSpent := kt && s.str.depthSpent, busSpan := 0 } }) := rfl

theorem resetStrings_keptStr : (resetStrings kt true s).str.recs = (abandonReconnect .abandonedReset s).str.recs ∧
    (resetStrings kt true s).str.iso = (abandonReconnect .abandonedReset s).str.iso := ⟨rfl, rfl⟩

theorem resetStrings_lostStr : (resetStrings kt false s).str.recs = List.replicate 4 none ∧
    (resetStrings kt false s).str.iso = List.replicate 4 .unpowered := ⟨rfl, rfl⟩

theorem resetStrings_keptConds : (resetStrings kt true s).conds =
    (s.conds.set Pt.stringFault (anyString (abandonReconnect .abandonedReset s) fun r => r.phase == .fault)).set Pt.stringIsolated
      (anyString (abandonReconnect .abandonedReset s) fun r => r.phase.open) := by
  rw [← (abandonReconnect_aside (s := s) (o := .abandonedReset)).conds]
  rfl

theorem resetStrings_aside : (resetStrings kt ks s).ros = s.ros ∧ (resetStrings kt ks s).src = s.src ∧ (resetStrings kt ks s).gen = s.gen ∧
    Lightened s.settings s.bus (resetStrings kt ks s).bus ∧ (resetStrings kt ks s).bus.claims.jobless = s.bus.claims.jobless ∧
    (resetStrings kt ks s).bus.beyond = s.bus.beyond := by
  cases ks with
  | false => exact ⟨rfl, rfl, rfl, .refl _ _, rfl, rfl⟩
  | true =>
    obtain ⟨hros, hsrc, hgen, -, hbus, hjobs, hbeyond⟩ := abandonReconnect_aside (s := s) (o := .abandonedReset)
    exact ⟨hros, hsrc, hgen, hbus, hjobs, hbeyond⟩

/-- A condition that neither the strings' phases nor a kept record decides stands through the strings' reset. -/
theorem resetStrings_condOf {p : Nat} (h1 : Pt.stringFault ≠ p) (h2 : Pt.stringIsolated ≠ p) : condOf (resetStrings kt ks s) p = condOf s p := by
  cases ks with
  | false => rfl
  | true =>
    rw [condOf_set_ne resetStrings_keptConds h2]
    simp [condOf, List.getD, List.getElem?_set_ne h1]

theorem resetStrings_now : now (resetStrings kt ks s) = now s := congrArg (·.1.value) (resetStrings_beyond (s := s) (kt := kt) (ks := ks))

theorem resetStrings_settings : (resetStrings kt ks s).settings = s.settings :=
  congrArg (·.2.2.1) (resetStrings_beyond (s := s) (kt := kt) (ks := ks))

/-! ## A soft reset with no own write in progress -/

section Soft

variable (hw : ownWordActive s = false)
include hw

theorem restarted_idle : restarted kt ks s = resetTrain kt (resetBus kt (resetStrings kt ks s)) := by
  rw [restarted, cutOwnWord_idle hw]

theorem restarted_clean_bus : (restarted kt ks s).bus = (resetBus kt (resetStrings kt ks s)).bus := by
  rw [restarted_bus, cutOwnWord_idle hw]

/-- The two records of the Bus Regulator's jobs end with any reset. -/
theorem restarted_jobs : (restarted kt ks s).bus.eq = s.bus.eq.atReset (now s) ∧ (restarted kt ks s).bus.test = s.bus.test.atReset (now s) := by
  obtain ⟨-, -, -, -, -, hbeyond⟩ := resetStrings_aside (kt := kt) (ks := ks) (s := s)
  obtain ⟨c, hc, heq, htest⟩ := resetBus_rest (kt := kt) (s := resetStrings kt ks s)
  rw [restarted_clean_bus hw, hc]
  rw [beyond_eq hbeyond, resetStrings_now] at heq
  rw [beyond_test hbeyond, resetStrings_now] at htest
  exact ⟨heq, htest⟩

/-- The train and the bus where the train is kept. -/
theorem restarted_keptTrain : (restarted true ks s).ros = s.ros ∧ (restarted true ks s).src = s.src ∧ (restarted true ks s).gen = s.gen ∧
    (restarted true ks s).bus.claims = s.bus.claims.jobless ∧ Lightened s.settings s.bus (restarted true ks s).bus := by
  obtain ⟨hros, hsrc, hgen, hbus, hjobs, -⟩ := resetStrings_aside (kt := true) (ks := ks) (s := s)
  have heq : restarted true ks s = withdrawJobs (busRecords (resetStrings true ks s)) := restarted_idle hw
  obtain ⟨c, hc, -⟩ := withdrawJobs_rest (s := busRecords (resetStrings true ks s))
  have hclaims := withdrawJobs_claims (s := busRecords (resetStrings true ks s))
  have hlight := withdrawJobs_lightened (s := busRecords (resetStrings true ks s))
  rw [heq]
  refine ⟨?_, ?_, ?_, hclaims.trans hjobs, hbus.trans ?_⟩
  · rw [hc]; exact hros
  · rw [hc]; exact hsrc
  · rw [hc]; exact hgen
  · have hset : (busRecords (resetStrings true ks s)).settings = s.settings := resetStrings_settings (kt := true)
    rw [hset] at hlight
    exact ⟨hlight.empties, hlight.outcome, hlight.analog⟩

/-- Without the train kept every drive of it is unpowered and the claim table is empty. -/
theorem restarted_lostTrain : (restarted false ks s).ros.mods = List.replicate 8 none ∧
    ((restarted false ks s).src.xfer.mopen, (restarted false ks s).src.xfer.gclose) = (.unpowered, .unpowered) ∧
    ((restarted false ks s).gen.pre, (restarted false ks s).gen.run, (restarted false ks s).gen.crank) = (.unpowered, .unpowered, .unpowered) ∧
    (restarted false ks s).bus.claims = .empty ∧
    ((restarted false ks s).bus.target, (restarted false ks s).bus.setpoint, (restarted false ks s).bus.vref, (restarted false ks s).bus.ilim) =
      (none, none, none, none) := by
  rw [restarted_idle hw]
  exact ⟨rfl, rfl, rfl, rfl, rfl⟩

theorem restarted_cleanStr : (restarted kt ks s).str = (resetStrings kt ks s).str := by rw [restarted_str, cutOwnWord_idle hw]

theorem restarted_cleanConds : (restarted kt ks s).conds = (resetStrings kt ks s).conds := by rw [restarted_conds, cutOwnWord_idle hw]

end Soft

/-! ## The arguments of SOFT_RESET (R183) -/

theorem flag_of_word {w : Word} (h : w.toNat ≤ 1) : flag (w == 1) = w.toNat := by
  rcases Nat.le_one_iff_eq_zero_or_eq_one.1 h with h0 | h1
  · rw [show w = 0 from BitVec.eq_of_toNat_eq h0]
    rfl
  · rw [show w = 1 from BitVec.eq_of_toNat_eq h1]
    rfl

theorem word_is_one {w : Word} (h : w.toNat = 1) : (w == 1) = true := by
  rw [show w = 1 from BitVec.eq_of_toNat_eq h]
  rfl

theorem word_is_zero {w : Word} (h : w.toNat = 0) : (w == 1) = false := by
  rw [show w = 0 from BitVec.eq_of_toNat_eq h]
  rfl

/-- Where the block listens it is in RUN or in COMMISSIONING. -/
theorem commissioning_of_listens (hl : Listens s) : inCommissioning s = !inRun s := by
  have h := hl.1
  cases hr : inRun s with
  | true => exact not_commissioning hr
  | false => simpa [starting, hr] using h

theorem atPost_idle {op : Nat} (h : ownWordActive s = false) : ownWordActive (atPost slot op tag s) = false :=
  ((ownWordActive_hostStore (s := heartbeat s)).trans (heartbeat_quiet (s := s)).ownWordActive_eq).trans h

/-- SOFT_RESET posted where it is taken, by its arguments. -/
theorem exec_softReset (hl : Listens s) :
    exec (.softReset slot tag) s = .next (takeCommand slot.val Op.softReset tag.toNat (atPost slot Op.softReset tag s)) :=
  congrArg Host.Outcome.next (post_listens hl (by decide))

theorem takeCommand_resetRefused {q : Reply} (hd : dispatchRefusal Op.softReset s = none) (h : softResetRefusal slot.val s = some q) :
    takeCommand slot.val Op.softReset tag.toNat s = answer slot.val Op.softReset tag.toNat q s := by
  unfold takeCommand
  rw [hd]
  dsimp only
  rw [if_pos rfl, h]

theorem takeCommand_resetTaken (hd : dispatchRefusal Op.softReset s = none) (h : softResetRefusal slot.val s = none) :
    takeCommand slot.val Op.softReset tag.toNat s = softResetTaken slot.val tag.toNat s := by
  unfold takeCommand
  rw [hd]
  dsimp only
  rw [if_pos rfl, h]

end Sys2Proof.Machine
end

section
/-! PROOFS. A SOFT_RESET taken, and the settling of SoftReset (O11). -/

namespace Sys2Proof.Machine

variable {s t u : State} {kt ks : Bool} {k p : Nat} {r : StringRec} {slot : Fin 16} {tag : BitVec 8}

/-! ## The refusals of SOFT_RESET (R183) -/

theorem softResetRefusal_first (h : 1 < arg u slot 1) : softResetRefusal slot.val u = some (.refusedRange, 1) := if_pos h

theorem softResetRefusal_second (h1 : arg u slot 1 ≤ 1) (h : 1 < arg u slot 2) : softResetRefusal slot.val u = some (.refusedRange, 2) :=
  (if_neg (Nat.not_lt.2 h1)).trans (if_pos h)

theorem softResetRefusal_none (h1 : arg u slot 1 ≤ 1) (h2 : arg u slot 2 ≤ 1) : softResetRefusal slot.val u = none :=
  (if_neg (Nat.not_lt.2 h1)).trans (if_neg (Nat.not_lt.2 h2))

/-! ## What a soft reset keeps -/

section Taken

/-- The state after a soft reset taken where the block listens, with what it keeps. -/
structure SoftTaken (slot : Fin 16) (tag : BitVec 8) (u t : State) (kt ks : Bool) : Prop where
  eq : t = softResetTaken slot.val tag.toNat u
  idle : ownWordActive u = false
  train : ((argWord u slot.val 1 == 1) && !inCommissioning u) = kt
  strings : ((argWord u slot.val 2 == 1) && !inCommissioning u) = ks

variable (h : SoftTaken slot tag u t kt ks)
include h

/-- The state as a reset of its kind. -/
theorem SoftTaken.warm : t = warmReset u.path.msz .soft (argWord u slot.val 1 == 1) (argWord u slot.val 2 == 1)
    [commandEntry slot.val Op.softReset tag.toNat (.done, 0) (now u)] u := h.eq

theorem SoftTaken.plant : t.str = (restarted kt ks u).str ∧ t.bus = (restarted kt ks u).bus ∧ t.ros = (restarted kt ks u).ros ∧
    t.src = (restarted kt ks u).src ∧ t.gen = (restarted kt ks u).gen := by
  have hp := warm_plant h.warm
  rw [h.train, h.strings] at hp
  exact hp

theorem SoftTaken.queue (h1 : arg u slot 1 ≤ 1) (h2 : arg u slot 2 ≤ 1) : t.log.queue =
    [⟨.reset, 3, wordOf (arg u slot 1 + 2 * arg u slot 2), 0, now u, false⟩,
      ⟨.command, wordOf slot.val, bytesWord 0x42 1, bytesWord 0 tag.toNat, now u, false⟩] ++ if ks then abandonEntries u else [] := by
  have hq := (warm_log h.warm).1
  rw [h.strings] at hq
  rw [hq, resetEntry, flag_of_word h1, flag_of_word h2]
  rfl

theorem SoftTaken.keeps (p : Nat) : condOf t p = (decide (p < 32) && condOf (resetStrings kt ks u) p &&
    ((kt && trainConds.contains p) || (ks && stringConds.contains p) || p == Pt.testFailed)) := by
  have hc := warm_condOf (p := p) h.warm
  rw [h.train, h.strings] at hc
  rw [hc, condOf, restarted_cleanConds h.idle, ← condOf]

/-- A condition that is no owner's and is not TEST_FAILED is withdrawn. -/
theorem SoftTaken.drops (h1 : trainConds.contains p = false) (h2 : stringConds.contains p = false) (h3 : (p == Pt.testFailed) = false) :
    condOf t p = false := by
  rw [h.keeps, h1, h2, h3]
  simp

theorem SoftTaken.testFailed : condOf t Pt.testFailed = condOf u Pt.testFailed := by
  have hd : decide (Pt.testFailed < 32) = true := by decide
  rw [h.keeps, resetStrings_condOf (by decide) (by decide), hd, Bool.true_and, beq_self_eq_true, Bool.or_true, Bool.and_true]

/-- The records of the jobs, and their entries left for RUN (R50). -/
theorem SoftTaken.jobs : t.bus.eq.running = false ∧ t.bus.eq.schedule = .notDue ∧ t.bus.eq.elapsed = u.bus.eq.elapsed ∧
    (u.bus.eq.running = true → t.bus.eq.outcome = .cancelledReset ∧ t.bus.eq.endTime = now u) ∧
    (u.bus.eq.running = false → (t.bus.eq.outcome, t.bus.eq.endTime) = (u.bus.eq.outcome, u.bus.eq.endTime)) ∧
    (u.bus.test.state = .running → t.bus.test = { u.bus.test with state := .ended .abortedReset, endTime := now u }) ∧
    (u.bus.test.state ≠ .running → t.bus.test = u.bus.test) := by
  obtain ⟨-, hbus, -, -, -⟩ := h.plant
  obtain ⟨heq, htest⟩ := restarted_jobs (kt := kt) (ks := ks) h.idle
  obtain ⟨hstops, hsched, helapsed, hended, hstood⟩ := eqAtReset u.bus.eq (now u)
  rw [hbus, heq, htest]
  exact ⟨hstops, hsched, helapsed, hended, hstood, testAtReset_running, testAtReset_rests⟩

end Taken

/-- The reconnect that a soft reset abandons where it keeps the strings (R8, R24). -/
theorem SoftTaken.abandons (h : SoftTaken slot tag u t kt true) (hs : Shape u) (hk : reconnecting u = some k) (hr : strRec u k = some r) :
    abandonEntries u = [⟨.phaseChange, wordOf k, 2, if r.priorFault then 7 else 1, now u, false⟩, ⟨.reconnectResult, 0, 7, 0, now u, false⟩] ∧
    strRec t k = some { r with
      phase := if r.priorFault then .fault else .isolated, tempMinute := 0, stage := .none, inrushTimer := false,
      outcome := .abandonedReset } ∧
    t.str.iso = u.str.iso.set k .asserted ∧ condOf t Pt.stringIsolated = true ∧ (r.priorFault = true → condOf t Pt.stringFault = true) := by
  have hp : r.phase = .reconnecting := (strPhase_of_rec hr).symm.trans (reconnecting_phase hk).1
  have hlen : u.conds.length = 32 := conds_length hs
  obtain ⟨hstr, -⟩ := h.plant
  rw [restarted_cleanStr h.idle] at hstr
  obtain ⟨hrecs, hiso⟩ := resetStrings_keptStr (s := u) (kt := kt)
  have hend : abandonReconnect .abandonedReset u = endReconnect k .abandonedReset u := abandonReconnect_some hk
  have hrec : strRec (abandonReconnect .abandonedReset u) k =
      some { r with phase := r.prior, tempMinute := 0, stage := .none, inrushTimer := false, outcome := .abandonedReset } := by
    rw [hend]
    exact strRec_endReconnect hr hp
  have hopen : anyString (abandonReconnect .abandonedReset u) (fun r => r.phase.open) = true := anyString_of_rec hrec (by
    unfold StringRec.prior
    dsimp only
    split <;> rfl)
  have hconds := resetStrings_keptConds (s := u) (kt := kt)
  refine ⟨?_, ?_, ?_, ?_, fun hf => ?_⟩
  · unfold abandonEntries
    rw [hk]
    dsimp only
    rw [priorPhase_of_rec hr, StringRec.prior]
    cases r.priorFault <;> rfl
  · rw [strRec, hstr, hrecs]
    exact hrec
  · rw [hstr, hiso, hend]
    exact endReconnect_iso hr hp
  · rw [h.keeps, condOf_set hconds (by simp [hlen, Pt.stringIsolated]), hopen]
    cases kt <;> rfl
  · have hfault : anyString (abandonReconnect .abandonedReset u) (fun r => r.phase == .fault) = true := anyString_of_rec hrec (by
      unfold StringRec.prior
      rw [hf]
      rfl)
    have hset : condOf (resetStrings kt true u) Pt.stringFault = true := by
      rw [condOf_set_ne hconds (by decide), hfault]
      simp [List.getD, hlen, Pt.stringFault]
    rw [h.keeps, hset]
    cases kt <;> rfl

/-- Where the strings are kept MATCH is withdrawn with a reconnect, and without the train the table is empty. -/
theorem SoftTaken.matching (h : SoftTaken slot tag u t kt ks) : t.bus.claims.matching = none := by
  obtain ⟨-, hbus, -, -, -⟩ := h.plant
  rw [hbus]
  cases kt with
  | true =>
    obtain ⟨-, -, -, hclaims, -⟩ := restarted_keptTrain (ks := ks) h.idle
    rw [hclaims]
    rfl
  | false =>
    obtain ⟨-, -, -, hclaims, -⟩ := restarted_lostTrain (ks := ks) h.idle
    rw [hclaims]
    rfl

/-- Settles O11: the two refusals, and a reset taken by what it keeps of the train and of the strings. -/
theorem softReset : Obligations.SoftReset := by
  intro slot tag s hs hl hd u entries
  have hdu : dispatchRefusal Op.softReset u = none := dispatchRefusal_atPost.trans hd
  have hnow : now u = now s := atPost_now
  have hclk : u.clk = s.clk := atPost_clk
  have hsu : Shape u := atPost_shape hs
  have hidle : ownWordActive u = false := atPost_idle hl.2
  have hcomm : inCommissioning u = !inRun s := (congrArg (fun x : Startup => x.state == .commissioning) atPost_st).trans
    (commissioning_of_listens hl)
  refine ⟨takeCommand slot.val Op.softReset tag.toNat u, exec_softReset hl, fun h => ?first, fun h1 h => ?second, fun h1 h2 => ?taken⟩
  case first =>
    rw [takeCommand_resetRefused hdu (softResetRefusal_first h)]
    exact replyOf_answer (atPost_slot hs)
  case second =>
    rw [takeCommand_resetRefused hdu (softResetRefusal_second h1 h)]
    exact replyOf_answer (atPost_slot hs)
  case taken =>
    generalize ht : takeCommand slot.val Op.softReset tag.toNat u = t
    rw [takeCommand_resetTaken hdu (softResetRefusal_none h1 h2)] at ht
    have htaken : ∀ kt ks, ((argWord u slot.val 1 == 1) && !inCommissioning u) = kt → ((argWord u slot.val 2 == 1) && !inCommissioning u) = ks →
        SoftTaken slot tag u t kt ks := fun kt ks hk hk' => ⟨ht.symm, hidle, hk, hk'⟩
    have hsoft := htaken _ _ rfl rfl
    have hkeep : ∀ {w : Word}, w.toNat = 1 → inRun s = true → ((w == 1) && !inCommissioning u) = true := fun hw hr => by
      rw [word_is_one hw, hcomm, hr]
      rfl
    have hlose : ∀ {w : Word}, w.toNat = 0 ∨ inRun s = false → ((w == 1) && !inCommissioning u) = false := fun hw => by
      rcases hw with hw | hr
      · rw [word_is_zero hw]
        rfl
      · rw [hcomm, hr]
        exact Bool.and_false _
    obtain ⟨hstate, hkind, -, hlate⟩ := warm_start hsoft.warm
    obtain ⟨hrefusal, hbusy, hfailed, hcmd, hsil, halm⟩ := warm_restarts hsoft.warm
    obtain ⟨hscan, hinp, hpm⟩ := warm_measures hsoft.warm
    have hlock : t.st.lock = s.st.lock := by
      rw [warm_lock hsoft.warm, atPost_st]
      exact Bool.and_true _
    have hcells : t.path.cells = u.path.cells := by rw [warm_cells hsoft.warm, cutOwnWord_idle hidle]
    obtain ⟨hstops, hsched, helapsed, hended, hstood, hran, hrested⟩ := hsoft.jobs
    rw [hnow] at hended hran
    refine ⟨hstate, hkind, hlock, (warm_clk hsoft.warm).trans hclk, fun h => ?alone, fun k r ha hr hk hrec => ?abandons,
      ⟨hstops, hsched, helapsed, hended, hstood, hran, hrested, hsoft.testFailed, hlate⟩,
      ⟨hrefusal, hcells, hbusy, hfailed, hsoft.drops (by decide) (by decide) (by decide)⟩,
      ⟨by rw [hcmd]; rfl, by rw [hcmd]; rfl, hsil, hsoft.drops (by decide) (by decide) (by decide)⟩,
      ⟨by rw [halm]; rfl, by rw [halm]; rfl⟩, ⟨by rw [hscan]; rfl, by rw [hinp]; rfl, by rw [hpm]; rfl⟩,
      fun ha hr => ?train, fun ha => ?lost, fun ha hr hn => ?strings, fun ha => ?gone⟩
    case alone =>
      rw [hsoft.queue h1 h2, hnow]
      rcases h with h | h | h
      · rw [hlose (.inl h)]
        exact List.append_nil _
      · rw [hlose (.inr h)]
        exact List.append_nil _
      · have hnone : abandonEntries u = [] := by
          unfold abandonEntries
          rw [h]
        rw [hnone, ite_self]
        exact List.append_nil _
    case abandons =>
      have hkept := htaken _ true rfl (hkeep ha hr)
      obtain ⟨hentries, hstr, hiso, hisolated, hfault⟩ := hkept.abandons hsu hk hrec
      refine ⟨?_, hstr, hiso, hkept.matching, hisolated, hfault⟩
      rw [hkept.queue h1 h2, if_pos rfl, hentries, hnow]
    case train =>
      have hkept := htaken true _ (hkeep ha hr) rfl
      obtain ⟨-, hbus, hros, hsrc, hgen⟩ := hkept.plant
      obtain ⟨hros', hsrc', hgen', hclaims, hlight⟩ := restarted_keptTrain (ks := (argWord u slot.val 2 == 1) && !inCommissioning u) hidle
      rw [← hbus] at hclaims hlight
      have hset : u.settings = s.settings := atPost_settings
      rw [hset] at hlight
      obtain ⟨hsame, hanew⟩ := hlight.target
      exact ⟨hros.trans hros', hsrc.trans hsrc', hgen.trans hgen', hclaims, hlight.analog, hsame, hanew⟩
    case lost =>
      have hlostTrain := htaken false _ (hlose ha) rfl
      obtain ⟨-, hbus, hros, hsrc, hgen⟩ := hlostTrain.plant
      rw [hbus, hros, hsrc, hgen]
      exact restarted_lostTrain hidle
    case strings =>
      have hkept := htaken _ true rfl (hkeep ha hr)
      obtain ⟨hstr, -⟩ := hkept.plant
      obtain ⟨hrecs, hiso⟩ := resetStrings_keptStr (s := u) (kt := (argWord u slot.val 1 == 1) && !inCommissioning u)
      rw [hstr, restarted_cleanStr hidle, hrecs, hiso, abandonReconnect_none hn]
      exact ⟨rfl, rfl⟩
    case gone =>
      have hlostStr := htaken _ false rfl (hlose ha)
      obtain ⟨hstr, -⟩ := hlostStr.plant
      rw [hstr, restarted_cleanStr hidle]
      exact resetStrings_lostStr

end Sys2Proof.Machine
end

section
/-! PROOFS. What the blocks' first work in RUN leaves of the source and of a generator that has been derived (R31, R94, R125). -/

namespace Sys2Proof.Machine

variable {s t u : State} {k p : Nat} {b : Bool}

/-! ## The generator between its derivation and its first evaluation -/

/-- No request but DEPTH stands. -/
def OnlyDepth (g : Gen) : Prop := g.requests.mainsFail = none ∧ g.requests.exercise = none ∧ g.requests.manual = none

/-- The engine is at a stop that no request ends. -/
def Halted (g : Gen) : Prop := g.state = .disabled ∨ g.state = .stopping

/-- The state, the stop destination and the three outputs. -/
def Gen.drive (g : Gen) := (g.state, g.destDisabled, g.pre, g.run, g.crank)

/-- A generator that has stayed halted, if it was. -/
def StaysHalted (s t : State) : Prop := Halted s.gen → t.gen.drive = s.gen.drive

theorem StaysHalted.of_gen (h : t.gen = s.gen) : StaysHalted s t := fun _ => by rw [h]

theorem Halted.congr {g g' : Gen} (h : Halted g) (e : g'.drive = g.drive) : Halted g' := by
  have hs : g'.state = g.state := congrArg (·.1) e
  rw [Halted, hs]
  exact h

theorem StaysHalted.trans (h : StaysHalted s t) (h' : StaysHalted t u) : StaysHalted s u := fun hs =>
  (h' (hs.congr (h hs))).trans (h hs)

/-! ## The source and the generator left as they are -/

/-- The transfer, the mains but for the holding of MAINS_FAIL, and the two conditions of the Source Controller that stand for a lost source. -/
def sourceSide (s : State) :=
  (s.src.xfer, { s.src.mains with failHeld := false }, condOf s Pt.mainsAbsent, condOf s Pt.transferFault)

theorem sourceSide_of_aside {whole : Bool} (h : aside whole t = aside whole s) : sourceSide t = sourceSide s := by
  rw [sourceSide, sourceSide, aside_xfer h, aside_mains h, aside_condOf h, aside_condOf h]

theorem sourceSide_of_eq (hsrc : t.src = s.src) (hconds : t.conds = s.conds) : sourceSide t = sourceSide s := by
  rw [sourceSide, condOf, condOf, hsrc, hconds]
  rfl

/-- A change that leaves the source, a generator on which DEPTH alone can stand, and a halted generator. -/
structure Settles (s t : State) : Prop where
  source : sourceSide t = sourceSide s
  gen : OnlyDepth s.gen → t.gen = s.gen
  halted : StaysHalted s t

theorem Settles.refl (s : State) : Settles s s := ⟨rfl, fun _ => rfl, fun _ => rfl⟩

theorem Settles.trans (h : Settles s t) (h' : Settles t u) : Settles s u :=
  ⟨h'.source.trans h.source, fun ho => (h'.gen (by rw [h.gen ho]; exact ho)).trans (h.gen ho), h.halted.trans h'.halted⟩

theorem Settles.of_eq (hsrc : t.src = s.src) (hgen : t.gen = s.gen) (hconds : t.conds = s.conds) : Settles s t :=
  ⟨sourceSide_of_eq hsrc hconds, fun _ => hgen, .of_gen hgen⟩

theorem Settles.of_aside (h : aside true t = aside true s) : Settles s t := ⟨sourceSide_of_aside h, fun _ => aside_gen h, .of_gen (aside_gen h)⟩

theorem Settles.of_beside (h : beside t = beside s) : Settles s t := .of_eq (beside_src h) (beside_gen h) (beside_conds h)

theorem Settles.of_shelf (h : Shelf s t) : Settles s t := .of_eq h.src_eq h.gen_eq h.conds_eq

/-! ## Requests removed and posted -/

theorem abandonSeries_inSeries {c : Bool} {f : State → State} (h : Halted s.gen) :
    (if c && s.gen.state.inSeries then f s else s) = s := by
  rcases h with h | h <;> rw [h] <;> simp [GenState.inSeries]

theorem dropMainsFail_ite {c : Bool} : (if c then dropMainsFail s else s).gen = s.gen := by cases c <;> rfl

theorem removeRequest_halted {q : RequestKind} {n : Word} : StaysHalted s (removeRequest q n s) := by
  intro hs
  unfold removeRequest
  split
  · dsimp only
    generalize hw : logEv .runRequest (wordOf q.code) 2 n { s with gen := { s.gen with requests := s.gen.requests.put q none } } = w
    have hgen : w.gen = { s.gen with requests := s.gen.requests.put q none } := by rw [← hw, logEv_gen]
    have hdrop := dropMainsFail_ite (s := w) (c := q == .mainsFail && n == Reason.fuel)
    generalize hx : (if (q == .mainsFail && n == Reason.fuel) = true then dropMainsFail w else w) = x at *
    have hxs : Halted x.gen := by rw [hdrop, hgen]; exact hs
    rw [abandonSeries_inSeries hxs, hdrop, hgen]
    rfl
  · rfl

theorem removeRequest_settles {q : RequestKind} {n : Word} (hq : q ≠ .depth) : Settles s (removeRequest q n s) := by
  refine ⟨sourceSide_of_aside removeRequest_aside, fun ho => ?_, removeRequest_halted⟩
  obtain ⟨h1, h2, h3⟩ := ho
  have hnone : requested s q = false := by
    unfold requested
    cases q with
    | depth => exact absurd rfl hq
    | mainsFail => rw [RequestSet.get, h1]; rfl
    | exercise => rw [RequestSet.get, h2]; rfl
    | manual => rw [RequestSet.get, h3]; rfl
  unfold removeRequest
  rw [if_neg (by simp [hnone])]

theorem fuelCriticalNotice_settles : Settles s (fuelCriticalNotice s) :=
  (removeRequest_settles (by decide)).trans ((removeRequest_settles (by decide)).trans (removeRequest_settles (by decide)))

theorem addRequest_halted {q : RequestKind} {load : Bool} {e : Nat} : StaysHalted s (addRequest q load e s) := by
  intro hs
  unfold addRequest
  dsimp only
  generalize hw : logEv .runRequest (wordOf q.code) 1 (wordOfBool load)
    { s with gen := { s.gen with requests := s.gen.requests.put q (some ⟨now s, load, e⟩) } } = w
  have hgen : w.gen = { s.gen with requests := s.gen.requests.put q (some ⟨now s, load, e⟩) } := by rw [← hw, logEv_gen]
  have hstate : w.gen.state = s.gen.state := by rw [hgen]
  have hcool : ¬ (w.gen.state == .cooldown) = true := by
    rw [hstate]
    rcases hs with h | h <;> rw [h] <;> decide
  rw [if_neg hcool, seriesStart_stays, hgen]
  · rfl
  · rw [hstate]
    rcases hs with h | h <;> rw [h] <;> decide

theorem postRequest_halted {q : RequestKind} {load : Bool} {e : Nat} : StaysHalted s (postRequest q load e s) := by
  unfold postRequest
  split
  · exact .of_gen rfl
  · split
    · exact .of_gen refuseRequest_gen
    · split
      · exact .of_gen refuseRequest_gen
      · exact addRequest_halted

/-! ## Points and conditions -/

theorem settles_closed : ReportClosed (fun _ => True) Settles where
  refl := Settles.refl
  trans := Settles.trans
  alm _ _ := .of_eq rfl rfl rfl
  log _ _ := .of_eq rfl rfl rfl
  report p s _ := by
    unfold reportActive
    dsimp only
    have hcancel : Settles s (if p = Pt.battOvertemp then cancelEqualize .cancelledTemp s else s) := by
      split
      · exact .of_aside cancelEqualize_aside
      · exact .refl s
    refine hcancel.trans ?_
    generalize (if p = Pt.battOvertemp then cancelEqualize .cancelledTemp s else s) = w
    have hfuel : Settles w (if p = Pt.fuelCritical then fuelCriticalNotice w else w) := by
      split
      · exact fuelCriticalNotice_settles
      · exact .refl w
    refine hfuel.trans ?_
    generalize (if p = Pt.fuelCritical then fuelCriticalNotice w else w) = x
    split
    · exact .of_aside abortTest_aside
    · exact .refl x

theorem setCopy_settles : Settles s (setCopy p b s) := settles_closed.setCopy trivial fun _ _ => trivial

/-- A condition other than the two of the source. -/
theorem setCond_settles (h1 : p ≠ Pt.mainsAbsent) (h2 : p ≠ Pt.transferFault) : Settles s (setCond p b s) := by
  refine Settles.trans (t := { s with conds := s.conds.set p b }) ⟨?_, fun _ => rfl, .of_gen rfl⟩ setCopy_settles
  have hconds : ({ s with conds := s.conds.set p b } : State).conds = s.conds.set p b := rfl
  rw [sourceSide, condOf_set_ne hconds h1, condOf_set_ne hconds h2]
  rfl

theorem judgeCond_settles (h1 : p ≠ Pt.mainsAbsent) (h2 : p ≠ Pt.transferFault) : Settles s (judgeCond p b s) := by
  unfold judgeCond
  split
  · exact setCond_settles h1 h2
  · exact .refl s

theorem presentConds_settles {l : List Nat} : Settles s (presentConds l s) :=
  settles_closed.foldl (fun _ _ _ => setCopy_settles) s

theorem alarmEvaluation_settles : Settles s (alarmEvaluation s) :=
  settles_closed.foldl (fun _ _ _ => setCopy_settles) s

theorem refreshOutputs_settles : Settles s (refreshOutputs s) := .of_aside refreshOutputs_aside

theorem alarmStart_settles : Settles s (alarmStart s) := by
  refine Settles.trans refreshOutputs_settles (settles_closed.foldl (fun p _ w => ?_) _)
  split
  · exact settles_closed.becomeTrue trivial
  · exact .refl w

/-! ## The strings' evaluation -/

theorem closeString_settles : Settles s (closeString k s) := .of_beside closeString_alone.rest

theorem withdrawClaim_settles {c : Slot} : Settles s (withdrawClaim c s) := .of_eq withdrawClaim_src withdrawClaim_gen withdrawClaim_conds

theorem matchPosted_settles : Settles s (matchPosted k s) := by
  have h := matchPosted_rest (k := k) (s := s)
  have hsrc := congrArg State.src h
  have hgen := congrArg State.gen h
  have hconds := congrArg State.conds h
  exact .of_eq hsrc hgen hconds

theorem endReconnect_settles {o : ReconnectOutcome} : Settles s (endReconnect k o s) :=
  .of_eq endReconnect_train.2 endReconnect_gen endReconnect_conds

theorem handleReconnect_settles : Settles s (handleReconnect s) := by
  unfold handleReconnect
  split
  · next k _ =>
    unfold handleMatching
    split
    · refine Settles.trans (t := matchPosted k s) matchPosted_settles ?_
      show Settles (matchPosted k s) (if matchHolds (matchPosted k s) k then closeString k (matchPosted k s)
        else if reconnectOverdue (matchPosted k s) k then
          setCond Pt.reconnectFailed true (endReconnect k .timeout (matchPosted k s)) else matchPosted k s)
      split
      · exact closeString_settles
      · split
        · exact endReconnect_settles.trans (setCond_settles (by decide) (by decide))
        · exact .refl _
    · exact .refl s
  · exact .refl s

theorem stringTimers_settles : Settles s (stringTimers s) := by
  rw [stringTimers_eq]
  exact (Settles.of_beside timers_beside).trans handleReconnect_settles

theorem stringTotals_settles {force : Bool} : Settles s (stringTotals force s) := by
  obtain ⟨recs, b, lg, n, h, -⟩ := stringTotals_eq (v := s) (force := force)
  rw [h]
  exact .of_eq rfl rfl rfl

theorem refreshStringConds_settles : Settles s (refreshStringConds s) :=
  (judgeCond_settles (by decide) (by decide)).trans ((judgeCond_settles (by decide) (by decide)).trans
    ((judgeCond_settles (by decide) (by decide)).trans (judgeCond_settles (by decide) (by decide))))

/-! ## The DEPTH check at RUN (R25, R31) -/

/-- A STANDBY generator with no request. -/
def Waits (g : Gen) : Prop := g.state = .standby ∧ g.requests = .empty

/-- A generator on which DEPTH alone can stand, in PRESTART where it does. -/
def DepthStarted (g : Gen) : Prop := OnlyDepth g ∧ g.state = if g.requests.depth.isSome then .prestart else .standby

theorem Waits.depthStarted {g : Gen} (h : Waits g) : DepthStarted g := by
  obtain ⟨hst, hreq⟩ := h
  rw [DepthStarted, OnlyDepth, hreq, hst]
  exact ⟨⟨rfl, rfl, rfl⟩, rfl⟩

theorem clearSpent_eq : ∃ x : Strings, clearSpent s = { s with str := x } ∧ x.depthHeld = s.str.depthHeld := by
  unfold clearSpent
  split
  · exact ⟨_, rfl, rfl⟩
  · exact ⟨s.str, rfl, rfl⟩

/-- The source's side kept, and a halted generator. -/
def DepthSide (s t : State) : Prop := sourceSide t = sourceSide s ∧ StaysHalted s t

theorem DepthSide.trans (h : DepthSide s t) (h' : DepthSide t u) : DepthSide s u := ⟨h'.1.trans h.1, h.2.trans h'.2⟩

theorem DepthSide.str (x : Strings) : DepthSide s { s with str := x } := ⟨rfl, fun _ => rfl⟩

theorem withdrawDepth_side : DepthSide s (withdrawDepth s) :=
  (DepthSide.str { s.str with depthHeld := false, busSpan := 0 }).trans ⟨sourceSide_of_aside removeRequest_aside, removeRequest_halted⟩

theorem postDepth_side : DepthSide s (postDepth s) :=
  (DepthSide.str { s.str with depthHeld := true }).trans ⟨sourceSide_of_aside postRequest_aside, postRequest_halted⟩

theorem clearSpent_side : DepthSide s (clearSpent s) := by
  obtain ⟨x, h, -⟩ := clearSpent_eq (s := s)
  rw [h]
  exact .str x

theorem checkDepth_side : DepthSide s (checkDepth s) := by
  unfold checkDepth
  dsimp only
  refine clearSpent_side.trans ?_
  generalize clearSpent s = w
  split
  · split
    · exact withdrawDepth_side
    · exact .str w.str
  · split
    · exact postDepth_side
    · exact .str w.str

/-- The state in which the DEPTH check at RUN judges, the holding taken from the request set. -/
def depthTaken (s : State) : State :=
  { clearSpent s with str := { (clearSpent s).str with depthHeld := requested (clearSpent s) .depth } }

theorem checkDepthAtRun_eq : checkDepthAtRun s = if (depthTaken s).str.depthHeld then
    (if depthDue (depthTaken s) then depthTaken s else withdrawDepth (depthTaken s)) else checkDepth (depthTaken s) := rfl

theorem depthTaken_side : DepthSide s (depthTaken s) := clearSpent_side.trans (.str _)

theorem checkDepthAtRun_side : DepthSide s (checkDepthAtRun s) := by
  rw [checkDepthAtRun_eq]
  refine depthTaken_side.trans ?_
  generalize depthTaken s = w
  split
  · split
    · exact .str w.str
    · exact withdrawDepth_side
  · exact checkDepth_side

/-- DEPTH posted to a STANDBY generator with no request starts a series where no test runs. -/
theorem postDepth_starts (h : Waits s.gen) (ht : testRunning s = false) : DepthStarted (postDepth s).gen := by
  obtain ⟨hst, hreq⟩ := h
  have hnone : requested s .depth = false := by
    rw [requested, hreq]
    rfl
  have hpost : postDepth s = addRequest .depth true 0 { s with str := { s.str with depthHeld := true } } :=
    postRequest_taken (s := { s with str := { s.str with depthHeld := true } }) hnone (.inr rfl) ht
  rw [hpost]
  unfold addRequest
  dsimp only
  generalize hw : logEv .runRequest _ _ _ _ = w
  have hgen : w.gen = { s.gen with requests := s.gen.requests.put .depth (some ⟨now s, true, 0⟩) } := by
    rw [← hw, logEv_gen]
    rfl
  have hbus : w.bus = s.bus := by rw [← hw, logEv_bus]
  have hstate : w.gen.state = .standby := by rw [hgen]; exact hst
  have hrequests : w.gen.requests = RequestSet.empty.put .depth (some ⟨now s, true, 0⟩) := by rw [hgen, hreq]
  rw [if_neg (by rw [hstate]; decide), seriesStart_begins hstate (by rw [hrequests]; rfl) (by rw [testRunning, hbus]; exact ht)]
  have hbegun : (w.gen.begin (now w)).requests = w.gen.requests := rfl
  rw [DepthStarted, OnlyDepth, hbegun, hrequests]
  exact ⟨⟨rfl, rfl, rfl⟩, rfl⟩

theorem checkDepthAtRun_starts (h : Waits s.gen) : DepthStarted (checkDepthAtRun s).gen := by
  obtain ⟨x, hx, -⟩ := clearSpent_eq (s := s)
  have hgen : (depthTaken s).gen = s.gen := by rw [depthTaken, hx]
  have hheld : (depthTaken s).str.depthHeld = false := by
    show requested (clearSpent s) .depth = false
    rw [hx, requested]
    show (s.gen.requests.get .depth).isSome = false
    rw [h.2]
    rfl
  rw [checkDepthAtRun_eq, hheld, if_neg Bool.false_ne_true]
  obtain ⟨y, hy, hyheld⟩ := clearSpent_eq (s := depthTaken s)
  unfold checkDepth
  dsimp only
  generalize hw : clearSpent (depthTaken s) = w
  have hwgen : w.gen = s.gen := by rw [← hw, hy]; exact hgen
  have hwheld : w.str.depthHeld = false := by rw [← hw, hy]; exact hyheld.trans hheld
  rw [hwheld, if_neg Bool.false_ne_true]
  have hwaits : Waits w.gen := by rw [hwgen]; exact h
  split
  · next hdue =>
    simp only [Bool.and_eq_true, Bool.not_eq_true'] at hdue
    exact postDepth_starts hwaits hdue.2
  · exact hwaits.depthStarted

/-! ## The strings, the roster and the bus at RUN -/

/-- The strings' evaluation at RUN up to the DEPTH check. -/
def stringsAsked (s : State) : State :=
  { s with str := { s.str with recs := s.str.recs.map (Option.map StringRec.resume), busSpan := 0 } }
    |> withdrawClaim .matching |> stringTimers |> stringTotals true

theorem stringsAtRun_eq : stringsAtRun s = refreshStringConds (presentConds [Pt.reconnectFailed] (checkDepthAtRun (stringsAsked s))) := rfl

theorem stringsAsked_settles : Settles s (stringsAsked s) := by
  refine Settles.trans (t := { s with str := { s.str with recs := s.str.recs.map (Option.map StringRec.resume), busSpan := 0 } })
    (.of_eq rfl rfl rfl) ?_
  exact withdrawClaim_settles.trans (stringTimers_settles.trans stringTotals_settles)

theorem stringsReported_settles : Settles (checkDepthAtRun (stringsAsked s)) (stringsAtRun s) := by
  rw [stringsAtRun_eq]
  exact presentConds_settles.trans refreshStringConds_settles

theorem refreshRosterConds_settles : Settles s (refreshRosterConds s) := by
  unfold refreshRosterConds refreshModuleConds
  exact (judgeCond_settles (by decide) (by decide)).trans ((judgeCond_settles (by decide) (by decide)).trans
    (setCond_settles (by decide) (by decide)))

theorem rosterAtRun_settles {l : List Nat} : Settles s (rosterAtRun l s) := by
  have hfirst : ∀ w : State, Settles w (w |> eachModule firstModuleState (List.range 8) |> immediateShed |> rosterSteps l |> refreshRosterConds) := by
    intro w
    have hfirst : Shelf w (eachModule firstModuleState (List.range 8) w) :=
      eachModule_shelf (f := firstModuleState) (ms := List.range 8) (Shelf.refl w) fun _ _ h => firstModuleState_shelf h
    have hshelf := rosterSteps_shelf (ms := l) (immediateShed_shelf hfirst)
    exact (Settles.of_shelf hshelf).trans refreshRosterConds_settles
  unfold rosterAtRun
  split
  · refine Settles.trans ?_ (hfirst _)
    exact .of_eq rfl rfl rfl
  · refine Settles.trans ?_ (hfirst _)
    exact .of_eq rfl rfl rfl

theorem busAtRun_settles : Settles s (busAtRun s) := by
  unfold busAtRun
  refine Settles.trans ?_ presentConds_settles
  split
  · exact .of_eq rfl rfl rfl
  · refine Settles.trans (t := firstSetpoint (setEq (fun e => { e with nextCheck := nextHour (now s), schedule := .notDue, firstFailed := 0 }) s))
      ?_ (.of_eq rfl rfl rfl)
    unfold firstSetpoint
    split
    · exact .of_eq rfl rfl rfl
    · exact .of_eq rfl rfl rfl

end Sys2Proof.Machine
end

section
/-! PROOFS. The end of SETTLE: RUN entered, and what the Source Controller and the Generator Controller derive (O15). -/

namespace Sys2Proof.Machine

variable {s t u : State} {ms : Nat}

/-! ## The entry to RUN (R187) -/

theorem logAt_eq {time : Nat} {k : LogKind} {x a b : Word} : ∃ lg, logAt time k x a b s = { s with log := lg } := by
  unfold logAt
  split
  · exact ⟨_, rfl⟩
  · exact ⟨_, rfl⟩

theorem logLateEntries_eq : ∀ (l : List LogEvent) (s : State),
    ∃ lg, l.foldl (fun t e => logAt e.time e.kind e.subject e.a e.b t) s = { s with log := lg }
  | [], s => ⟨s.log, rfl⟩
  | e :: l, s => by
    obtain ⟨lg, h⟩ := logAt_eq (s := s) (time := e.time) (k := e.kind) (x := e.subject) (a := e.a) (b := e.b)
    obtain ⟨lg', h'⟩ := logLateEntries_eq l { s with log := lg }
    exact ⟨lg', by rw [List.foldl_cons, h, h']⟩

/-- The start-up record in RUN. -/
def Startup.running (x : Startup) : Startup := { x with state := .run, outcome := 1, late := [] }

theorem enterRun_eq : ∃ lg, enterRun s = { s with
    st := s.st.running, cmd := { s.cmd with interval := 0, pages := ⟨0, 0, 0, 0⟩ }, log := lg } := by
  unfold enterRun logLate
  dsimp only
  generalize hw : logEv .startupDone 0 1 _ _ = w
  obtain ⟨lg, h⟩ := logLateEntries_eq w.st.late w
  rw [h]
  refine ⟨lg, ?_⟩
  obtain ⟨lg', h'⟩ := logAt_eq (s := { s with
      st := { s.st with state := .run, outcome := 1 }, cmd := { s.cmd with interval := 0, pages := ⟨0, 0, 0, 0⟩ } })
    (time := now s) (k := .startupDone) (x := 0) (a := 1) (b := wordOf s.st.defaulted)
  rw [← hw]
  show setStart _ { logAt _ _ _ _ _ _ with log := lg } = _
  exact congrArg (fun y : State => setStart (fun x => { x with late := [] }) { y with log := lg }) h'

/-- The blocks' first work in RUN. -/
def firstWork (ms : Nat) (l : List Nat) (s : State) : State :=
  s |> alarmStart |> sourceAtRun ms |> genAtRun |> stringsAtRun |> rosterAtRun l |> busAtRun |> alarmEvaluation

theorem settleEnds_runs (h : s.st.state = .settle) (hn : 10 ≤ s.st.settleScans) :
    settleEnds ms s = firstWork ms (modulesIn s .stopping) (enterRun s) := if_pos (by simp [settleDone, h, hn])

theorem settleEnds_waits (hn : s.st.settleScans < 10) : settleEnds ms s = s :=
  if_neg (by simp [settleDone, Nat.not_le.2 hn])

/-! ## What the first work leaves of start-up, window, clock and settings -/

/-- The start-up record, the window, the clock and the copies. -/
def office (s : State) := (s.st, s.cmd, s.clk, s.settings)

theorem Quiet.sameOffice (h : Quiet s t) : office t = office s := by rw [office, office, h.st_eq, h.cmd_eq, h.clk_eq, h.settings_eq]

theorem rosterAtRun_office {l : List Nat} : office (rosterAtRun l s) = office s := by
  have hfirst : ∀ w : State, Quiet w
      (w |> eachModule firstModuleState (List.range 8) |> immediateShed |> rosterSteps l |> refreshRosterConds) := fun w =>
    refreshRosterConds_quiet (rosterSteps_quiet (immediateShed_quiet (eachModule_quiet (Quiet.refl w) fun _ _ h => firstModuleState_quiet h)))
  unfold rosterAtRun
  split
  · exact (hfirst _).sameOffice
  · exact (hfirst _).sameOffice

theorem firstWork_office {l : List Nat} : office (firstWork ms l s) = office s := by
  have hbefore : Quiet s (s |> alarmStart |> sourceAtRun ms |> genAtRun |> stringsAtRun) :=
    stringsAtRun_quiet (genAtRun_quiet (sourceAtRun_quiet (alarmStart_quiet (Quiet.refl _))))
  exact (alarmEvaluation_quiet (busAtRun_quiet (Quiet.refl _))).sameOffice.trans (rosterAtRun_office.trans hbefore.sameOffice)

/-! ## The mains derived (R94) -/

/-- The sense and the last result of PM2 show mains within the frequency window. -/
def mainsFound (s : State) : Bool := s.pm.sense && s.pm.pm2Last.isSome && inFreqWindow s (s.pm.pm2Last.getD 0)

/-- The mains record that is derived, before its state. -/
def mainsTaken (s : State) : State :=
  setMains (fun m => { m with sense := s.pm.sense, lastFreq := s.pm.pm2Last.getD 0, entered := now s }) s

theorem deriveMains_eq : deriveMains s = if mainsFound s then
      logEv .mainsReturn 0 0 0 (setMains (fun m => { m with state := .present }) (mainsTaken s))
    else setCond Pt.mainsAbsent true (logEv .mainsOutage 0 (if s.pm.sense then 2 else 1) 0
      (setMains (fun m => { m with state := .absent, outageStart := now s }) (mainsTaken s))) := rfl

theorem deriveMains_present (h : mainsFound s = true) : (deriveMains s).src = { s.src with mains := { s.src.mains with
    sense := s.pm.sense, lastFreq := s.pm.pm2Last.getD 0, entered := now s, state := .present } } ∧ (deriveMains s).gen = s.gen := by
  rw [deriveMains_eq, if_pos h, logEv_src, logEv_gen]
  exact ⟨rfl, rfl⟩

theorem deriveMains_absent (h : mainsFound s = false) (hc : s.conds.length = 32) : (deriveMains s).src = { s.src with mains := { s.src.mains with
      sense := s.pm.sense, lastFreq := s.pm.pm2Last.getD 0, entered := now s, state := .absent, outageStart := now s } } ∧
    (deriveMains s).gen = s.gen ∧ condOf (deriveMains s) Pt.mainsAbsent = true := by
  rw [deriveMains_eq, if_neg (by simp [h])]
  generalize hw : logEv .mainsOutage _ _ _ _ = w
  have hside := setCond_aside (s := w) (whole := true) (p := Pt.mainsAbsent) (b := true) fun _ _ => by decide
  have hsrc : w.src = { s.src with mains := { s.src.mains with
      sense := s.pm.sense, lastFreq := s.pm.pm2Last.getD 0, entered := now s, state := .absent, outageStart := now s } } := by
    rw [← hw, logEv_src]
    rfl
  have hgen : w.gen = s.gen := by
    rw [← hw, logEv_gen]
    rfl
  have hconds : w.conds = s.conds := by
    rw [← hw, logEv_conds]
    rfl
  refine ⟨(aside_src hside).trans hsrc, (aside_gen hside).trans hgen, condOf_setCond ?_⟩
  rw [hconds, hc]
  decide

/-- What the derivation of the mains leaves of the transfer and the generator, and the mains' first fields. -/
theorem deriveMains_spec (hc : s.conds.length = 32) : (deriveMains s).src.xfer = s.src.xfer ∧ (deriveMains s).gen = s.gen ∧
    (deriveMains s).src.mains.entered = now s ∧ (deriveMains s).src.mains.sense = s.pm.sense ∧
    (mainsFound s = true → (deriveMains s).src.mains.state = .present) ∧
    (mainsFound s = false → (deriveMains s).src.mains.state = .absent ∧ (deriveMains s).src.mains.outageStart = now s ∧
      condOf (deriveMains s) Pt.mainsAbsent = true) := by
  cases h : mainsFound s with
  | true =>
    obtain ⟨hsrc, hgen⟩ := deriveMains_present h
    rw [hsrc]
    exact ⟨rfl, hgen, rfl, rfl, fun _ => rfl, fun h => (by cases h)⟩
  | false =>
    obtain ⟨hsrc, hgen, hcond⟩ := deriveMains_absent h hc
    rw [hsrc]
    exact ⟨rfl, hgen, rfl, rfl, fun h => (by cases h), fun _ => ⟨rfl, rfl, hcond⟩⟩

/-! ## The transfer derived (R94) -/

theorem deriveXfer_mains (h : feedbacks s = (true, false)) : (deriveXfer s).src = { s.src with xfer := { s.src.xfer with
      state := .onMains, entered := now s, mopen := .released, gclose := .released } } ∧ (deriveXfer s).gen = s.gen ∧
    (deriveXfer s).conds = s.conds := by
  unfold deriveXfer
  rw [if_pos h, logEv_src, logEv_gen, logEv_conds]
  exact ⟨rfl, rfl, rfl⟩

theorem deriveXfer_mismatch (h : feedbacks s ≠ (true, false)) (hc : s.conds.length = 32) :
    (deriveXfer s).src = { s.src with xfer := { s.src.xfer with
      state := .fault, entered := now s, cause := .resetMismatch, faultMains := (feedbacks s).1, faultGen := (feedbacks s).2,
      releasePending := false, mopen := .released, gclose := .released } } ∧ (deriveXfer s).gen = s.gen ∧
    condOf (deriveXfer s) Pt.mainsAbsent = condOf s Pt.mainsAbsent ∧ condOf (deriveXfer s) Pt.transferFault = true := by
  unfold deriveXfer
  rw [if_neg h]
  generalize hw : setXfer _ s = w0
  dsimp only
  generalize hw1 : logEv .transfer _ _ _ w0 = w
  have hside := setCond_aside (s := w) (whole := true) (p := Pt.transferFault) (b := true) fun _ _ => by decide
  have hsrc : w.src = w0.src := by rw [← hw1, logEv_src]
  have hgen : w.gen = w0.gen := by rw [← hw1, logEv_gen]
  have hconds : w.conds = s.conds := by
    rw [← hw1, logEv_conds, ← hw]
    rfl
  refine ⟨(aside_src hside).trans (hsrc.trans (by rw [← hw]; rfl)), (aside_gen hside).trans (hgen.trans (by rw [← hw]; rfl)), ?_,
    condOf_setCond (by rw [hconds, hc]; decide)⟩
  rw [condOf_setCond_ne (by decide), condOf, hconds, ← condOf]

/-- What the derivation of the transfer comes to, by the feedbacks. -/
theorem deriveXfer_spec (hc : s.conds.length = 32) : (deriveXfer s).src.mains = s.src.mains ∧ (deriveXfer s).gen = s.gen ∧
    condOf (deriveXfer s) Pt.mainsAbsent = condOf s Pt.mainsAbsent ∧ (deriveXfer s).src.xfer.entered = now s ∧
    ((deriveXfer s).src.xfer.mopen, (deriveXfer s).src.xfer.gclose) = (.released, .released) ∧
    (feedbacks s = (true, false) → (deriveXfer s).src.xfer.state = .onMains) ∧
    (feedbacks s ≠ (true, false) → (deriveXfer s).src.xfer.state = .fault ∧ (deriveXfer s).src.xfer.cause = .resetMismatch ∧
      ((deriveXfer s).src.xfer.faultMains, (deriveXfer s).src.xfer.faultGen) = feedbacks s ∧
      (deriveXfer s).src.xfer.releasePending = false ∧ condOf (deriveXfer s) Pt.transferFault = true) := by
  by_cases h : feedbacks s = (true, false)
  · obtain ⟨hsrc, hgen, hconds⟩ := deriveXfer_mains h
    rw [hsrc, condOf, hconds, ← condOf]
    exact ⟨rfl, hgen, rfl, rfl, rfl, fun _ => rfl, fun hne => absurd h hne⟩
  · obtain ⟨hsrc, hgen, habsent, hfault⟩ := deriveXfer_mismatch h hc
    rw [hsrc]
    exact ⟨rfl, hgen, habsent, rfl, rfl, fun he => absurd he h, fun _ => ⟨rfl, rfl, rfl, rfl, hfault⟩⟩

/-! ## The source at RUN -/

/-- The transfer but for the watch of its feedbacks. -/
def Xfer.unwatched (x : Xfer) : Xfer := { x with mismatchWatch := false }

theorem sourceAtRun_lost (h : s.st.keepTrain = false) : sourceAtRun ms s = handCapacity (watchFeedbacks (deriveXfer (deriveMains s))) :=
  if_neg (by simp [h])

/-- The watch and the handing on of the capacity leave the rest of the source, the generator and the conditions. -/
theorem sourceAtRun_rest (h : s.st.keepTrain = false) : (sourceAtRun ms s).src.xfer.unwatched = (deriveXfer (deriveMains s)).src.xfer.unwatched ∧
    (sourceAtRun ms s).src.mains = (deriveXfer (deriveMains s)).src.mains ∧ (sourceAtRun ms s).gen = (deriveXfer (deriveMains s)).gen ∧
    (sourceAtRun ms s).conds = (deriveXfer (deriveMains s)).conds := by
  obtain ⟨w, hw⟩ := watchFeedbacks_eq (s := deriveXfer (deriveMains s))
  rw [sourceAtRun_lost h, handCapacity_src, handCapacity_gen, handCapacity_conds, hw]
  exact ⟨rfl, rfl, rfl, rfl⟩

/-! ## The generator derived (R125) -/

/-- The state of a generator that a reset has not kept. -/
def derivedState (s : State) : GenState := if !genFitted s then .disabled else if s.pm.pm0Seen then .stopping else .standby

/-- The generator's record before the state it derives. -/
def genCleared (s : State) : State := setGen (fun g => { g with capacity := genCapacity s.settings, destDisabled := false }) s

theorem deriveGen_eq : deriveGen s = genEnter (derivedState s) 0 (genCleared s) := by
  have hcases : deriveGen s = if !genFitted s then genEnter .disabled 0 (genCleared s)
      else if s.pm.pm0Seen then genEnter .stopping 0 (genCleared s) else genEnter .standby 0 (genCleared s) := rfl
  rw [hcases, derivedState]
  split
  · rfl
  · split <;> rfl

theorem genAtRun_spec (h : s.st.keepTrain = false) : (genAtRun s).gen.drive = ((derivedState s), false, (derivedState s).outputs.1,
      (derivedState s).outputs.2.1, (derivedState s).outputs.2.2) ∧ (genAtRun s).gen.requests = s.gen.requests ∧
    sourceSide (genAtRun s) = sourceSide s := by
  have heq : genAtRun s = setGen (fun g => { g with nextSlot := slotFrom (deriveGen s).settings (now (deriveGen s)), slotStale := false })
      (deriveGen s) := by
    unfold genAtRun
    rw [h]
    rfl
  have hgen : (deriveGen s).gen =
      ({ s.gen with capacity := genCapacity s.settings, destDisabled := false } : Gen).enter (derivedState s) (now s) := by
    rw [deriveGen_eq]
    exact genEnter_gen (s := genCleared s)
  have hside : sourceSide (deriveGen s) = sourceSide s := by
    rw [deriveGen_eq]
    exact sourceSide_of_aside (genEnter_aside (s := genCleared s))
  rw [heq]
  refine ⟨?_, ?_, hside⟩
  · show (deriveGen s).gen.drive = _
    rw [hgen]
    rfl
  · show (deriveGen s).gen.requests = _
    rw [hgen]
    rfl

theorem requests_empty {q : RequestSet} (h : q.isEmpty = true) : q = .empty := by
  obtain ⟨a, b, c, d⟩ := q
  simp [RequestSet.isEmpty] at h
  simp [RequestSet.empty, h]

/-! ## From the derivations to the end of the step -/

/-- The state in which the strings have judged DEPTH. -/
def depthJudged (s : State) : State := checkDepthAtRun (stringsAsked (genAtRun s))

theorem depthJudged_side : DepthSide (genAtRun s) (depthJudged s) :=
  DepthSide.trans ⟨stringsAsked_settles.source, stringsAsked_settles.halted⟩ checkDepthAtRun_side

/-- The rest of the step leaves the source, a halted generator, and one on which DEPTH alone can stand. -/
theorem depthJudged_settles {l : List Nat} :
    Settles (depthJudged s) (alarmEvaluation (busAtRun (rosterAtRun l (stringsAtRun (genAtRun s))))) :=
  stringsReported_settles.trans (rosterAtRun_settles.trans (busAtRun_settles.trans alarmEvaluation_settles))

/-- A generator that is derived STANDBY with no request starts a series where DEPTH is posted. -/
theorem depthJudged_starts (h : Waits (genAtRun s).gen) : DepthStarted (depthJudged s).gen := by
  have hasked : (stringsAsked (genAtRun s)).gen = (genAtRun s).gen := stringsAsked_settles.gen h.depthStarted.1
  exact checkDepthAtRun_starts (by rw [hasked]; exact h)

end Sys2Proof.Machine
end

section
/-! PROOFS. The settling of SettleEnd (O15). -/

namespace Sys2Proof.Machine

variable {s t u v : State} {ms : Nat} {l : List Nat}

/-! ## The state in which the sources are derived -/

/-- What the derivations read: the meters, the inputs, the clock, the copies and the start-up record in RUN. -/
structure Entered (s v : State) : Prop where
  pm : v.pm = s.pm
  inp : v.inp = s.inp
  clk : v.clk = s.clk
  settings : v.settings = s.settings
  st : v.st = s.st.running
  conds : v.conds.length = s.conds.length
  gen : OnlyDepth s.gen → v.gen = s.gen

theorem alarmStart_entered (hs : Shape s) : Entered s (alarmStart (enterRun s)) := by
  obtain ⟨lg, he⟩ := enterRun_eq (s := s)
  have hq : Quiet (enterRun s) (alarmStart (enterRun s)) := alarmStart_quiet (Quiet.refl _)
  have hgen := (alarmStart_settles (s := enterRun s)).gen
  have hshape : Shape (alarmStart (enterRun s)) := hq.shape.trans (by rw [he]; exact hs)
  refine ⟨hq.pm_eq.trans (by rw [he]), hq.inp_eq.trans (by rw [he]), hq.clk_eq.trans (by rw [he]), hq.settings_eq.trans (by rw [he]),
    hq.st_eq.trans (by rw [he]), (conds_length hshape).trans (conds_length hs).symm, fun ho => ?_⟩
  have hsame : (enterRun s).gen = s.gen := by rw [he]
  exact (hgen (by rw [hsame]; exact ho)).trans hsame

theorem Entered.now (h : Entered s v) : now v = now s := congrArg Clock.value h.clk

theorem Entered.feedbacks (h : Entered s v) : feedbacks v = feedbacks s := feedbacks_congr h.inp

theorem Entered.genFitted (h : Entered s v) : genFitted v = genFitted s := by
  rw [Machine.genFitted, h.st]
  rfl

theorem Entered.inFreqWindow (h : Entered s v) (f : Nat) : inFreqWindow v f = inFreqWindow s f := by
  have hn : nominal60 v = nominal60 s := by
    rw [nominal60, h.st]
    rfl
  rw [Machine.inFreqWindow, h.settings, hn, Machine.inFreqWindow]

theorem Entered.mainsFound (h : Entered s v) : mainsFound v = mainsFound s := by
  rw [Machine.mainsFound, h.pm, h.inFreqWindow, Machine.mainsFound]

theorem mainsFound_of {f : Nat} (hsense : s.pm.sense = true) (hlast : s.pm.pm2Last = some f) (hw : inFreqWindow s f = true) :
    mainsFound s = true := by
  unfold mainsFound
  rw [hsense, hlast]
  exact hw

theorem mainsFound_not (h : s.pm.sense = false ∨ s.pm.pm2Last = none ∨ ∃ f, s.pm.pm2Last = some f ∧ inFreqWindow s f = false) :
    mainsFound s = false := by
  unfold mainsFound
  rcases h with h | h | ⟨f, h, hw⟩
  · rw [h]
    rfl
  · rw [h, Option.isSome_none, Bool.and_false, Bool.false_and]
  · rw [h, Option.getD_some, hw, Bool.and_false]

/-! ## The source at the end of the step -/

/-- The state whose transfer and mains have been derived. -/
def sourceDerived (v : State) : State := deriveXfer (deriveMains v)

theorem deriveMains_conds_length : (deriveMains v).conds.length = v.conds.length := by
  rw [deriveMains_eq]
  split
  · rw [logEv_conds]
    rfl
  · rw [conds_setCond, List.length_set, logEv_conds]
    rfl

theorem sourceDerived_gen (hc : v.conds.length = 32) : (sourceDerived v).gen = v.gen := by
  obtain ⟨-, hgen, -⟩ := deriveMains_spec hc
  obtain ⟨-, hgen', -⟩ := deriveXfer_spec (deriveMains_conds_length.trans hc)
  exact hgen'.trans hgen

/-- What follows the judging of DEPTH settles the state it has left. -/
theorem firstWork_settles {w : State} (hw : sourceAtRun ms (alarmStart s) = w) : Settles (depthJudged w) (firstWork ms l s) := by
  rw [firstWork, hw]
  exact depthJudged_settles

theorem depthJudged_source : sourceSide (depthJudged s) = sourceSide (genAtRun s) := by
  obtain ⟨hsource, -⟩ := depthJudged_side (s := s)
  exact hsource

theorem depthJudged_halted (h : Halted (genAtRun s).gen) : (depthJudged s).gen.drive = (genAtRun s).gen.drive := by
  obtain ⟨-, hhalted⟩ := depthJudged_side (s := s)
  exact hhalted h

/-- The first work in RUN keeps the source as derived. -/
theorem firstWork_source (h : (alarmStart s).st.keepTrain = false) :
    (firstWork ms l s).src.xfer.unwatched = (sourceDerived (alarmStart s)).src.xfer.unwatched ∧
    { (firstWork ms l s).src.mains with failHeld := false } = { (sourceDerived (alarmStart s)).src.mains with failHeld := false } ∧
    condOf (firstWork ms l s) Pt.mainsAbsent = condOf (sourceDerived (alarmStart s)) Pt.mainsAbsent ∧
    condOf (firstWork ms l s) Pt.transferFault = condOf (sourceDerived (alarmStart s)) Pt.transferFault := by
  have hq := sourceAtRun_quiet (Quiet.refl (alarmStart s)) (sinceLossMs := ms)
  obtain ⟨hxfer, hmains, -, hconds⟩ := sourceAtRun_rest (ms := ms) h
  generalize hw : sourceAtRun ms (alarmStart s) = w at *
  have hst : w.st.keepTrain = false := by
    rw [hq.st_eq]
    exact h
  obtain ⟨-, -, hside⟩ := genAtRun_spec hst
  have hall : sourceSide (firstWork ms l s) = sourceSide w := (firstWork_settles hw).source.trans (depthJudged_source.trans hside)
  rw [sourceDerived]
  generalize deriveXfer (deriveMains (alarmStart s)) = d at *
  generalize firstWork ms l s = t at *
  have hx : t.src.xfer = w.src.xfer := congrArg (·.1) hall
  have hm : { t.src.mains with failHeld := false } = { w.src.mains with failHeld := false } := congrArg (·.2.1) hall
  have ha : condOf t Pt.mainsAbsent = condOf w Pt.mainsAbsent := congrArg (·.2.2.1) hall
  have hf : condOf t Pt.transferFault = condOf w Pt.transferFault := congrArg (·.2.2.2) hall
  have hcond : ∀ p, condOf w p = condOf d p := fun p => by rw [condOf, hconds, condOf]
  rw [hx, hxfer, hm, hmains, ha, hf, hcond, hcond]
  exact ⟨rfl, rfl, rfl, rfl⟩

/-- The first work in RUN keeps a halted generator, and starts a STANDBY one by DEPTH alone. -/
theorem firstWork_gen (h : (alarmStart s).st.keepTrain = false) (hc : (alarmStart s).conds.length = 32) :
    (derivedState (alarmStart s) = .disabled ∨ derivedState (alarmStart s) = .stopping →
      (firstWork ms l s).gen.drive = (derivedState (alarmStart s), false, .released, .released, .released)) ∧
    (derivedState (alarmStart s) = .standby → (alarmStart s).gen.requests = .empty → DepthStarted (firstWork ms l s).gen) := by
  have hq := sourceAtRun_quiet (Quiet.refl (alarmStart s)) (sinceLossMs := ms)
  obtain ⟨-, -, hsame, -⟩ := sourceAtRun_rest (ms := ms) h
  have hgen : (sourceAtRun ms (alarmStart s)).gen = (alarmStart s).gen := hsame.trans (sourceDerived_gen hc)
  generalize hw : sourceAtRun ms (alarmStart s) = w at *
  have hst : w.st.keepTrain = false := by
    rw [hq.st_eq]
    exact h
  have hderived : derivedState w = derivedState (alarmStart s) := by
    rw [derivedState, genFitted, hq.st_eq, hq.pm_eq, derivedState, genFitted]
  obtain ⟨hdrive, hreq, -⟩ := genAtRun_spec hst
  have hsettles : Settles (depthJudged w) (firstWork ms l s) := firstWork_settles hw
  rw [hderived] at hdrive
  generalize derivedState (alarmStart s) = d at *
  have hstate : (genAtRun w).gen.state = d := by
    generalize genAtRun w = x at hdrive
    exact congrArg (·.1) hdrive
  refine ⟨fun hd => ?_, fun hd hempty => ?_⟩
  · have hhalted : Halted (genAtRun w).gen := by
      rw [Halted, hstate]
      exact hd
    have hjudged := depthJudged_halted hhalted
    rw [hsettles.halted (hhalted.congr hjudged), hjudged, hdrive]
    rcases hd with hd | hd <;> rw [hd] <;> rfl
  · have hwaits : Waits (genAtRun w).gen := ⟨hstate.trans hd, hreq.trans (by rw [hgen]; exact hempty)⟩
    have hstarted := depthJudged_starts hwaits
    rw [hsettles.gen hstarted.1]
    exact hstarted

/-- Settles O15: RUN entered with its record, and the source and the generator as derived where the train was not kept. -/
theorem settleEnd : Obligations.SettleEnd := by
  refine ⟨fun ms s hst => ⟨fun hn => ⟨_, rfl, ?record⟩, fun hn => congrArg Host.Outcome.next (settleEnds_waits hn)⟩,
    fun ms s hs hst hn hk => ⟨_, rfl, ?derived⟩⟩
  case record =>
    obtain ⟨lg, he⟩ := enterRun_eq (s := s)
    have hoffice : office (settleEnds ms s) =
        (s.st.running, { s.cmd with interval := 0, pages := ⟨0, 0, 0, 0⟩ }, s.clk, s.settings) := by
      rw [settleEnds_runs hst hn, firstWork_office, he]
      rfl
    generalize settleEnds ms s = t at *
    have hrec : t.st = s.st.running := congrArg (·.1) hoffice
    have hcmd : t.cmd = { s.cmd with interval := 0, pages := ⟨0, 0, 0, 0⟩ } := congrArg (·.2.1) hoffice
    have hclk : t.clk = s.clk := congrArg (·.2.2.1) hoffice
    have hset : t.settings = s.settings := congrArg (·.2.2.2) hoffice
    rw [hrec, hcmd]
    exact ⟨rfl, rfl, rfl, hclk, hset, rfl⟩
  case derived =>
    have h := alarmStart_entered hs
    have hc : (alarmStart (enterRun s)).conds.length = 32 := h.conds.trans (conds_length hs)
    have hkeep : (alarmStart (enterRun s)).st.keepTrain = false := by
      rw [h.st]
      exact hk
    have hruns := settleEnds_runs (ms := ms) hst hn
    obtain ⟨hxfer, hmains, habsent, hfault⟩ := firstWork_source (ms := ms) (l := modulesIn s .stopping) hkeep
    obtain ⟨hhalted, hstarts⟩ := firstWork_gen (ms := ms) (l := modulesIn s .stopping) hkeep hc
    rw [← hruns] at hxfer hmains habsent hfault hhalted hstarts
    generalize settleEnds ms s = t at *
    have hfound := h.mainsFound
    have hgen := h.gen
    have hnow := h.now
    have hfeed := h.feedbacks
    have hderived : derivedState (alarmStart (enterRun s)) = derivedState s := by
      rw [derivedState, h.genFitted, h.pm, derivedState]
    have hsense : (alarmStart (enterRun s)).pm.sense = s.pm.sense := by rw [h.pm]
    rw [hderived] at hhalted hstarts
    generalize alarmStart (enterRun s) = v at *
    obtain ⟨-, -, hentered, hmsense, hpresent, hlost⟩ := deriveMains_spec hc
    have hq : Quiet v (deriveMains v) := deriveMains_quiet (Quiet.refl v)
    obtain ⟨hkept, -, hcond, hxentered, hdrives, hon, hmismatch⟩ := deriveXfer_spec (deriveMains_conds_length.trans hc)
    rw [hq.now_eq, hnow] at hxentered
    rw [feedbacks_congr hq.inp_eq, hfeed] at hon hmismatch
    rw [show (sourceDerived v).src.mains = (deriveMains v).src.mains from hkept] at hmains
    rw [show condOf (sourceDerived v) Pt.mainsAbsent = condOf (deriveMains v) Pt.mainsAbsent from hcond] at habsent
    have hfield : ∀ {α : Type} (f : Mains → α), (∀ m : Mains, f { m with failHeld := false } = f m) → f t.src.mains = f (deriveMains v).src.mains :=
      fun f hf => (hf _).symm.trans ((congrArg f hmains).trans (hf _))
    have hxfield : ∀ {α : Type} (f : Xfer → α), (∀ x : Xfer, f x.unwatched = f x) → f t.src.xfer = f (sourceDerived v).src.xfer :=
      fun f hf => (hf _).symm.trans ((congrArg f hxfer).trans (hf _))
    rw [hxfield Xfer.entered fun _ => rfl, hxfield Xfer.mopen fun _ => rfl, hxfield Xfer.gclose fun _ => rfl,
      hxfield Xfer.state fun _ => rfl, hxfield Xfer.cause fun _ => rfl, hxfield Xfer.faultMains fun _ => rfl,
      hxfield Xfer.faultGen fun _ => rfl, hxfield Xfer.releasePending fun _ => rfl, hfield Mains.entered fun _ => rfl,
      hfield Mains.sense fun _ => rfl, hfield Mains.state fun _ => rfl, hfield Mains.outageStart fun _ => rfl, habsent, hfault]
    refine ⟨hxentered, hentered.trans hnow, hdrives, hon, hmismatch, hmsense.trans hsense,
      fun f hs1 hs2 hs3 => hpresent (hfound.trans (mainsFound_of hs1 hs2 hs3)), fun hno => ?lost, fun hfit => ?disabled,
      fun hfit hseen => ?stopping, fun hfit hseen hempty _ => ?standby⟩
    case lost =>
      obtain ⟨hstate, hstart, hcondition⟩ := hlost (hfound.trans (mainsFound_not hno))
      exact ⟨hstate, hstart.trans hnow, hcondition⟩
    case disabled =>
      have hd : derivedState s = .disabled := by
        rw [derivedState, hfit]
        rfl
      have hdrive := hhalted (.inl hd)
      rw [hd] at hdrive
      have hout : (t.gen.pre, t.gen.run, t.gen.crank) = (.released, .released, .released) := congrArg (·.2.2) hdrive
      exact ⟨congrArg (·.1) hdrive, hout⟩
    case stopping =>
      have hd : derivedState s = .stopping := by
        rw [derivedState, hfit, hseen]
        rfl
      have hdrive := hhalted (.inr hd)
      rw [hd] at hdrive
      exact ⟨congrArg (·.1) hdrive, congrArg (·.2.1) hdrive, congrArg (·.2.2.2.1) hdrive⟩
    case standby =>
      have hd : derivedState s = .standby := by
        rw [derivedState, hfit, hseen]
        rfl
      have hreq : s.gen.requests = .empty := requests_empty hempty
      have honly : OnlyDepth s.gen := by
        rw [OnlyDepth, hreq]
        exact ⟨rfl, rfl, rfl⟩
      exact (hstarts hd (by rw [hgen honly]; exact hreq)).2

end Sys2Proof.Machine
end
